-- ==== Sys2Proof/Word.lean ====
section
/-! DEFINITION. The word types of the LY4 model (R7: everything is little-endian, bit 0 is the least significant bit). -/

namespace Sys2Proof

/-- One byte, the smallest addressable unit of every memory of the device. -/
abbrev Byte := BitVec 8
/-- A 16-bit field value. -/
abbrev W16 := BitVec 16
/-- A 32-bit register or record word. -/
abbrev W32 := BitVec 32
/-- A 64-bit register, the widest register of R8. -/
abbrev W64 := BitVec 64
/-- A 16-byte tile instruction (R161) or scale entry (R221). -/
abbrev W128 := BitVec 128

end Sys2Proof
end

