-- ==== Sys2Proof/Units.lean ====
section
/-! DEFINITION. The operand types of the commands: who asks, which unit a happening concerns, what a port delivers. -/

namespace Sys2Proof

/-- The function whose BAR0 an access uses: the physical function, or the virtual function of a partition (R14). -/
inductive Fn where
  | pf
  | vf (p : Fin 8)
  deriving DecidableEq, Repr

/-- Where an excitation command comes from (R91, R141): a Trehar EXC_CMD in flight, or a write of EXC_CH_CTRL. -/
inductive ExcSrc where
  | trehar (r : Fin 128) (tag : Fin 512)
  | reg (c : Fin 4)
  deriving DecidableEq, Repr

/-- Who waits on a slot tag (R176): a tile's sequencer, a Stay core, or a command's host DMA. -/
inductive TagWaiter where
  | tile (t : Fin 16)
  | stay (t : Fin 16) (c : Fin 2)
  | cmd (r : Fin 128) (tag : Fin 512)
  deriving DecidableEq, Repr

/-- The tile fault sources of R262, CLASS 0x02; the recheck at a span boundary after the corrected-error threshold was passed; and a
single-bit Deck error, which is corrected and counted and is no fault (R267). -/
inductive TileCause where
  | girderParity | deckUncorrectable | storeUncorrectable | scaleParity | stayParity | ceThreshold | deckCorrected
  deriving DecidableEq, Repr

/-- The end of a faulted tile's BIST recheck, and the tile faults of the same cycle with theirs (R267, R286). -/
structure TileBist where
  pass : Bool
  also : List (Fin 16 × TileCause × Bool) := []
  deriving DecidableEq, Repr

/-- An output that takes staged values (R95). -/
inductive StageOut where
  | group (g : Fin 8)
  | queue (q : Fin 16)
  | tag (k : Fin 64)
  deriving DecidableEq, Repr

/-- A gate control list that runs on the timebase (R140): a stream gate of a port, or a port's egress list. -/
inductive GateRef where
  | stream (port : Fin 4) (gate : Fin 16)
  | egress (port : Fin 4)
  deriving DecidableEq, Repr

/-- The three answers that end a host read (R156), by their CAUSE in R262. -/
inductive HostErr where
  | unsupported | abort | poisoned
  deriving DecidableEq, Repr

/-- What a host read was for (R156, R318, R329, R354). -/
inductive HostRead where
  | fetch (r : Fin 128)
  | cmd (r : Fin 128) (tag : Fin 512)
  | stage
  deriving DecidableEq, Repr

/-- How a training attempt ends (R291): the peer's node, its link number and its retired-channel mask, or a failure. -/
inductive TrainResult where
  | ok (node : Fin 8) (link : Fin 8) (mask : W64)
  | failed
  deriving DecidableEq, Repr

/-- A request of a peer on the inbound path (R20, R288, R297), or blocks that pass through to another node (R294). -/
inductive Inbound where
  | read (node : Fin 8) (link : Fin 8) (addr : BitVec 36) (n : Nat)
  | write (node : Fin 8) (link : Fin 8) (addr : BitVec 36) (data : List Byte)
  | addHbm (node : Fin 8) (link : Fin 8) (seq : W64) (fmt : BitVec 4) (ring : Bool) (addr : BitVec 36) (data : List Byte)
  | addDeck (node : Fin 8) (link : Fin 8) (seq : W64) (fmt : BitVec 4) (ring : Bool) (tile : Fin 16) (slot : Fin 32768)
      (data : List Byte)
  | transit (node : Fin 8) (link : Fin 8) (dest : Fin 8) (n : Nat) (response : Bool)
  deriving DecidableEq, Repr

/-- Whose vector fires on a coalescing timeout (R117, R264). -/
inductive CoalOf where
  | ring (r : Fin 128)
  | events
  deriving DecidableEq, Repr

/-- The monitored supply groups (R387, R389, R412). -/
inductive Rail where
  | aux | io | core | sram | phy | hbm | vddq
  deriving DecidableEq, Repr

/-- A secured SPDM session, 0-3 (R332), or a message in the clear. -/
abbrev Session := Option (Fin 4)

end Sys2Proof
end

