-- ==== Sys2Proof/Syntax.lean ====
section
/-! DEFINITION. The commands of the LY4, one constructor for each row of spec/opcode_table.json, in its order. -/

namespace Sys2Proof

/-- Every command. A Trehar command names the ring and TAG of a fetched packet, whose parameters the device holds
(R122); a tile instruction names the tile whose next instruction it is; an event names its unit and its data. -/
inductive Instr where
  -- Trehar commands (R131)
  | nop (r : Fin 128) (tag : Fin 512)
  | mrRegister (r : Fin 128) (tag : Fin 512)
  | mrDeregister (r : Fin 128) (tag : Fin 512)
  | dmaCopy (r : Fin 128) (tag : Fin 512)
  | progLoad (r : Fin 128) (tag : Fin 512)
  | progRun (r : Fin 128) (tag : Fin 512)
  | progUnload (r : Fin 128) (tag : Fin 512)
  | stayCall (r : Fin 128) (tag : Fin 512)
  | semSignal (r : Fin 128) (tag : Fin 512)
  | semWait (r : Fin 128) (tag : Fin 512)
  | semTrywait (r : Fin 128) (tag : Fin 512)
  | semAcquire (r : Fin 128) (tag : Fin 512)
  | semTryacquire (r : Fin 128) (tag : Fin 512)
  | semRelease (r : Fin 128) (tag : Fin 512)
  | semRead (r : Fin 128) (tag : Fin 512)
  | alarmArm (r : Fin 128) (tag : Fin 512)
  | alarmDisarm (r : Fin 128) (tag : Fin 512)
  | descArm (r : Fin 128) (tag : Fin 512)
  | descDisarm (r : Fin 128) (tag : Fin 512)
  | qciLoad (r : Fin 128) (tag : Fin 512)
  | excOn (src : ExcSrc)
  | excOff (src : ExcSrc)
  | excClearRetired (src : ExcSrc)
  | dqSafeLoad (r : Fin 128) (tag : Fin 512)
  | tgCommit (r : Fin 128) (tag : Fin 512)
  | partReset (r : Fin 128) (tag : Fin 512)
  | tenantSwitch (r : Fin 128) (tag : Fin 512)
  | csCtxOpen (r : Fin 128) (tag : Fin 512)
  | csLoad (r : Fin 128) (tag : Fin 512)
  | csStore (r : Fin 128) (tag : Fin 512)
  | csNtt (r : Fin 128) (tag : Fin 512)
  | csIntt (r : Fin 128) (tag : Fin 512)
  | csAdd (r : Fin 128) (tag : Fin 512)
  | csSub (r : Fin 128) (tag : Fin 512)
  | csMul (r : Fin 128) (tag : Fin 512)
  | csMac (r : Fin 128) (tag : Fin 512)
  | csMulc (r : Fin 128) (tag : Fin 512)
  | csAuto (r : Fin 128) (tag : Fin 512)
  | csBconv (r : Fin 128) (tag : Fin 512)
  | csCtxClose (r : Fin 128) (tag : Fin 512)
  | hashOpen (r : Fin 128) (tag : Fin 512)
  | hashUpdate (r : Fin 128) (tag : Fin 512)
  | hashFinal (r : Fin 128) (tag : Fin 512)
  | hashClose (r : Fin 128) (tag : Fin 512)
  | dgRead (r : Fin 128) (tag : Fin 512)
  | traceConfigure (r : Fin 128) (tag : Fin 512)
  | traceReadout (r : Fin 128) (tag : Fin 512)
  | traceRelease (r : Fin 128) (tag : Fin 512)
  -- tile instructions (R164)
  | matmul (t : Fin 16)
  | window (t : Fin 16)
  | depthwise (t : Fin 16)
  | pool (t : Fin 16)
  | kvRetrieve (t : Fin 16)
  | attn (t : Fin 16)
  | eltwise (t : Fin 16)
  | convert (t : Fin 16)
  | convertSr (t : Fin 16)
  | reduceLocal (t : Fin 16)
  | reduceXt (t : Fin 16)
  | atomicAdd (t : Fin 16)
  | optStep (t : Fin 16)
  | optStepSr (t : Fin 16)
  | fill (t : Fin 16)
  | drain (t : Fin 16)
  | xfer (t : Fin 16)
  | scaleLoad (t : Fin 16)
  | tileSemWait (t : Fin 16)
  | tileSemSignal (t : Fin 16)
  | lock (t : Fin 16)
  | unlock (t : Fin 16)
  | stayInvoke (t : Fin 16)
  | stayJoin (t : Fin 16)
  | loop (t : Fin 16)
  | endRole (t : Fin 16)
  -- Stay kernels (R171)
  | prepNorm (t : Fin 16) (c : Fin 2)
  | prepUnpack (t : Fin 16) (c : Fin 2)
  | prepGrid (t : Fin 16) (c : Fin 2)
  | tidyTopk (t : Fin 16) (c : Fin 2)
  | tidyNms (t : Fin 16) (c : Fin 2)
  | clPid (t : Fin 16) (c : Fin 2)
  | clStatespace (t : Fin 16) (c : Fin 2)
  | clLimit (t : Fin 16) (c : Fin 2)
  | qCalib (t : Fin 16) (c : Fin 2)
  | qRequant (t : Fin 16) (c : Fin 2)
  | qColsum (t : Fin 16) (c : Fin 2)
  | batchBoundary (t : Fin 16)
  -- tile and run events
  | runStart (t : Fin 16)
  | tagWaitResume (w : TagWaiter)
  | semaphoreGrant (sem : Fin 8192)
  | cutBarrierRelease (run : Nat)
  | watchdogExpiry (t : Fin 16) (bistPass : Bool)
  | tileFault (t : Fin 16) (cause : TileCause) (bist : TileBist)
  | rollbackRestoreEnd (run : Nat)
  -- time and phase
  | tbNowRead (req : Fin 5)
  | tbIncWrite (v : W32)
  | tbStepWrite (v : W32)
  | ptpSync (port : Fin 4) (twoStep : Bool) (offset : W32)
  | syncTimeout
  | brChCfgWrite (ch : Fin 16) (v : W32)
  | quadratureEdge (enc : Fin 16) (forward : Bool) (fast : Bool)
  | zPulse (enc : Fin 16)
  | ssiFrame (enc : Fin 16) (resp : Option W32) (parityErr : Bool)
  | ssiPoll (enc : Fin 16)
  | zeroCrossing (m : Fin 3) (periodNs : W32)
  | lineBreak (enc : Fin 16)
  | mainsTimeout (m : Fin 3)
  | frameStartTimeout (port : Fin 8)
  | timeAlarmFire (k : Fin 256)
  | alArm (k : Fin 256)
  | alDisarm (k : Fin 256)
  | winArm (w : Fin 32)
  | winDisarm (w : Fin 32)
  | triggerEdge (n : Fin 8) (rising : Bool)
  -- ingress
  | portCfgWrite (s : Fin 64) (v : W32)
  | dArm (n : Fin 128)
  | dDisarm (n : Fin 128)
  | frameStart (port : Fin 8) (vc : Fin 16)
  | linePacket (port : Fin 8) (vc : Fin 16) (dt : BitVec 6) (data : List Byte) (eccLost : Bool) (crcOk : Bool)
  | frameEnd (port : Fin 8) (vc : Fin 16)
  | ethFrame (port : Fin 4) (data : List Byte) (fcsOk : Bool)
  | tapFrame (tap : Fin 2) (data : List Byte) (fcsOk : Bool)
  | periodicSample (n : Fin 128)
  | spiTransactionStart (port : Fin 8)
  | spiTransferEnd (port : Fin 8) (words : List W32)
  | landing (n : Fin 128)
  -- egress
  | stagingCopy (o : StageOut)
  | pwmEnable (o : Fin 32) (v : W32)
  | groupEnable (g : Fin 8) (v : W32)
  | dqEnable (q : Fin 16) (v : W32)
  | advSrcEnable (k : Fin 64) (v : W32)
  | pwmPeriodStart (o : Fin 32)
  | triggerPulseEnd (t : Fin 4)
  | driveFrameTransmit (port : Fin 4)
  | gateListEntry (g : GateRef)
  | pacerTick
  | advisoryLink (up : Bool)
  | rampEnd (c : Fin 4)
  | overload (c : Fin 4)
  | waitEnd (c : Fin 4)
  -- rings
  | ringEnable (fn : Fn) (r : Fin 128) (v : W32)
  | ringDisable (fn : Fn) (r : Fin 128) (v : W32)
  | ringDrained (r : Fin 128)
  | trhDbSq (fn : Fn) (r : Fin 128) (v : W16)
  | trhDbCq (fn : Fn) (r : Fin 128) (v : W16)
  | fetch (r : Fin 128)
  | completionPost (r : Fin 128) (tag : Fin 512)
  | hostReadError (what : HostRead) (err : HostErr)
  | functionLevelReset (p : Fin 8)
  | perstAssert
  | perstDeassert
  | configRequest
  -- registers with a row of their own, commits and resets
  | dkRgnCfgWrite (t : Fin 16) (g : Fin 16) (v : W32)
  | semCfgWrite (fn : Fn) (sem : Fin 8192) (v : W32)
  | commitScrubEnd
  | degradedClear
  | partResetDrained (p : Fin 8)
  -- memory faults
  | hbmCorrectedError (pc : Fin 64)
  | hbmCeIntervalEnd
  | hbmUncorrectableError (addr : BitVec 36)
  | vaultUncorrectable (ctx : Fin 4) (addr : BitVec 27)
  | eventRingEnable (v : W32)
  -- Causeway
  | signalDetect (l : Fin 8)
  | trainingEnd (l : Fin 8) (res : TrainResult)
  | linkAlignmentLoss (l : Fin 8)
  | retrainAttempt (l : Fin 8) (ok : Bool)
  | linkRestore (l : Fin 8)
  | linkDisable (l : Fin 8)
  | cwGrantWrite (i : Fin 64) (v : W64)
  | inboundRequest (req : Inbound)
  -- trace and counters
  | tracePostEnd
  | traceLostRecord (src : Fin 64)
  | streamFlush
  | evcSnap (v : W32)
  | evcClear (v : W32)
  | evcCfgWrite (k : Fin 64) (v : W32)
  -- Keystone
  | fwStage (v : W32)
  | fwStageVerified
  | fwActivateLive (v : W32)
  | fwActivateAtReset (v : W32)
  | fwCommitSvn (v : W32)
  | fwDiscard (v : W32)
  | firmwareReady
  | switchTimeout
  | ksDbgOpen (v : W32)
  | scrubEnd (p : Fin 8) (us : W32)
  | vaultShareWrite (p : Fin 8) (v : W32)
  | limbStepEnd
  -- SPDM, IDE_KM and TDISP requests over DOE
  | spdmGetVersion (ses : Session)
  | spdmGetCapabilities (ses : Session)
  | spdmNegotiateAlgorithms (ses : Session)
  | spdmGetDigests (ses : Session)
  | spdmGetCertificate (ses : Session) (slot : Fin 8)
  | spdmChallenge (ses : Session) (slot : Fin 8) (nonce : List Byte)
  | spdmGetMeasurements (ses : Session) (index : Fin 256) (nonce : List Byte)
  | spdmKeyExchange (ses : Session) (slot : Fin 8) (exch : List Byte)
  | spdmFinish (ses : Fin 4) (verify : List Byte)
  | spdmHeartbeat (ses : Fin 4)
  | spdmKeyUpdate (ses : Fin 4)
  | spdmEndSession (ses : Fin 4)
  | spdmRespondIfReady (ses : Session) (token : Nat)
  | spdmChunkSend (ses : Session) (handle : Byte) (last : Bool) (data : List Byte)
  | spdmChunkGet (ses : Session) (handle : Byte) (seq : Nat)
  | spdmGetCsr (ses : Session)
  | spdmSetCertificate (ses : Session) (slot : Fin 8) (chain : List Byte)
  | ideKSetGo (ses : Session) (stream : Fin 9)
  | tdispGetVersion (ses : Session) (p : Fin 8)
  | tdispGetCapabilities (ses : Session) (p : Fin 8)
  | tdispLock (ses : Session) (p : Fin 8)
  | tdispGetReport (ses : Session) (p : Fin 8)
  | tdispGetState (ses : Session) (p : Fin 8)
  | tdispStart (ses : Session) (p : Fin 8)
  | tdispStop (ses : Session) (p : Fin 8)
  -- thermal
  | thermalSample (stackT : Vector W16 4) (tileT : Vector W16 16) (power : W16)
  | throttleClear
  | inletRead (reading : Option W16)
  | thermalEvaluation
  -- power-up
  | supplyGood
  | pwrGoodFall
  | resetN (low : Bool)
  | supplyDrop
  | pllLock
  | bootComplete
  | hubRelease
  | hbmTrainingEnd (failed : W64)
  | memoryReady
  | hostReady
  | ptpServoStart
  -- the remaining register writes and events
  | registerWrite (fn : Fn) (addr : Nat) (width : Nat) (data : W64)
  | mainsPllTick (m : Fin 3)
  | excSenseSample (c : Fin 4) (vcode : BitVec 12) (icode : BitVec 12)
  | portLinkChange (s : Fin 64) (up : Bool)
  | pcieRetrain (gts : Nat) (width : Nat)
  | coalescingTimeout (who : CoalOf)
  | linkCrcError (l : Fin 8)
  | retiredMaskUpdate (node : Fin 8) (mask : W64)
  | hostWriteError (err : HostErr)
  | supplyRailChange (rail : Rail) (percent : Nat)
  -- boundary scan
  | jtagExtest
  | jtagIdcode
  | jtagSamplePreload
  | jtagClamp
  | jtagHighz
  | jtagExtestPulse
  | jtagExtestTrain
  | jtagBypass
  | testLogicReset
  deriving DecidableEq, Repr

end Sys2Proof
end

