-- ==== Sys2Proof/Decode.lean ====
section
/-! DEFINITION. The commands that a word spells by the bits of spec/opcode_table.json. -/

namespace Sys2Proof

/-- The command that a word of `nbits` bits spells. No row of the table gives bits ("fields" is empty in each), so no
word spells a command: a Trehar packet is fetched and checked by the FETCH command (R121, R126). -/
def decodeTableWord (_nbits _w : Nat) : Option Instr := none

end Sys2Proof
end

