-- ==== Sys2Proof/Machine/Bits.lean ====
section
/-! DEFINITION. Bit fields, little-endian bytes and the sparse tables the state is built from (R7). -/

namespace Sys2Proof.Machine

/-- The value of the `w`-bit field whose lowest bit is `lo` (R7). -/
def getBits (v : W64) (lo w : Nat) : Nat := (v.extractLsb' lo w).toNat

/-- The bits of one field set to 1. -/
def fieldMask (lo w : Nat) : W64 := BitVec.ofNat 64 (2 ^ w - 1) <<< lo

/-- `v` with the `w`-bit field at `lo` replaced by `x` modulo 2^w (R7). -/
def setBits (v : W64) (lo w x : Nat) : W64 :=
  (v &&& ~~~ fieldMask lo w) ||| ((BitVec.ofNat 64 (x % 2 ^ w)) <<< lo)

/-- A field of a packet or record held as a number: bits `lo` to `lo + w - 1`. -/
def natBits (v lo w : Nat) : Nat := v / 2 ^ lo % 2 ^ w

/-- One bit of a number. -/
def natBit (v i : Nat) : Bool := v / 2 ^ i % 2 == 1

/-- The number of bits set among the lowest `n` bits of `v`. -/
def popCount (v : Nat) : Nat → Nat
  | 0 => 0
  | n + 1 => (if natBit v n then 1 else 0) + popCount v n

/-- The positions of the bits set among the lowest `n` bits of `v`, ascending. -/
def bitList (v n : Nat) : List Nat := (List.range n).filter (natBit v)

/-- The signed 32-bit difference d = (int32)(a - b) of R34. -/
def sdiff (a b : W32) : Int := (a - b).toInt

/-- Two's-complement reading of the lowest `w` bits of `v`. -/
def toSigned (w v : Nat) : Int :=
  let x := v % 2 ^ w
  if x < 2 ^ (w - 1) then (x : Int) else (x : Int) - 2 ^ w

/-- The lowest `w` bits of an integer, two's complement. -/
def ofSigned (w : Nat) (i : Int) : Nat := (i % (2 ^ w : Int)).toNat

/-- Little-endian number of a byte list (R7). -/
def leNat : List Byte → Nat
  | [] => 0
  | b :: bs => b.toNat + 256 * leNat bs

/-- The `n` little-endian bytes of a number (R7). -/
def leBytes : Nat → Nat → List Byte
  | 0, _ => []
  | n + 1, x => BitVec.ofNat 8 x :: leBytes n (x / 256)

/-- A little-endian field of `n` bytes at byte offset `o` of a packet or record (R7). -/
def leField (bs : List Byte) (o n : Nat) : Nat := leNat ((bs.drop o).take n)

/-- Whether `n` bytes from offset `o` are all 0 (a reserved field, R124). -/
def allZero (bs : List Byte) (o n : Nat) : Bool := ((bs.drop o).take n).all (· == 0#8)

/-- `a` rounded up to a multiple: the least number of `b`-sized pieces that hold `a`. -/
def ceilDiv (a b : Nat) : Nat := (a + b - 1) / b

/-- A sparse table: entries by rising key, none equal to the default. -/
abbrev Tab (V : Type) := List (Nat × V)

/-- The value at a key; an unlisted key reads the default. -/
def tabGet {V : Type} (d : V) : Tab V → Nat → V
  | [], _ => d
  | (k', v) :: t, k => if k = k' then v else tabGet d t k

/-- An entry put at its place in the rising order. -/
def tabPut {V : Type} : Tab V → Nat → V → Tab V
  | [], k, v => [(k, v)]
  | (k', v') :: t, k, v =>
    if k < k' then (k, v) :: (k', v') :: t
    else if k = k' then (k, v) :: t
    else (k', v') :: tabPut t k v

/-- Write a key; writing the default removes the entry, so that equal tables are equal data. -/
def tabSet {V : Type} [DecidableEq V] (d : V) (t : Tab V) (k : Nat) (v : V) : Tab V :=
  if v = d then t.filter (fun e => e.1 ≠ k) else tabPut t k v

/-- Keys strictly rising. -/
def tabSorted {V : Type} : Tab V → Bool
  | [] => true
  | [_] => true
  | (k, _) :: (k', v') :: t => decide (k < k') && tabSorted ((k', v') :: t)

/-- The canonical form: keys strictly rising and no entry equal to the default. -/
def tabWf {V : Type} [DecidableEq V] (d : V) (t : Tab V) : Bool :=
  tabSorted t && t.all (fun e => decide (e.2 ≠ d))

/-- A byte memory: canonical cells, an unlisted address reads 0 (log entries 3 and 4). -/
abbrev Memory := List Host.Cell

/-- The byte at an address. -/
def memGet (m : Memory) (a : Nat) : Byte := tabGet 0#8 m a

/-- One byte written. -/
def memSet (m : Memory) (a : Nat) (b : Byte) : Memory := tabSet 0#8 m a b

/-- The canonical form of a memory. -/
def memWf (m : Memory) : Bool := tabWf (V := Byte) 0#8 m

/-- `n` bytes from address `a`, ascending. -/
def memRead (m : Memory) (a : Nat) : Nat → List Byte
  | 0 => []
  | n + 1 => memGet m a :: memRead m (a + 1) n

/-- Bytes written from address `a`, ascending. -/
def memWrite (m : Memory) (a : Nat) : List Byte → Memory
  | [] => m
  | b :: bs => memWrite (memSet m a b) (a + 1) bs

/-- A little-endian number of `n` bytes (R7). -/
def memNat (m : Memory) (a n : Nat) : Nat := leNat (memRead m a n)

/-- A little-endian number written as `n` bytes (R7). -/
def memPut (m : Memory) (a n x : Nat) : Memory := memWrite m a (leBytes n x)

/-- Every listed byte from `a` to `a + n - 1` returned to 0 (a scrub). -/
def memClear (m : Memory) (a n : Nat) : Memory := m.filter (fun e => ¬ (a ≤ e.1 ∧ e.1 < a + n))

/-- Every entry of a table from key `a` to `a + n - 1` returned to the default. -/
def tabClear {V : Type} (t : Tab V) (a n : Nat) : Tab V :=
  t.filter (fun e => ¬ (a ≤ e.1 ∧ e.1 < a + n))

/-- Apply `f` for each index of a list in order. -/
def forEach {α σ : Type} (l : List α) (f : α → σ → σ) (s : σ) : σ := l.foldl (fun s a => f a s) s

/-- An element put into a sorted list before the first that does not come before it. -/
def insertBy {α : Type} (le : α → α → Bool) (a : α) : List α → List α
  | [] => [a]
  | b :: l => if le a b then a :: b :: l else b :: insertBy le a l

/-- A short list in the order of `le`; equals keep their order. -/
def sortBy {α : Type} (le : α → α → Bool) (l : List α) : List α := l.foldr (insertBy le) []

/-- The list with the element at `i` replaced. -/
def listSet {α : Type} (l : List α) (i : Nat) (a : α) : List α := l.set i a

/-- A 32-bit bit-reflected CRC with polynomial `poly` over one byte. -/
def crcStep (poly c : W32) (b : Byte) : W32 :=
  (List.range 8).foldl (fun c _ =>
    if c.getLsbD 0 then (c >>> 1) ^^^ poly else c >>> 1) (c ^^^ b.setWidth 32)

/-- CRC-32C of a byte list (R107, R187). -/
def crc32c (bs : List Byte) : W32 := ~~~ bs.foldl (crcStep 0x82F63B78#32) 0xFFFFFFFF#32

/-- The frame check sequence of an Ethernet frame (R104, R107; IEEE 802.3's CRC-32). -/
def fcs (bs : List Byte) : W32 := ~~~ bs.foldl (crcStep 0xEDB88320#32) 0xFFFFFFFF#32

/-- The `n` bytes of a number, most significant first (network order). -/
def beBytes (n x : Nat) : List Byte := (leBytes n x).reverse

end Sys2Proof.Machine
end

