-- ==== Sys2Proof/Machine/Regs.lean ====
section
/-! DEFINITION. The register map of the LY4: every register of the section files with its place in BAR0 (R12), its
width (R8), its fields with their types (R9) and its reset value (R11). -/

namespace Sys2Proof.Machine

/-- Every register the spec names, under its own name; the comment cites the rule whose table lays it out. -/
inductive Reg where
  | KS_GRADE  -- R3
  | TB_CTRL  -- R31
  | TB_INC  -- R31
  | TB_NOW  -- R31
  | TB_SNAP  -- R31
  | TB_STEP  -- R31
  | TB_STATUS  -- R31
  | TB_OFFSET  -- R31
  | BR_CH_CFG  -- R41
  | BR_CH_PHASE  -- R41
  | BR_CH_STAT  -- R41
  | BR_CH_QUANT  -- R41
  | BR_CH_OFFSET  -- R41
  | BR_CH_STAMP  -- R41
  | BR_AL_CFG  -- R45
  | BR_AL_TARGET  -- R45
  | BR_AL_PERIOD  -- R45
  | BR_AL_STAT  -- R45
  | BR_WIN_CFG  -- R53
  | BR_WIN_START  -- R53
  | BR_WIN_STOP  -- R53
  | BR_WIN_LEN  -- R53
  | BR_WIN_STAT  -- R53
  | BR_WIN_OWN  -- R53
  | ING_PORT_CFG  -- R63
  | ING_PORT_STAT  -- R63
  | ING_PORT_CNT  -- R63
  | ING_D_CFG  -- R71
  | ING_D_SEL  -- R71
  | ING_D_DATA  -- R71
  | ING_D_REC  -- R71
  | ING_D_CTRL  -- R71
  | ING_D_PTR  -- R71
  | ING_D_RPTR  -- R71
  | ING_D_CNT0  -- R71
  | ING_D_CNT1  -- R71
  | EXC_CH_CFG  -- R90
  | EXC_CH_LIM  -- R90
  | EXC_CH_CTRL  -- R90
  | EXC_CH_STAT  -- R90
  | EXC_CH_MEAS  -- R90
  | ACT_PWM_CFG  -- R99
  | ACT_PWM_PERIOD  -- R99
  | ACT_PWM_SAFE  -- R99
  | ACT_PWM_STAT  -- R99
  | ACT_GRP_CFG  -- R99
  | ACT_GRP_STAT  -- R99
  | ACT_TRIG_CFG  -- R102
  | ACT_DQ_CFG  -- R103
  | ACT_DQ_SRC  -- R103
  | ACT_DQ_STAT  -- R103
  | ACT_DQ_TXTS  -- R103
  | ACT_ADV_WL0  -- R106
  | ACT_ADV_WL1  -- R106
  | ACT_ADV_WL2  -- R106
  | ACT_ADV_SRC  -- R106
  | ACT_ADV_TSTAT  -- R106
  | ACT_ADV_STAT  -- R106
  | ACT_ADV_CNT  -- R106
  | TRH_RING_CFG  -- R117
  | TRH_SQ_BASE  -- R117
  | TRH_CQ_BASE  -- R117
  | TRH_RING_PTR  -- R117
  | TRH_RING_STAT  -- R117
  | TRH_RING_IRQ  -- R117
  | TRH_PART_CFG  -- R117
  | TRH_PART_STAT  -- R117
  | DK_STAT  -- R174
  | DK_RGN_CFG  -- R174
  | DK_TAGS  -- R174
  | SEM_CFG  -- R179
  | SEM_STAT  -- R179
  | SEM_OWNER  -- R179
  | PT_STAT  -- R186
  | PT_RUN  -- R186
  | PT_STAY  -- R186
  | PT_NUM  -- R234
  | TG_CAP  -- R243
  | TG_STATUS  -- R243
  | TG_SERVICE  -- R243
  | TG_CFG  -- R243
  | TG_EFF  -- R243
  | TG_WAIT  -- R243
  | TG_BYTES_RSV  -- R243
  | TG_BYTES_EXC  -- R243
  | TG_PART  -- R243
  | TG_FRAMES  -- R243
  | FLT_STAT  -- R261
  | FLT_PC  -- R261
  | FLT_EVR_CFG  -- R264
  | FLT_EVR_BASE  -- R264
  | FLT_EVR_PTR  -- R264
  | FLT_EVR_STAT  -- R264
  | CW_NODE  -- R287
  | CW_EXPORT  -- R288
  | CW_GRANT  -- R289
  | CW_LINK_STAT  -- R290
  | CW_LINK_CTRL  -- R290
  | CW_LINK_CNT  -- R290
  | DG_PART  -- R309
  | TRC_STAT  -- R319
  | TRC_SRC  -- R319
  | TRC_TRIG  -- R319
  | TRC_CNT  -- R319
  | EVC_CTRL  -- R320
  | EVC_SNAPTIME  -- R320
  | EVC_CFG  -- R320
  | EVC_VAL  -- R320
  | EVC_SNAP  -- R320
  | KS_STAT  -- R328
  | KS_FW_SRC  -- R328
  | KS_FW_CTRL  -- R328
  | KS_FW_STAT  -- R328
  | KS_PART_ATT  -- R334
  | CS_PART_VAULT  -- R359
  | CS_CTX  -- R361
  | CS_STAT  -- R361
  | TH_CFG  -- R376
  | TH_RTH  -- R376
  | TH_STAT  -- R381
  | TH_POWER  -- R381
  | TH_STATIC  -- R381
  | TH_INLET  -- R381
  | TH_STACK  -- R381
  | TH_TILE  -- R381
  | TH_DIE  -- R381
  | KS_BOOT  -- R399
  | KS_DBG_SRC  -- R347
  | KS_DBG_CTRL  -- R347
  | TRH_DB_SQ  -- R119
  | TRH_DB_CQ  -- R119
  deriving DecidableEq, Repr

/-- The field types of R9; a reserved bit has no field and so reads 0 and ignores writes. -/
inductive FTy where
  | ro | rw | rw1c | wo
  deriving DecidableEq, Repr

/-- A field: its register, its lowest bit and its width. -/
structure Fld where
  r : Reg
  lo : Nat
  w : Nat
  deriving DecidableEq, Repr

/-- A field as R9 sees it in its register's table. -/
structure FInfo where
  lo : Nat
  w : Nat
  ty : FTy
  deriving DecidableEq, Repr

/-- Where a register stands in BAR0 (R12): base, then up to two index dimensions (count, stride), and its width. -/
structure RPlace where
  base : Nat
  n1 : Nat
  s1 : Nat
  n2 : Nat
  s2 : Nat
  width : Nat
  deriving DecidableEq, Repr

namespace F
abbrev KS_GRADE_STEPPING : Fld := ⟨.KS_GRADE, 24, 8⟩
abbrev KS_GRADE_GRADE : Fld := ⟨.KS_GRADE, 16, 4⟩
abbrev KS_GRADE_TILE_MASK : Fld := ⟨.KS_GRADE, 0, 16⟩
abbrev TB_CTRL_PTP_PORT : Fld := ⟨.TB_CTRL, 2, 2⟩
abbrev TB_CTRL_STEP_EN : Fld := ⟨.TB_CTRL, 1, 1⟩
abbrev TB_CTRL_SERVO : Fld := ⟨.TB_CTRL, 0, 1⟩
abbrev TB_INC_INC : Fld := ⟨.TB_INC, 0, 32⟩
abbrev TB_NOW_NS : Fld := ⟨.TB_NOW, 0, 32⟩
abbrev TB_SNAP_WRAP : Fld := ⟨.TB_SNAP, 24, 8⟩
abbrev TB_SNAP_FRAC : Fld := ⟨.TB_SNAP, 0, 24⟩
abbrev TB_STEP_DELTA : Fld := ⟨.TB_STEP, 0, 32⟩
abbrev TB_STATUS_INC_CLAMPED : Fld := ⟨.TB_STATUS, 4, 1⟩
abbrev TB_STATUS_STEPPED : Fld := ⟨.TB_STATUS, 3, 1⟩
abbrev TB_STATUS_LOCK_LOST : Fld := ⟨.TB_STATUS, 2, 1⟩
abbrev TB_STATUS_HOLDOVER : Fld := ⟨.TB_STATUS, 1, 1⟩
abbrev TB_STATUS_TB_LOCKED : Fld := ⟨.TB_STATUS, 0, 1⟩
abbrev TB_OFFSET_OFFSET : Fld := ⟨.TB_OFFSET, 0, 32⟩
abbrev BR_CH_CFG_EN : Fld := ⟨.BR_CH_CFG, 31, 1⟩
abbrev BR_CH_CFG_SRC : Fld := ⟨.BR_CH_CFG, 28, 3⟩
abbrev BR_CH_CFG_SRC_IDX : Fld := ⟨.BR_CH_CFG, 24, 4⟩
abbrev BR_CH_CFG_REV : Fld := ⟨.BR_CH_CFG, 23, 1⟩
abbrev BR_CH_CFG_CYCLE : Fld := ⟨.BR_CH_CFG, 0, 23⟩
abbrev BR_CH_PHASE_PHASE : Fld := ⟨.BR_CH_PHASE, 0, 32⟩
abbrev BR_CH_STAT_OVERSPEED : Fld := ⟨.BR_CH_STAT, 6, 1⟩
abbrev BR_CH_STAT_CFG_ERR : Fld := ⟨.BR_CH_STAT, 5, 1⟩
abbrev BR_CH_STAT_RESYNC : Fld := ⟨.BR_CH_STAT, 4, 1⟩
abbrev BR_CH_STAT_SRC_LOST : Fld := ⟨.BR_CH_STAT, 3, 1⟩
abbrev BR_CH_STAT_REVERSE_NOW : Fld := ⟨.BR_CH_STAT, 2, 1⟩
abbrev BR_CH_STAT_PLL_LOCKED : Fld := ⟨.BR_CH_STAT, 1, 1⟩
abbrev BR_CH_STAT_VALID : Fld := ⟨.BR_CH_STAT, 0, 1⟩
abbrev BR_CH_QUANT_QUANT : Fld := ⟨.BR_CH_QUANT, 0, 32⟩
abbrev BR_CH_OFFSET_OFFSET : Fld := ⟨.BR_CH_OFFSET, 0, 32⟩
abbrev BR_CH_STAMP_NS : Fld := ⟨.BR_CH_STAMP, 0, 32⟩
abbrev BR_AL_CFG_MODE : Fld := ⟨.BR_AL_CFG, 30, 2⟩
abbrev BR_AL_CFG_DIR : Fld := ⟨.BR_AL_CFG, 28, 2⟩
abbrev BR_AL_CFG_DOMAIN : Fld := ⟨.BR_AL_CFG, 27, 1⟩
abbrev BR_AL_CFG_CHANNEL : Fld := ⟨.BR_AL_CFG, 23, 4⟩
abbrev BR_AL_CFG_PART : Fld := ⟨.BR_AL_CFG, 20, 3⟩
abbrev BR_AL_CFG_ACTION : Fld := ⟨.BR_AL_CFG, 16, 4⟩
abbrev BR_AL_CFG_ARG : Fld := ⟨.BR_AL_CFG, 0, 16⟩
abbrev BR_AL_TARGET_TARGET : Fld := ⟨.BR_AL_TARGET, 0, 32⟩
abbrev BR_AL_PERIOD_PERIOD : Fld := ⟨.BR_AL_PERIOD, 0, 32⟩
abbrev BR_AL_STAT_ARM : Fld := ⟨.BR_AL_STAT, 31, 1⟩
abbrev BR_AL_STAT_DISARM : Fld := ⟨.BR_AL_STAT, 30, 1⟩
abbrev BR_AL_STAT_SKIP : Fld := ⟨.BR_AL_STAT, 16, 8⟩
abbrev BR_AL_STAT_FIRE_CNT : Fld := ⟨.BR_AL_STAT, 8, 8⟩
abbrev BR_AL_STAT_CFG_ERR : Fld := ⟨.BR_AL_STAT, 6, 1⟩
abbrev BR_AL_STAT_MISSED_INVALID : Fld := ⟨.BR_AL_STAT, 5, 1⟩
abbrev BR_AL_STAT_RESYNC : Fld := ⟨.BR_AL_STAT, 4, 1⟩
abbrev BR_AL_STAT_PAST : Fld := ⟨.BR_AL_STAT, 3, 1⟩
abbrev BR_AL_STAT_FIRED : Fld := ⟨.BR_AL_STAT, 2, 1⟩
abbrev BR_AL_STAT_ARMED : Fld := ⟨.BR_AL_STAT, 0, 1⟩
abbrev BR_WIN_CFG_REPEAT : Fld := ⟨.BR_WIN_CFG, 31, 1⟩
abbrev BR_WIN_CFG_DOMAIN : Fld := ⟨.BR_WIN_CFG, 30, 1⟩
abbrev BR_WIN_CFG_CHANNEL : Fld := ⟨.BR_WIN_CFG, 26, 4⟩
abbrev BR_WIN_CFG_GATE_EN : Fld := ⟨.BR_WIN_CFG, 25, 1⟩
abbrev BR_WIN_CFG_GATE_DESC : Fld := ⟨.BR_WIN_CFG, 18, 7⟩
abbrev BR_WIN_CFG_START_SRC : Fld := ⟨.BR_WIN_CFG, 9, 9⟩
abbrev BR_WIN_CFG_STOP_SRC : Fld := ⟨.BR_WIN_CFG, 0, 9⟩
abbrev BR_WIN_START_STAMP : Fld := ⟨.BR_WIN_START, 0, 32⟩
abbrev BR_WIN_STOP_STAMP : Fld := ⟨.BR_WIN_STOP, 0, 32⟩
abbrev BR_WIN_LEN_LEN : Fld := ⟨.BR_WIN_LEN, 0, 32⟩
abbrev BR_WIN_STAT_ARM : Fld := ⟨.BR_WIN_STAT, 31, 1⟩
abbrev BR_WIN_STAT_DISARM : Fld := ⟨.BR_WIN_STAT, 30, 1⟩
abbrev BR_WIN_STAT_COUNT : Fld := ⟨.BR_WIN_STAT, 8, 8⟩
abbrev BR_WIN_STAT_CFG_ERR : Fld := ⟨.BR_WIN_STAT, 5, 1⟩
abbrev BR_WIN_STAT_INCOMPLETE : Fld := ⟨.BR_WIN_STAT, 4, 1⟩
abbrev BR_WIN_STAT_SUB_RESOLUTION : Fld := ⟨.BR_WIN_STAT, 3, 1⟩
abbrev BR_WIN_STAT_ORDER_INVERTED : Fld := ⟨.BR_WIN_STAT, 2, 1⟩
abbrev BR_WIN_STAT_DONE : Fld := ⟨.BR_WIN_STAT, 1, 1⟩
abbrev BR_WIN_STAT_ARMED : Fld := ⟨.BR_WIN_STAT, 0, 1⟩
abbrev BR_WIN_OWN_PART : Fld := ⟨.BR_WIN_OWN, 0, 3⟩
abbrev ING_PORT_CFG_OFF : Fld := ⟨.ING_PORT_CFG, 31, 1⟩
abbrev ING_PORT_CFG_PARAM : Fld := ⟨.ING_PORT_CFG, 0, 24⟩
abbrev ING_PORT_STAT_ERR : Fld := ⟨.ING_PORT_STAT, 2, 1⟩
abbrev ING_PORT_STAT_TX_HELD : Fld := ⟨.ING_PORT_STAT, 1, 1⟩
abbrev ING_PORT_STAT_LINK : Fld := ⟨.ING_PORT_STAT, 0, 1⟩
abbrev ING_PORT_CNT_ERRORS : Fld := ⟨.ING_PORT_CNT, 32, 32⟩
abbrev ING_PORT_CNT_UNMATCHED : Fld := ⟨.ING_PORT_CNT, 0, 32⟩
abbrev ING_D_CFG_DEST : Fld := ⟨.ING_D_CFG, 31, 1⟩
abbrev ING_D_CFG_PART : Fld := ⟨.ING_D_CFG, 28, 3⟩
abbrev ING_D_CFG_SRC : Fld := ⟨.ING_D_CFG, 22, 6⟩
abbrev ING_D_CFG_PH_EN : Fld := ⟨.ING_D_CFG, 21, 1⟩
abbrev ING_D_CFG_BR_CH : Fld := ⟨.ING_D_CFG, 17, 4⟩
abbrev ING_D_CFG_SAMPLE : Fld := ⟨.ING_D_CFG, 15, 2⟩
abbrev ING_D_CFG_ALIGN : Fld := ⟨.ING_D_CFG, 14, 1⟩
abbrev ING_D_CFG_SEM_EN : Fld := ⟨.ING_D_CFG, 13, 1⟩
abbrev ING_D_CFG_SEM : Fld := ⟨.ING_D_CFG, 0, 13⟩
abbrev ING_D_SEL_SEL : Fld := ⟨.ING_D_SEL, 0, 32⟩
abbrev ING_D_DATA_SIZE : Fld := ⟨.ING_D_DATA, 40, 24⟩
abbrev ING_D_DATA_LOC : Fld := ⟨.ING_D_DATA, 0, 40⟩
abbrev ING_D_REC_LOG2_RECS : Fld := ⟨.ING_D_REC, 40, 4⟩
abbrev ING_D_REC_ADDR : Fld := ⟨.ING_D_REC, 0, 40⟩
abbrev ING_D_CTRL_ARM : Fld := ⟨.ING_D_CTRL, 31, 1⟩
abbrev ING_D_CTRL_DISARM : Fld := ⟨.ING_D_CTRL, 30, 1⟩
abbrev ING_D_CTRL_FAULT : Fld := ⟨.ING_D_CTRL, 9, 1⟩
abbrev ING_D_CTRL_CFG_ERR : Fld := ⟨.ING_D_CTRL, 8, 1⟩
abbrev ING_D_CTRL_LAST_DROP : Fld := ⟨.ING_D_CTRL, 4, 4⟩
abbrev ING_D_CTRL_STATE : Fld := ⟨.ING_D_CTRL, 0, 2⟩
abbrev ING_D_PTR_CONS : Fld := ⟨.ING_D_PTR, 32, 32⟩
abbrev ING_D_PTR_PROD : Fld := ⟨.ING_D_PTR, 0, 32⟩
abbrev ING_D_RPTR_REC_CONS : Fld := ⟨.ING_D_RPTR, 32, 16⟩
abbrev ING_D_RPTR_REC_PROD : Fld := ⟨.ING_D_RPTR, 0, 16⟩
abbrev ING_D_CNT0_DROPS : Fld := ⟨.ING_D_CNT0, 32, 32⟩
abbrev ING_D_CNT0_UNITS : Fld := ⟨.ING_D_CNT0, 0, 32⟩
abbrev ING_D_CNT1_GATED : Fld := ⟨.ING_D_CNT1, 32, 32⟩
abbrev ING_D_CNT1_QUIET : Fld := ⟨.ING_D_CNT1, 0, 32⟩
abbrev EXC_CH_CFG_PART : Fld := ⟨.EXC_CH_CFG, 28, 3⟩
abbrev EXC_CH_CFG_SETPOINT : Fld := ⟨.EXC_CH_CFG, 0, 16⟩
abbrev EXC_CH_LIM_FOLD : Fld := ⟨.EXC_CH_LIM, 28, 4⟩
abbrev EXC_CH_LIM_ISCALE : Fld := ⟨.EXC_CH_LIM, 16, 12⟩
abbrev EXC_CH_LIM_ILIM : Fld := ⟨.EXC_CH_LIM, 0, 16⟩
abbrev EXC_CH_CTRL_CMD : Fld := ⟨.EXC_CH_CTRL, 30, 2⟩
abbrev EXC_CH_STAT_CFG_ERR : Fld := ⟨.EXC_CH_STAT, 13, 1⟩
abbrev EXC_CH_STAT_RETIRED_EV : Fld := ⟨.EXC_CH_STAT, 12, 1⟩
abbrev EXC_CH_STAT_OVERLOAD : Fld := ⟨.EXC_CH_STAT, 11, 1⟩
abbrev EXC_CH_STAT_RAMP_FAIL : Fld := ⟨.EXC_CH_STAT, 10, 1⟩
abbrev EXC_CH_STAT_FOLDBACK : Fld := ⟨.EXC_CH_STAT, 9, 1⟩
abbrev EXC_CH_STAT_LIMITING : Fld := ⟨.EXC_CH_STAT, 8, 1⟩
abbrev EXC_CH_STAT_ATTEMPT : Fld := ⟨.EXC_CH_STAT, 4, 2⟩
abbrev EXC_CH_STAT_STATE : Fld := ⟨.EXC_CH_STAT, 0, 3⟩
abbrev EXC_CH_MEAS_VOUT : Fld := ⟨.EXC_CH_MEAS, 16, 16⟩
abbrev EXC_CH_MEAS_IOUT : Fld := ⟨.EXC_CH_MEAS, 0, 16⟩
abbrev ACT_PWM_CFG_EN : Fld := ⟨.ACT_PWM_CFG, 31, 1⟩
abbrev ACT_PWM_CFG_GROUP : Fld := ⟨.ACT_PWM_CFG, 28, 3⟩
abbrev ACT_PWM_CFG_CENTRE : Fld := ⟨.ACT_PWM_CFG, 27, 1⟩
abbrev ACT_PWM_CFG_INV : Fld := ⟨.ACT_PWM_CFG, 26, 1⟩
abbrev ACT_PWM_CFG_IDLE : Fld := ⟨.ACT_PWM_CFG, 25, 1⟩
abbrev ACT_PWM_CFG_UPD_NOW : Fld := ⟨.ACT_PWM_CFG, 24, 1⟩
abbrev ACT_PWM_CFG_POLICY : Fld := ⟨.ACT_PWM_CFG, 22, 2⟩
abbrev ACT_PWM_PERIOD_PERIOD : Fld := ⟨.ACT_PWM_PERIOD, 0, 24⟩
abbrev ACT_PWM_SAFE_SAFE : Fld := ⟨.ACT_PWM_SAFE, 0, 24⟩
abbrev ACT_PWM_STAT_MISS : Fld := ⟨.ACT_PWM_STAT, 25, 7⟩
abbrev ACT_PWM_STAT_STALE : Fld := ⟨.ACT_PWM_STAT, 24, 1⟩
abbrev ACT_PWM_STAT_DUTY : Fld := ⟨.ACT_PWM_STAT, 0, 24⟩
abbrev ACT_GRP_CFG_EN : Fld := ⟨.ACT_GRP_CFG, 31, 1⟩
abbrev ACT_GRP_CFG_PART : Fld := ⟨.ACT_GRP_CFG, 28, 3⟩
abbrev ACT_GRP_CFG_TILE : Fld := ⟨.ACT_GRP_CFG, 24, 4⟩
abbrev ACT_GRP_CFG_REGION : Fld := ⟨.ACT_GRP_CFG, 20, 4⟩
abbrev ACT_GRP_CFG_SLOT : Fld := ⟨.ACT_GRP_CFG, 0, 15⟩
abbrev ACT_GRP_STAT_FRESH : Fld := ⟨.ACT_GRP_STAT, 31, 1⟩
abbrev ACT_GRP_STAT_CFG_ERR : Fld := ⟨.ACT_GRP_STAT, 30, 1⟩
abbrev ACT_GRP_STAT_OVERWRITE : Fld := ⟨.ACT_GRP_STAT, 0, 8⟩
abbrev ACT_TRIG_CFG_EN : Fld := ⟨.ACT_TRIG_CFG, 31, 1⟩
abbrev ACT_TRIG_CFG_PART : Fld := ⟨.ACT_TRIG_CFG, 28, 3⟩
abbrev ACT_TRIG_CFG_POL : Fld := ⟨.ACT_TRIG_CFG, 27, 1⟩
abbrev ACT_TRIG_CFG_WIDTH : Fld := ⟨.ACT_TRIG_CFG, 0, 20⟩
abbrev ACT_DQ_CFG_EN : Fld := ⟨.ACT_DQ_CFG, 31, 1⟩
abbrev ACT_DQ_CFG_PART : Fld := ⟨.ACT_DQ_CFG, 28, 3⟩
abbrev ACT_DQ_CFG_PORT : Fld := ⟨.ACT_DQ_CFG, 26, 2⟩
abbrev ACT_DQ_CFG_TC : Fld := ⟨.ACT_DQ_CFG, 23, 3⟩
abbrev ACT_DQ_CFG_POLICY : Fld := ⟨.ACT_DQ_CFG, 21, 2⟩
abbrev ACT_DQ_CFG_STALE_OFS : Fld := ⟨.ACT_DQ_CFG, 10, 11⟩
abbrev ACT_DQ_CFG_STALE_MASK : Fld := ⟨.ACT_DQ_CFG, 2, 8⟩
abbrev ACT_DQ_SRC_TILE : Fld := ⟨.ACT_DQ_SRC, 28, 4⟩
abbrev ACT_DQ_SRC_REGION : Fld := ⟨.ACT_DQ_SRC, 24, 4⟩
abbrev ACT_DQ_SRC_NSLOTS : Fld := ⟨.ACT_DQ_SRC, 21, 3⟩
abbrev ACT_DQ_SRC_SLOT : Fld := ⟨.ACT_DQ_SRC, 0, 15⟩
abbrev ACT_DQ_STAT_FRESH : Fld := ⟨.ACT_DQ_STAT, 31, 1⟩
abbrev ACT_DQ_STAT_SAFE_LOADED : Fld := ⟨.ACT_DQ_STAT, 30, 1⟩
abbrev ACT_DQ_STAT_CFG_ERR : Fld := ⟨.ACT_DQ_STAT, 29, 1⟩
abbrev ACT_DQ_STAT_DISCARD : Fld := ⟨.ACT_DQ_STAT, 16, 8⟩
abbrev ACT_DQ_STAT_MISS : Fld := ⟨.ACT_DQ_STAT, 8, 8⟩
abbrev ACT_DQ_STAT_SENT : Fld := ⟨.ACT_DQ_STAT, 0, 8⟩
abbrev ACT_DQ_TXTS_TS : Fld := ⟨.ACT_DQ_TXTS, 0, 32⟩
abbrev ACT_ADV_WL0_EN : Fld := ⟨.ACT_ADV_WL0, 31, 1⟩
abbrev ACT_ADV_WL0_PART : Fld := ⟨.ACT_ADV_WL0, 28, 3⟩
abbrev ACT_ADV_WL0_POLICY : Fld := ⟨.ACT_ADV_WL0, 26, 2⟩
abbrev ACT_ADV_WL0_LEN : Fld := ⟨.ACT_ADV_WL0, 16, 9⟩
abbrev ACT_ADV_WL0_REFRESH : Fld := ⟨.ACT_ADV_WL0, 0, 16⟩
abbrev ACT_ADV_WL1_ETHERTYPE : Fld := ⟨.ACT_ADV_WL1, 48, 16⟩
abbrev ACT_ADV_WL1_DMAC : Fld := ⟨.ACT_ADV_WL1, 0, 48⟩
abbrev ACT_ADV_WL2_VLAN : Fld := ⟨.ACT_ADV_WL2, 31, 1⟩
abbrev ACT_ADV_WL2_PCP : Fld := ⟨.ACT_ADV_WL2, 28, 3⟩
abbrev ACT_ADV_WL2_VID : Fld := ⟨.ACT_ADV_WL2, 16, 12⟩
abbrev ACT_ADV_SRC_EN : Fld := ⟨.ACT_ADV_SRC, 31, 1⟩
abbrev ACT_ADV_SRC_TILE : Fld := ⟨.ACT_ADV_SRC, 24, 4⟩
abbrev ACT_ADV_SRC_REGION : Fld := ⟨.ACT_ADV_SRC, 20, 4⟩
abbrev ACT_ADV_SRC_SLOT : Fld := ⟨.ACT_ADV_SRC, 0, 15⟩
abbrev ACT_ADV_TSTAT_FRESH : Fld := ⟨.ACT_ADV_TSTAT, 31, 1⟩
abbrev ACT_ADV_TSTAT_CFG_ERR : Fld := ⟨.ACT_ADV_TSTAT, 30, 1⟩
abbrev ACT_ADV_TSTAT_OVERWRITE : Fld := ⟨.ACT_ADV_TSTAT, 16, 8⟩
abbrev ACT_ADV_TSTAT_SEQ : Fld := ⟨.ACT_ADV_TSTAT, 0, 16⟩
abbrev ACT_ADV_STAT_SPEED : Fld := ⟨.ACT_ADV_STAT, 3, 1⟩
abbrev ACT_ADV_STAT_DEGRADED : Fld := ⟨.ACT_ADV_STAT, 2, 1⟩
abbrev ACT_ADV_STAT_LINK : Fld := ⟨.ACT_ADV_STAT, 1, 1⟩
abbrev ACT_ADV_STAT_SEALED : Fld := ⟨.ACT_ADV_STAT, 0, 1⟩
abbrev ACT_ADV_CNT_SENT : Fld := ⟨.ACT_ADV_CNT, 32, 32⟩
abbrev ACT_ADV_CNT_DISCARDED : Fld := ⟨.ACT_ADV_CNT, 0, 32⟩
abbrev TRH_RING_CFG_EN : Fld := ⟨.TRH_RING_CFG, 31, 1⟩
abbrev TRH_RING_CFG_OWNER : Fld := ⟨.TRH_RING_CFG, 30, 1⟩
abbrev TRH_RING_CFG_PART : Fld := ⟨.TRH_RING_CFG, 27, 3⟩
abbrev TRH_RING_CFG_SQ_LOG2 : Fld := ⟨.TRH_RING_CFG, 22, 5⟩
abbrev TRH_RING_CFG_CQ_LOG2 : Fld := ⟨.TRH_RING_CFG, 17, 5⟩
abbrev TRH_SQ_BASE_ADDR : Fld := ⟨.TRH_SQ_BASE, 12, 52⟩
abbrev TRH_CQ_BASE_ADDR : Fld := ⟨.TRH_CQ_BASE, 12, 52⟩
abbrev TRH_RING_PTR_CQ_HEAD : Fld := ⟨.TRH_RING_PTR, 48, 16⟩
abbrev TRH_RING_PTR_CQ_TAIL : Fld := ⟨.TRH_RING_PTR, 32, 16⟩
abbrev TRH_RING_PTR_SQ_TAIL : Fld := ⟨.TRH_RING_PTR, 16, 16⟩
abbrev TRH_RING_PTR_SQ_HEAD : Fld := ⟨.TRH_RING_PTR, 0, 16⟩
abbrev TRH_RING_STAT_HALT_CAUSE : Fld := ⟨.TRH_RING_STAT, 16, 16⟩
abbrev TRH_RING_STAT_INFLIGHT : Fld := ⟨.TRH_RING_STAT, 4, 10⟩
abbrev TRH_RING_STAT_CFG_ERR : Fld := ⟨.TRH_RING_STAT, 3, 1⟩
abbrev TRH_RING_STAT_STATE : Fld := ⟨.TRH_RING_STAT, 0, 3⟩
abbrev TRH_RING_IRQ_IRQ_EN : Fld := ⟨.TRH_RING_IRQ, 31, 1⟩
abbrev TRH_RING_IRQ_COAL_N : Fld := ⟨.TRH_RING_IRQ, 16, 8⟩
abbrev TRH_RING_IRQ_COAL_US : Fld := ⟨.TRH_RING_IRQ, 0, 16⟩
abbrev TRH_PART_CFG_TAG_SHARE : Fld := ⟨.TRH_PART_CFG, 0, 10⟩
abbrev TRH_PART_STAT_RESET_BUSY : Fld := ⟨.TRH_PART_STAT, 16, 1⟩
abbrev TRH_PART_STAT_INFLIGHT : Fld := ⟨.TRH_PART_STAT, 0, 10⟩
abbrev DK_STAT_RGN_EN : Fld := ⟨.DK_STAT, 0, 16⟩
abbrev DK_RGN_CFG_EN : Fld := ⟨.DK_RGN_CFG, 31, 1⟩
abbrev DK_RGN_CFG_MODE : Fld := ⟨.DK_RGN_CFG, 30, 1⟩
abbrev DK_RGN_CFG_BASE : Fld := ⟨.DK_RGN_CFG, 15, 15⟩
abbrev DK_RGN_CFG_COUNT_M1 : Fld := ⟨.DK_RGN_CFG, 0, 15⟩
abbrev DK_TAGS_FULL : Fld := ⟨.DK_TAGS, 0, 32⟩
abbrev SEM_CFG_EN : Fld := ⟨.SEM_CFG, 31, 1⟩
abbrev SEM_CFG_PART : Fld := ⟨.SEM_CFG, 28, 3⟩
abbrev SEM_CFG_LOCK : Fld := ⟨.SEM_CFG, 27, 1⟩
abbrev SEM_CFG_INIT : Fld := ⟨.SEM_CFG, 0, 16⟩
abbrev SEM_STAT_ABANDONED : Fld := ⟨.SEM_STAT, 31, 1⟩
abbrev SEM_STAT_OVERFLOW : Fld := ⟨.SEM_STAT, 30, 1⟩
abbrev SEM_STAT_HELD : Fld := ⟨.SEM_STAT, 29, 1⟩
abbrev SEM_STAT_WAITERS : Fld := ⟨.SEM_STAT, 16, 10⟩
abbrev SEM_STAT_COUNT : Fld := ⟨.SEM_STAT, 0, 16⟩
abbrev SEM_OWNER_KIND : Fld := ⟨.SEM_OWNER, 29, 3⟩
abbrev SEM_OWNER_ID : Fld := ⟨.SEM_OWNER, 0, 13⟩
abbrev PT_STAT_PART : Fld := ⟨.PT_STAT, 25, 3⟩
abbrev PT_STAT_OWNED : Fld := ⟨.PT_STAT, 24, 1⟩
abbrev PT_STAT_STARTQ : Fld := ⟨.PT_STAT, 16, 4⟩
abbrev PT_STAT_START_DROP : Fld := ⟨.PT_STAT, 8, 8⟩
abbrev PT_STAT_DROP_EV : Fld := ⟨.PT_STAT, 3, 1⟩
abbrev PT_STAT_STATE : Fld := ⟨.PT_STAT, 0, 3⟩
abbrev PT_RUN_PROG : Fld := ⟨.PT_RUN, 32, 32⟩
abbrev PT_RUN_SPAN : Fld := ⟨.PT_RUN, 16, 16⟩
abbrev PT_RUN_INDEX : Fld := ⟨.PT_RUN, 0, 16⟩
abbrev PT_STAY_KERNEL1 : Fld := ⟨.PT_STAY, 24, 8⟩
abbrev PT_STAY_KERNEL0 : Fld := ⟨.PT_STAY, 16, 8⟩
abbrev PT_STAY_BUSY1 : Fld := ⟨.PT_STAY, 1, 1⟩
abbrev PT_STAY_BUSY0 : Fld := ⟨.PT_STAY, 0, 1⟩
abbrev PT_NUM_SKIP_CNT : Fld := ⟨.PT_NUM, 24, 8⟩
abbrev PT_NUM_NAN_CNT : Fld := ⟨.PT_NUM, 16, 8⟩
abbrev PT_NUM_SKIP_EV : Fld := ⟨.PT_NUM, 2, 1⟩
abbrev PT_NUM_NAN_EV : Fld := ⟨.PT_NUM, 1, 1⟩
abbrev PT_NUM_ESC_SURPLUS_EV : Fld := ⟨.PT_NUM, 0, 1⟩
abbrev TG_CAP_SUM_RES : Fld := ⟨.TG_CAP, 16, 16⟩
abbrev TG_CAP_D : Fld := ⟨.TG_CAP, 0, 16⟩
abbrev TG_STATUS_DERATE : Fld := ⟨.TG_STATUS, 16, 11⟩
abbrev TG_STATUS_SHED : Fld := ⟨.TG_STATUS, 8, 5⟩
abbrev TG_STATUS_DEGRADED : Fld := ⟨.TG_STATUS, 7, 1⟩
abbrev TG_STATUS_REJ_RES : Fld := ⟨.TG_STATUS, 4, 3⟩
abbrev TG_STATUS_REJ : Fld := ⟨.TG_STATUS, 3, 1⟩
abbrev TG_STATUS_POOL_PART : Fld := ⟨.TG_STATUS, 0, 3⟩
abbrev TG_SERVICE_LF : Fld := ⟨.TG_SERVICE, 24, 8⟩
abbrev TG_SERVICE_TILES_IN : Fld := ⟨.TG_SERVICE, 16, 5⟩
abbrev TG_SERVICE_LINKS_IN : Fld := ⟨.TG_SERVICE, 12, 4⟩
abbrev TG_SERVICE_PC_IN : Fld := ⟨.TG_SERVICE, 0, 7⟩
abbrev TG_CFG_BURST : Fld := ⟨.TG_CFG, 48, 16⟩
abbrev TG_CFG_FLOOR : Fld := ⟨.TG_CFG, 32, 16⟩
abbrev TG_CFG_CEIL : Fld := ⟨.TG_CFG, 16, 16⟩
abbrev TG_CFG_RES : Fld := ⟨.TG_CFG, 0, 16⟩
abbrev TG_EFF_STATE : Fld := ⟨.TG_EFF, 30, 2⟩
abbrev TG_EFF_E : Fld := ⟨.TG_EFF, 0, 16⟩
abbrev TG_WAIT_CYCLES : Fld := ⟨.TG_WAIT, 0, 32⟩
abbrev TG_BYTES_RSV_RSV_BYTES : Fld := ⟨.TG_BYTES_RSV, 0, 64⟩
abbrev TG_BYTES_EXC_EXC_BYTES : Fld := ⟨.TG_BYTES_EXC, 0, 64⟩
abbrev TG_PART_RANK : Fld := ⟨.TG_PART, 48, 4⟩
abbrev TG_PART_DECK_D : Fld := ⟨.TG_PART, 32, 16⟩
abbrev TG_PART_TILES : Fld := ⟨.TG_PART, 0, 16⟩
abbrev TG_FRAMES_COUNT : Fld := ⟨.TG_FRAMES, 16, 16⟩
abbrev TG_FRAMES_FIRST : Fld := ⟨.TG_FRAMES, 0, 15⟩
abbrev FLT_STAT_NEXT_SEQ : Fld := ⟨.FLT_STAT, 0, 32⟩
abbrev FLT_PC_RETIRED : Fld := ⟨.FLT_PC, 31, 1⟩
abbrev FLT_PC_UE_SEEN : Fld := ⟨.FLT_PC, 30, 1⟩
abbrev FLT_PC_CE_LAST : Fld := ⟨.FLT_PC, 0, 16⟩
abbrev FLT_EVR_CFG_EN : Fld := ⟨.FLT_EVR_CFG, 31, 1⟩
abbrev FLT_EVR_CFG_IRQ_EN : Fld := ⟨.FLT_EVR_CFG, 30, 1⟩
abbrev FLT_EVR_CFG_LOG2 : Fld := ⟨.FLT_EVR_CFG, 24, 5⟩
abbrev FLT_EVR_CFG_COAL_N : Fld := ⟨.FLT_EVR_CFG, 16, 8⟩
abbrev FLT_EVR_CFG_COAL_US : Fld := ⟨.FLT_EVR_CFG, 0, 16⟩
abbrev FLT_EVR_BASE_ADDR : Fld := ⟨.FLT_EVR_BASE, 12, 52⟩
abbrev FLT_EVR_PTR_HEAD : Fld := ⟨.FLT_EVR_PTR, 32, 16⟩
abbrev FLT_EVR_PTR_TAIL : Fld := ⟨.FLT_EVR_PTR, 0, 16⟩
abbrev FLT_EVR_STAT_LOST : Fld := ⟨.FLT_EVR_STAT, 16, 16⟩
abbrev FLT_EVR_STAT_OVERFLOW : Fld := ⟨.FLT_EVR_STAT, 0, 1⟩
abbrev CW_NODE_POOL_EN : Fld := ⟨.CW_NODE, 31, 1⟩
abbrev CW_NODE_MEMBERS : Fld := ⟨.CW_NODE, 16, 8⟩
abbrev CW_NODE_ID : Fld := ⟨.CW_NODE, 0, 3⟩
abbrev CW_EXPORT_COUNT : Fld := ⟨.CW_EXPORT, 32, 16⟩
abbrev CW_EXPORT_FIRST : Fld := ⟨.CW_EXPORT, 0, 15⟩
abbrev CW_GRANT_EN : Fld := ⟨.CW_GRANT, 63, 1⟩
abbrev CW_GRANT_PART : Fld := ⟨.CW_GRANT, 56, 3⟩
abbrev CW_GRANT_NODE : Fld := ⟨.CW_GRANT, 53, 3⟩
abbrev CW_GRANT_COUNT : Fld := ⟨.CW_GRANT, 32, 16⟩
abbrev CW_GRANT_FIRST : Fld := ⟨.CW_GRANT, 0, 15⟩
abbrev CW_LINK_STAT_STATE : Fld := ⟨.CW_LINK_STAT, 29, 3⟩
abbrev CW_LINK_STAT_PEER_NODE : Fld := ⟨.CW_LINK_STAT, 26, 3⟩
abbrev CW_LINK_STAT_PEER_LINK : Fld := ⟨.CW_LINK_STAT, 23, 3⟩
abbrev CW_LINK_STAT_FAILS : Fld := ⟨.CW_LINK_STAT, 21, 2⟩
abbrev CW_LINK_STAT_RETRAINS : Fld := ⟨.CW_LINK_STAT, 0, 16⟩
abbrev CW_LINK_CTRL_RESTORE : Fld := ⟨.CW_LINK_CTRL, 31, 1⟩
abbrev CW_LINK_CTRL_DISABLE : Fld := ⟨.CW_LINK_CTRL, 30, 1⟩
abbrev CW_LINK_CNT_CRC_REPLAYS : Fld := ⟨.CW_LINK_CNT, 32, 32⟩
abbrev CW_LINK_CNT_BLOCKS : Fld := ⟨.CW_LINK_CNT, 0, 32⟩
abbrev DG_PART_NEXT : Fld := ⟨.DG_PART, 32, 32⟩
abbrev DG_PART_HELD : Fld := ⟨.DG_PART, 0, 9⟩
abbrev TRC_STAT_OWNER : Fld := ⟨.TRC_STAT, 24, 4⟩
abbrev TRC_STAT_LAST_TRIG : Fld := ⟨.TRC_STAT, 16, 5⟩
abbrev TRC_STAT_MODE : Fld := ⟨.TRC_STAT, 5, 1⟩
abbrev TRC_STAT_LOST_EV : Fld := ⟨.TRC_STAT, 4, 1⟩
abbrev TRC_STAT_WRAPPED : Fld := ⟨.TRC_STAT, 3, 1⟩
abbrev TRC_STAT_STATE : Fld := ⟨.TRC_STAT, 0, 3⟩
abbrev TRC_SRC_SRC_EN : Fld := ⟨.TRC_SRC, 0, 64⟩
abbrev TRC_TRIG_TRIG : Fld := ⟨.TRC_TRIG, 0, 64⟩
abbrev TRC_CNT_LOST : Fld := ⟨.TRC_CNT, 32, 32⟩
abbrev TRC_CNT_WRITTEN : Fld := ⟨.TRC_CNT, 0, 32⟩
abbrev EVC_CTRL_RUN : Fld := ⟨.EVC_CTRL, 31, 1⟩
abbrev EVC_CTRL_SNAP : Fld := ⟨.EVC_CTRL, 30, 1⟩
abbrev EVC_CTRL_CLEAR : Fld := ⟨.EVC_CTRL, 29, 1⟩
abbrev EVC_CTRL_SNAP_ON_TRC : Fld := ⟨.EVC_CTRL, 28, 1⟩
abbrev EVC_SNAPTIME_NS : Fld := ⟨.EVC_SNAPTIME, 0, 32⟩
abbrev EVC_CFG_EN : Fld := ⟨.EVC_CFG, 31, 1⟩
abbrev EVC_CFG_ANY : Fld := ⟨.EVC_CFG, 30, 1⟩
abbrev EVC_CFG_CFG_ERR : Fld := ⟨.EVC_CFG, 29, 1⟩
abbrev EVC_CFG_EVENT : Fld := ⟨.EVC_CFG, 20, 9⟩
abbrev EVC_CFG_QUAL : Fld := ⟨.EVC_CFG, 0, 13⟩
abbrev EVC_VAL_MASKED : Fld := ⟨.EVC_VAL, 49, 1⟩
abbrev EVC_VAL_WRAPPED : Fld := ⟨.EVC_VAL, 48, 1⟩
abbrev EVC_VAL_COUNT : Fld := ⟨.EVC_VAL, 0, 48⟩
abbrev EVC_SNAP_COUNT : Fld := ⟨.EVC_SNAP, 0, 48⟩
abbrev KS_STAT_FUSED_SVN : Fld := ⟨.KS_STAT, 24, 8⟩
abbrev KS_STAT_RUN_SVN : Fld := ⟨.KS_STAT, 16, 8⟩
abbrev KS_STAT_PEND_SVN : Fld := ⟨.KS_STAT, 8, 8⟩
abbrev KS_STAT_DEBUG_OPEN : Fld := ⟨.KS_STAT, 7, 1⟩
abbrev KS_STAT_PENDING : Fld := ⟨.KS_STAT, 6, 1⟩
abbrev KS_STAT_NEXT_BANK : Fld := ⟨.KS_STAT, 5, 1⟩
abbrev KS_STAT_RUN_BANK : Fld := ⟨.KS_STAT, 4, 1⟩
abbrev KS_STAT_STATE : Fld := ⟨.KS_STAT, 0, 3⟩
abbrev KS_FW_SRC_ADDR : Fld := ⟨.KS_FW_SRC, 12, 52⟩
abbrev KS_FW_CTRL_CMD : Fld := ⟨.KS_FW_CTRL, 28, 4⟩
abbrev KS_FW_CTRL_PART : Fld := ⟨.KS_FW_CTRL, 24, 3⟩
abbrev KS_FW_CTRL_LEN : Fld := ⟨.KS_FW_CTRL, 0, 13⟩
abbrev KS_FW_STAT_BUSY : Fld := ⟨.KS_FW_STAT, 31, 1⟩
abbrev KS_FW_STAT_LAST_CMD : Fld := ⟨.KS_FW_STAT, 28, 3⟩
abbrev KS_FW_STAT_ERR : Fld := ⟨.KS_FW_STAT, 0, 4⟩
abbrev KS_PART_ATT_SCRUB_US : Fld := ⟨.KS_PART_ATT, 32, 32⟩
abbrev KS_PART_ATT_SCRUB_GEN : Fld := ⟨.KS_PART_ATT, 16, 16⟩
abbrev KS_PART_ATT_TDI : Fld := ⟨.KS_PART_ATT, 11, 2⟩
abbrev KS_PART_ATT_LIVE_UPDATE_OK : Fld := ⟨.KS_PART_ATT, 10, 1⟩
abbrev KS_PART_ATT_SELF_TRACE : Fld := ⟨.KS_PART_ATT, 9, 1⟩
abbrev KS_PART_ATT_CONSENT : Fld := ⟨.KS_PART_ATT, 8, 1⟩
abbrev KS_PART_ATT_CONFIDENTIAL : Fld := ⟨.KS_PART_ATT, 7, 1⟩
abbrev KS_PART_ATT_STATE : Fld := ⟨.KS_PART_ATT, 0, 2⟩
abbrev CS_PART_VAULT_SIZE : Fld := ⟨.CS_PART_VAULT, 8, 7⟩
abbrev CS_PART_VAULT_BASE : Fld := ⟨.CS_PART_VAULT, 0, 7⟩
abbrev CS_CTX_STEPS : Fld := ⟨.CS_CTX, 48, 16⟩
abbrev CS_CTX_OP : Fld := ⟨.CS_CTX, 40, 8⟩
abbrev CS_CTX_NPRIMES : Fld := ⟨.CS_CTX, 32, 6⟩
abbrev CS_CTX_LOGN : Fld := ⟨.CS_CTX, 16, 5⟩
abbrev CS_CTX_QUEUED : Fld := ⟨.CS_CTX, 8, 8⟩
abbrev CS_CTX_PART : Fld := ⟨.CS_CTX, 5, 3⟩
abbrev CS_CTX_STATE : Fld := ⟨.CS_CTX, 0, 2⟩
abbrev CS_STAT_SWITCHES : Fld := ⟨.CS_STAT, 16, 16⟩
abbrev CS_STAT_IDLE : Fld := ⟨.CS_STAT, 3, 1⟩
abbrev CS_STAT_CUR : Fld := ⟨.CS_STAT, 0, 2⟩
abbrev TH_CFG_CLASS : Fld := ⟨.TH_CFG, 30, 2⟩
abbrev TH_CFG_INLET_SRC : Fld := ⟨.TH_CFG, 29, 1⟩
abbrev TH_CFG_SMB_ADDR : Fld := ⟨.TH_CFG, 22, 7⟩
abbrev TH_CFG_FALLBACK : Fld := ⟨.TH_CFG, 14, 8⟩
abbrev TH_CFG_MARGIN : Fld := ⟨.TH_CFG, 0, 8⟩
abbrev TH_RTH_RTH_DIE : Fld := ⟨.TH_RTH, 16, 16⟩
abbrev TH_RTH_RTH_HBM : Fld := ⟨.TH_RTH, 0, 16⟩
abbrev TH_STAT_DERATE : Fld := ⟨.TH_STAT, 21, 11⟩
abbrev TH_STAT_TRIP_CAUSE : Fld := ⟨.TH_STAT, 12, 4⟩
abbrev TH_STAT_RTH_HIGH : Fld := ⟨.TH_STAT, 3, 1⟩
abbrev TH_STAT_INLET_LOST : Fld := ⟨.TH_STAT, 2, 1⟩
abbrev TH_STAT_THROTTLE : Fld := ⟨.TH_STAT, 1, 1⟩
abbrev TH_STAT_EST_VALID : Fld := ⟨.TH_STAT, 0, 1⟩
abbrev TH_POWER_P_CAP : Fld := ⟨.TH_POWER, 16, 16⟩
abbrev TH_POWER_P_NOW : Fld := ⟨.TH_POWER, 0, 16⟩
abbrev TH_STATIC_P_STATIC : Fld := ⟨.TH_STATIC, 0, 16⟩
abbrev TH_INLET_T_IN : Fld := ⟨.TH_INLET, 0, 16⟩
abbrev TH_STACK_RTH_EST : Fld := ⟨.TH_STACK, 16, 16⟩
abbrev TH_STACK_TEMP : Fld := ⟨.TH_STACK, 0, 16⟩
abbrev TH_TILE_TEMP : Fld := ⟨.TH_TILE, 0, 16⟩
abbrev TH_DIE_RTH_EST : Fld := ⟨.TH_DIE, 16, 16⟩
abbrev TH_DIE_TEMP : Fld := ⟨.TH_DIE, 0, 16⟩
abbrev KS_BOOT_T_HOST : Fld := ⟨.KS_BOOT, 23, 9⟩
abbrev KS_BOOT_T_MEM : Fld := ⟨.KS_BOOT, 14, 9⟩
abbrev KS_BOOT_STACK_OK : Fld := ⟨.KS_BOOT, 10, 4⟩
abbrev KS_BOOT_RESET_SRC : Fld := ⟨.KS_BOOT, 8, 2⟩
abbrev KS_BOOT_PC_FAIL : Fld := ⟨.KS_BOOT, 1, 7⟩
abbrev KS_BOOT_PTP_RUN : Fld := ⟨.KS_BOOT, 0, 1⟩
abbrev KS_DBG_SRC_ADDR : Fld := ⟨.KS_DBG_SRC, 0, 64⟩
abbrev KS_DBG_CTRL_OPEN : Fld := ⟨.KS_DBG_CTRL, 31, 1⟩
abbrev TRH_DB_SQ_SQ_TAIL : Fld := ⟨.TRH_DB_SQ, 0, 16⟩
abbrev TRH_DB_CQ_CQ_HEAD : Fld := ⟨.TRH_DB_CQ, 0, 16⟩
end F

/-- R12 and the first line of each register table: base in BAR0, index dimensions and width. -/
def regPlace : Reg → RPlace
  | .KS_GRADE => ⟨0x10, 1, 0x0, 1, 0x0, 32⟩
  | .TB_CTRL => ⟨0x100000, 1, 0x0, 1, 0x0, 32⟩
  | .TB_INC => ⟨0x100004, 1, 0x0, 1, 0x0, 32⟩
  | .TB_NOW => ⟨0x100008, 1, 0x0, 1, 0x0, 32⟩
  | .TB_SNAP => ⟨0x10000C, 1, 0x0, 1, 0x0, 32⟩
  | .TB_STEP => ⟨0x100010, 1, 0x0, 1, 0x0, 32⟩
  | .TB_STATUS => ⟨0x100014, 1, 0x0, 1, 0x0, 32⟩
  | .TB_OFFSET => ⟨0x100018, 1, 0x0, 1, 0x0, 32⟩
  | .BR_CH_CFG => ⟨0x200000, 16, 0x20, 1, 0x0, 32⟩
  | .BR_CH_PHASE => ⟨0x200004, 16, 0x20, 1, 0x0, 32⟩
  | .BR_CH_STAT => ⟨0x200008, 16, 0x20, 1, 0x0, 32⟩
  | .BR_CH_QUANT => ⟨0x20000C, 16, 0x20, 1, 0x0, 32⟩
  | .BR_CH_OFFSET => ⟨0x200010, 16, 0x20, 1, 0x0, 32⟩
  | .BR_CH_STAMP => ⟨0x200014, 16, 0x20, 1, 0x0, 32⟩
  | .BR_AL_CFG => ⟨0x201000, 256, 0x10, 1, 0x0, 32⟩
  | .BR_AL_TARGET => ⟨0x201004, 256, 0x10, 1, 0x0, 32⟩
  | .BR_AL_PERIOD => ⟨0x201008, 256, 0x10, 1, 0x0, 32⟩
  | .BR_AL_STAT => ⟨0x20100C, 256, 0x10, 1, 0x0, 32⟩
  | .BR_WIN_CFG => ⟨0x203000, 32, 0x20, 1, 0x0, 32⟩
  | .BR_WIN_START => ⟨0x203004, 32, 0x20, 1, 0x0, 32⟩
  | .BR_WIN_STOP => ⟨0x203008, 32, 0x20, 1, 0x0, 32⟩
  | .BR_WIN_LEN => ⟨0x20300C, 32, 0x20, 1, 0x0, 32⟩
  | .BR_WIN_STAT => ⟨0x203010, 32, 0x20, 1, 0x0, 32⟩
  | .BR_WIN_OWN => ⟨0x203014, 32, 0x20, 1, 0x0, 32⟩
  | .ING_PORT_CFG => ⟨0x300000, 64, 0x10, 1, 0x0, 32⟩
  | .ING_PORT_STAT => ⟨0x300004, 64, 0x10, 1, 0x0, 32⟩
  | .ING_PORT_CNT => ⟨0x300008, 64, 0x10, 1, 0x0, 64⟩
  | .ING_D_CFG => ⟨0x301000, 128, 0x40, 1, 0x0, 32⟩
  | .ING_D_SEL => ⟨0x301004, 128, 0x40, 1, 0x0, 32⟩
  | .ING_D_DATA => ⟨0x301008, 128, 0x40, 1, 0x0, 64⟩
  | .ING_D_REC => ⟨0x301010, 128, 0x40, 1, 0x0, 64⟩
  | .ING_D_CTRL => ⟨0x301018, 128, 0x40, 1, 0x0, 32⟩
  | .ING_D_PTR => ⟨0x301020, 128, 0x40, 1, 0x0, 64⟩
  | .ING_D_RPTR => ⟨0x301028, 128, 0x40, 1, 0x0, 64⟩
  | .ING_D_CNT0 => ⟨0x301030, 128, 0x40, 1, 0x0, 64⟩
  | .ING_D_CNT1 => ⟨0x301038, 128, 0x40, 1, 0x0, 64⟩
  | .EXC_CH_CFG => ⟨0x400000, 4, 0x20, 1, 0x0, 32⟩
  | .EXC_CH_LIM => ⟨0x400004, 4, 0x20, 1, 0x0, 32⟩
  | .EXC_CH_CTRL => ⟨0x400008, 4, 0x20, 1, 0x0, 32⟩
  | .EXC_CH_STAT => ⟨0x40000C, 4, 0x20, 1, 0x0, 32⟩
  | .EXC_CH_MEAS => ⟨0x400010, 4, 0x20, 1, 0x0, 32⟩
  | .ACT_PWM_CFG => ⟨0x500000, 32, 0x10, 1, 0x0, 32⟩
  | .ACT_PWM_PERIOD => ⟨0x500004, 32, 0x10, 1, 0x0, 32⟩
  | .ACT_PWM_SAFE => ⟨0x500008, 32, 0x10, 1, 0x0, 32⟩
  | .ACT_PWM_STAT => ⟨0x50000C, 32, 0x10, 1, 0x0, 32⟩
  | .ACT_GRP_CFG => ⟨0x500400, 8, 0x10, 1, 0x0, 32⟩
  | .ACT_GRP_STAT => ⟨0x500404, 8, 0x10, 1, 0x0, 32⟩
  | .ACT_TRIG_CFG => ⟨0x500C00, 4, 0x10, 1, 0x0, 32⟩
  | .ACT_DQ_CFG => ⟨0x500800, 16, 0x20, 1, 0x0, 32⟩
  | .ACT_DQ_SRC => ⟨0x500804, 16, 0x20, 1, 0x0, 32⟩
  | .ACT_DQ_STAT => ⟨0x500808, 16, 0x20, 1, 0x0, 32⟩
  | .ACT_DQ_TXTS => ⟨0x50080C, 16, 0x20, 1, 0x0, 32⟩
  | .ACT_ADV_WL0 => ⟨0x502000, 64, 0x20, 1, 0x0, 32⟩
  | .ACT_ADV_WL1 => ⟨0x502008, 64, 0x20, 1, 0x0, 64⟩
  | .ACT_ADV_WL2 => ⟨0x502010, 64, 0x20, 1, 0x0, 32⟩
  | .ACT_ADV_SRC => ⟨0x502014, 64, 0x20, 1, 0x0, 32⟩
  | .ACT_ADV_TSTAT => ⟨0x502018, 64, 0x20, 1, 0x0, 32⟩
  | .ACT_ADV_STAT => ⟨0x501000, 1, 0x0, 1, 0x0, 32⟩
  | .ACT_ADV_CNT => ⟨0x501008, 1, 0x0, 1, 0x0, 64⟩
  | .TRH_RING_CFG => ⟨0x1000000, 128, 0x40, 1, 0x0, 32⟩
  | .TRH_SQ_BASE => ⟨0x1000008, 128, 0x40, 1, 0x0, 64⟩
  | .TRH_CQ_BASE => ⟨0x1000010, 128, 0x40, 1, 0x0, 64⟩
  | .TRH_RING_PTR => ⟨0x1000018, 128, 0x40, 1, 0x0, 64⟩
  | .TRH_RING_STAT => ⟨0x1000020, 128, 0x40, 1, 0x0, 32⟩
  | .TRH_RING_IRQ => ⟨0x1000024, 128, 0x40, 1, 0x0, 32⟩
  | .TRH_PART_CFG => ⟨0x1004000, 8, 0x10, 1, 0x0, 32⟩
  | .TRH_PART_STAT => ⟨0x1004004, 8, 0x10, 1, 0x0, 32⟩
  | .DK_STAT => ⟨0x3000000, 16, 0x100000, 1, 0x0, 32⟩
  | .DK_RGN_CFG => ⟨0x3000100, 16, 0x100000, 16, 0x4, 32⟩
  | .DK_TAGS => ⟨0x3001000, 16, 0x100000, 1024, 0x4, 32⟩
  | .SEM_CFG => ⟨0xE00000, 8192, 0x10, 1, 0x0, 32⟩
  | .SEM_STAT => ⟨0xE00004, 8192, 0x10, 1, 0x0, 32⟩
  | .SEM_OWNER => ⟨0xE00008, 8192, 0x10, 1, 0x0, 32⟩
  | .PT_STAT => ⟨0x2000000, 16, 0x100000, 1, 0x0, 32⟩
  | .PT_RUN => ⟨0x2000008, 16, 0x100000, 1, 0x0, 64⟩
  | .PT_STAY => ⟨0x2000010, 16, 0x100000, 1, 0x0, 32⟩
  | .PT_NUM => ⟨0x2000018, 16, 0x100000, 1, 0x0, 32⟩
  | .TG_CAP => ⟨0x600000, 5, 0x8, 1, 0x0, 32⟩
  | .TG_STATUS => ⟨0x600040, 1, 0x0, 1, 0x0, 32⟩
  | .TG_SERVICE => ⟨0x600044, 1, 0x0, 1, 0x0, 32⟩
  | .TG_CFG => ⟨0x601000, 8, 0x100, 5, 0x20, 64⟩
  | .TG_EFF => ⟨0x601008, 8, 0x100, 5, 0x20, 32⟩
  | .TG_WAIT => ⟨0x60100C, 8, 0x100, 5, 0x20, 32⟩
  | .TG_BYTES_RSV => ⟨0x601010, 8, 0x100, 5, 0x20, 64⟩
  | .TG_BYTES_EXC => ⟨0x601018, 8, 0x100, 5, 0x20, 64⟩
  | .TG_PART => ⟨0x6010C0, 8, 0x100, 1, 0x0, 64⟩
  | .TG_FRAMES => ⟨0x6010D0, 8, 0x100, 4, 0x4, 32⟩
  | .FLT_STAT => ⟨0x700000, 1, 0x0, 1, 0x0, 32⟩
  | .FLT_PC => ⟨0x701000, 64, 0x4, 1, 0x0, 32⟩
  | .FLT_EVR_CFG => ⟨0x700010, 1, 0x0, 1, 0x0, 32⟩
  | .FLT_EVR_BASE => ⟨0x700018, 1, 0x0, 1, 0x0, 64⟩
  | .FLT_EVR_PTR => ⟨0x700020, 1, 0x0, 1, 0x0, 64⟩
  | .FLT_EVR_STAT => ⟨0x700028, 1, 0x0, 1, 0x0, 32⟩
  | .CW_NODE => ⟨0x800000, 1, 0x0, 1, 0x0, 32⟩
  | .CW_EXPORT => ⟨0x800008, 1, 0x0, 1, 0x0, 64⟩
  | .CW_GRANT => ⟨0x801000, 64, 0x10, 1, 0x0, 64⟩
  | .CW_LINK_STAT => ⟨0x800100, 8, 0x20, 1, 0x0, 32⟩
  | .CW_LINK_CTRL => ⟨0x800104, 8, 0x20, 1, 0x0, 32⟩
  | .CW_LINK_CNT => ⟨0x800108, 8, 0x20, 1, 0x0, 64⟩
  | .DG_PART => ⟨0x900000, 8, 0x10, 1, 0x0, 64⟩
  | .TRC_STAT => ⟨0xA00000, 1, 0x0, 1, 0x0, 32⟩
  | .TRC_SRC => ⟨0xA00008, 1, 0x0, 1, 0x0, 64⟩
  | .TRC_TRIG => ⟨0xA00010, 1, 0x0, 1, 0x0, 64⟩
  | .TRC_CNT => ⟨0xA00018, 1, 0x0, 1, 0x0, 64⟩
  | .EVC_CTRL => ⟨0xB00000, 1, 0x0, 1, 0x0, 32⟩
  | .EVC_SNAPTIME => ⟨0xB00004, 1, 0x0, 1, 0x0, 32⟩
  | .EVC_CFG => ⟨0xB00100, 64, 0x10, 1, 0x0, 32⟩
  | .EVC_VAL => ⟨0xB00108, 64, 0x10, 1, 0x0, 64⟩
  | .EVC_SNAP => ⟨0xB00800, 64, 0x8, 1, 0x0, 64⟩
  | .KS_STAT => ⟨0x0, 1, 0x0, 1, 0x0, 32⟩
  | .KS_FW_SRC => ⟨0x20, 1, 0x0, 1, 0x0, 64⟩
  | .KS_FW_CTRL => ⟨0x28, 1, 0x0, 1, 0x0, 32⟩
  | .KS_FW_STAT => ⟨0x2C, 1, 0x0, 1, 0x0, 32⟩
  | .KS_PART_ATT => ⟨0x100, 8, 0x8, 1, 0x0, 64⟩
  | .CS_PART_VAULT => ⟨0xC00000, 8, 0x8, 1, 0x0, 32⟩
  | .CS_CTX => ⟨0xC00100, 4, 0x10, 1, 0x0, 64⟩
  | .CS_STAT => ⟨0xC00080, 1, 0x0, 1, 0x0, 32⟩
  | .TH_CFG => ⟨0xD00000, 1, 0x0, 1, 0x0, 32⟩
  | .TH_RTH => ⟨0xD00004, 1, 0x0, 1, 0x0, 32⟩
  | .TH_STAT => ⟨0xD00010, 1, 0x0, 1, 0x0, 32⟩
  | .TH_POWER => ⟨0xD00014, 1, 0x0, 1, 0x0, 32⟩
  | .TH_STATIC => ⟨0xD00018, 1, 0x0, 1, 0x0, 32⟩
  | .TH_INLET => ⟨0xD0001C, 1, 0x0, 1, 0x0, 32⟩
  | .TH_STACK => ⟨0xD00020, 4, 0x4, 1, 0x0, 32⟩
  | .TH_TILE => ⟨0xD00040, 16, 0x4, 1, 0x0, 32⟩
  | .TH_DIE => ⟨0xD00080, 1, 0x0, 1, 0x0, 32⟩
  | .KS_BOOT => ⟨0x30, 1, 0x0, 1, 0x0, 32⟩
  | .KS_DBG_SRC => ⟨0x200, 1, 0x0, 1, 0x0, 64⟩
  | .KS_DBG_CTRL => ⟨0x208, 1, 0x0, 1, 0x0, 32⟩
  | .TRH_DB_SQ => ⟨0x1200000, 128, 0x1000, 1, 0x0, 32⟩
  | .TRH_DB_CQ => ⟨0x1200004, 128, 0x1000, 1, 0x0, 32⟩

/-- The fields of each register's table with their types. -/
def regFields : Reg → List FInfo
  | .KS_GRADE => [⟨24, 8, .ro⟩, ⟨16, 4, .ro⟩, ⟨0, 16, .ro⟩]
  | .TB_CTRL => [⟨2, 2, .rw⟩, ⟨1, 1, .rw⟩, ⟨0, 1, .rw⟩]
  | .TB_INC => [⟨0, 32, .rw⟩]
  | .TB_NOW => [⟨0, 32, .ro⟩]
  | .TB_SNAP => [⟨24, 8, .ro⟩, ⟨0, 24, .ro⟩]
  | .TB_STEP => [⟨0, 32, .wo⟩]
  | .TB_STATUS => [⟨4, 1, .rw1c⟩, ⟨3, 1, .rw1c⟩, ⟨2, 1, .rw1c⟩, ⟨1, 1, .ro⟩, ⟨0, 1, .ro⟩]
  | .TB_OFFSET => [⟨0, 32, .ro⟩]
  | .BR_CH_CFG => [⟨31, 1, .rw⟩, ⟨28, 3, .rw⟩, ⟨24, 4, .rw⟩, ⟨23, 1, .rw⟩, ⟨0, 23, .rw⟩]
  | .BR_CH_PHASE => [⟨0, 32, .ro⟩]
  | .BR_CH_STAT => [⟨6, 1, .rw1c⟩, ⟨5, 1, .rw1c⟩, ⟨4, 1, .rw1c⟩, ⟨3, 1, .rw1c⟩, ⟨2, 1, .ro⟩, ⟨1, 1, .ro⟩, ⟨0, 1, .ro⟩]
  | .BR_CH_QUANT => [⟨0, 32, .ro⟩]
  | .BR_CH_OFFSET => [⟨0, 32, .rw⟩]
  | .BR_CH_STAMP => [⟨0, 32, .ro⟩]
  | .BR_AL_CFG => [⟨30, 2, .rw⟩, ⟨28, 2, .rw⟩, ⟨27, 1, .rw⟩, ⟨23, 4, .rw⟩, ⟨20, 3, .rw⟩, ⟨16, 4, .rw⟩, ⟨0, 16, .rw⟩]
  | .BR_AL_TARGET => [⟨0, 32, .rw⟩]
  | .BR_AL_PERIOD => [⟨0, 32, .rw⟩]
  | .BR_AL_STAT => [⟨31, 1, .wo⟩, ⟨30, 1, .wo⟩, ⟨16, 8, .ro⟩, ⟨8, 8, .ro⟩, ⟨6, 1, .rw1c⟩, ⟨5, 1, .rw1c⟩, ⟨4, 1, .rw1c⟩, ⟨3, 1, .rw1c⟩, ⟨2, 1, .rw1c⟩, ⟨0, 1, .ro⟩]
  | .BR_WIN_CFG => [⟨31, 1, .rw⟩, ⟨30, 1, .rw⟩, ⟨26, 4, .rw⟩, ⟨25, 1, .rw⟩, ⟨18, 7, .rw⟩, ⟨9, 9, .rw⟩, ⟨0, 9, .rw⟩]
  | .BR_WIN_START => [⟨0, 32, .ro⟩]
  | .BR_WIN_STOP => [⟨0, 32, .ro⟩]
  | .BR_WIN_LEN => [⟨0, 32, .ro⟩]
  | .BR_WIN_STAT => [⟨31, 1, .wo⟩, ⟨30, 1, .wo⟩, ⟨8, 8, .ro⟩, ⟨5, 1, .rw1c⟩, ⟨4, 1, .ro⟩, ⟨3, 1, .ro⟩, ⟨2, 1, .ro⟩, ⟨1, 1, .rw1c⟩, ⟨0, 1, .ro⟩]
  | .BR_WIN_OWN => [⟨0, 3, .rw⟩]
  | .ING_PORT_CFG => [⟨31, 1, .rw⟩, ⟨0, 24, .rw⟩]
  | .ING_PORT_STAT => [⟨2, 1, .rw1c⟩, ⟨1, 1, .ro⟩, ⟨0, 1, .ro⟩]
  | .ING_PORT_CNT => [⟨32, 32, .ro⟩, ⟨0, 32, .ro⟩]
  | .ING_D_CFG => [⟨31, 1, .rw⟩, ⟨28, 3, .rw⟩, ⟨22, 6, .rw⟩, ⟨21, 1, .rw⟩, ⟨17, 4, .rw⟩, ⟨15, 2, .rw⟩, ⟨14, 1, .rw⟩, ⟨13, 1, .rw⟩, ⟨0, 13, .rw⟩]
  | .ING_D_SEL => [⟨0, 32, .rw⟩]
  | .ING_D_DATA => [⟨40, 24, .rw⟩, ⟨0, 40, .rw⟩]
  | .ING_D_REC => [⟨40, 4, .rw⟩, ⟨0, 40, .rw⟩]
  | .ING_D_CTRL => [⟨31, 1, .wo⟩, ⟨30, 1, .wo⟩, ⟨9, 1, .rw1c⟩, ⟨8, 1, .rw1c⟩, ⟨4, 4, .ro⟩, ⟨0, 2, .ro⟩]
  | .ING_D_PTR => [⟨32, 32, .rw⟩, ⟨0, 32, .ro⟩]
  | .ING_D_RPTR => [⟨32, 16, .rw⟩, ⟨0, 16, .ro⟩]
  | .ING_D_CNT0 => [⟨32, 32, .ro⟩, ⟨0, 32, .ro⟩]
  | .ING_D_CNT1 => [⟨32, 32, .ro⟩, ⟨0, 32, .ro⟩]
  | .EXC_CH_CFG => [⟨28, 3, .rw⟩, ⟨0, 16, .rw⟩]
  | .EXC_CH_LIM => [⟨28, 4, .rw⟩, ⟨16, 12, .rw⟩, ⟨0, 16, .rw⟩]
  | .EXC_CH_CTRL => [⟨30, 2, .wo⟩]
  | .EXC_CH_STAT => [⟨13, 1, .rw1c⟩, ⟨12, 1, .rw1c⟩, ⟨11, 1, .rw1c⟩, ⟨10, 1, .rw1c⟩, ⟨9, 1, .ro⟩, ⟨8, 1, .ro⟩, ⟨4, 2, .ro⟩, ⟨0, 3, .ro⟩]
  | .EXC_CH_MEAS => [⟨16, 16, .ro⟩, ⟨0, 16, .ro⟩]
  | .ACT_PWM_CFG => [⟨31, 1, .rw⟩, ⟨28, 3, .rw⟩, ⟨27, 1, .rw⟩, ⟨26, 1, .rw⟩, ⟨25, 1, .rw⟩, ⟨24, 1, .rw⟩, ⟨22, 2, .rw⟩]
  | .ACT_PWM_PERIOD => [⟨0, 24, .rw⟩]
  | .ACT_PWM_SAFE => [⟨0, 24, .rw⟩]
  | .ACT_PWM_STAT => [⟨25, 7, .ro⟩, ⟨24, 1, .ro⟩, ⟨0, 24, .ro⟩]
  | .ACT_GRP_CFG => [⟨31, 1, .rw⟩, ⟨28, 3, .rw⟩, ⟨24, 4, .rw⟩, ⟨20, 4, .rw⟩, ⟨0, 15, .rw⟩]
  | .ACT_GRP_STAT => [⟨31, 1, .ro⟩, ⟨30, 1, .rw1c⟩, ⟨0, 8, .ro⟩]
  | .ACT_TRIG_CFG => [⟨31, 1, .rw⟩, ⟨28, 3, .rw⟩, ⟨27, 1, .rw⟩, ⟨0, 20, .rw⟩]
  | .ACT_DQ_CFG => [⟨31, 1, .rw⟩, ⟨28, 3, .rw⟩, ⟨26, 2, .rw⟩, ⟨23, 3, .rw⟩, ⟨21, 2, .rw⟩, ⟨10, 11, .rw⟩, ⟨2, 8, .rw⟩]
  | .ACT_DQ_SRC => [⟨28, 4, .rw⟩, ⟨24, 4, .rw⟩, ⟨21, 3, .rw⟩, ⟨0, 15, .rw⟩]
  | .ACT_DQ_STAT => [⟨31, 1, .ro⟩, ⟨30, 1, .ro⟩, ⟨29, 1, .rw1c⟩, ⟨16, 8, .ro⟩, ⟨8, 8, .ro⟩, ⟨0, 8, .ro⟩]
  | .ACT_DQ_TXTS => [⟨0, 32, .ro⟩]
  | .ACT_ADV_WL0 => [⟨31, 1, .ro⟩, ⟨28, 3, .ro⟩, ⟨26, 2, .ro⟩, ⟨16, 9, .ro⟩, ⟨0, 16, .ro⟩]
  | .ACT_ADV_WL1 => [⟨48, 16, .ro⟩, ⟨0, 48, .ro⟩]
  | .ACT_ADV_WL2 => [⟨31, 1, .ro⟩, ⟨28, 3, .ro⟩, ⟨16, 12, .ro⟩]
  | .ACT_ADV_SRC => [⟨31, 1, .rw⟩, ⟨24, 4, .rw⟩, ⟨20, 4, .rw⟩, ⟨0, 15, .rw⟩]
  | .ACT_ADV_TSTAT => [⟨31, 1, .ro⟩, ⟨30, 1, .rw1c⟩, ⟨16, 8, .ro⟩, ⟨0, 16, .ro⟩]
  | .ACT_ADV_STAT => [⟨3, 1, .ro⟩, ⟨2, 1, .ro⟩, ⟨1, 1, .ro⟩, ⟨0, 1, .ro⟩]
  | .ACT_ADV_CNT => [⟨32, 32, .ro⟩, ⟨0, 32, .ro⟩]
  | .TRH_RING_CFG => [⟨31, 1, .rw⟩, ⟨30, 1, .rw⟩, ⟨27, 3, .ro⟩, ⟨22, 5, .rw⟩, ⟨17, 5, .rw⟩]
  | .TRH_SQ_BASE => [⟨12, 52, .rw⟩]
  | .TRH_CQ_BASE => [⟨12, 52, .rw⟩]
  | .TRH_RING_PTR => [⟨48, 16, .ro⟩, ⟨32, 16, .ro⟩, ⟨16, 16, .ro⟩, ⟨0, 16, .ro⟩]
  | .TRH_RING_STAT => [⟨16, 16, .ro⟩, ⟨4, 10, .ro⟩, ⟨3, 1, .rw1c⟩, ⟨0, 3, .ro⟩]
  | .TRH_RING_IRQ => [⟨31, 1, .rw⟩, ⟨16, 8, .rw⟩, ⟨0, 16, .rw⟩]
  | .TRH_PART_CFG => [⟨0, 10, .rw⟩]
  | .TRH_PART_STAT => [⟨16, 1, .ro⟩, ⟨0, 10, .ro⟩]
  | .DK_STAT => [⟨0, 16, .ro⟩]
  | .DK_RGN_CFG => [⟨31, 1, .rw⟩, ⟨30, 1, .rw⟩, ⟨15, 15, .rw⟩, ⟨0, 15, .rw⟩]
  | .DK_TAGS => [⟨0, 32, .ro⟩]
  | .SEM_CFG => [⟨31, 1, .rw⟩, ⟨28, 3, .rw⟩, ⟨27, 1, .rw⟩, ⟨0, 16, .rw⟩]
  | .SEM_STAT => [⟨31, 1, .ro⟩, ⟨30, 1, .rw1c⟩, ⟨29, 1, .ro⟩, ⟨16, 10, .ro⟩, ⟨0, 16, .ro⟩]
  | .SEM_OWNER => [⟨29, 3, .ro⟩, ⟨0, 13, .ro⟩]
  | .PT_STAT => [⟨25, 3, .ro⟩, ⟨24, 1, .ro⟩, ⟨16, 4, .ro⟩, ⟨8, 8, .ro⟩, ⟨3, 1, .rw1c⟩, ⟨0, 3, .ro⟩]
  | .PT_RUN => [⟨32, 32, .ro⟩, ⟨16, 16, .ro⟩, ⟨0, 16, .ro⟩]
  | .PT_STAY => [⟨24, 8, .ro⟩, ⟨16, 8, .ro⟩, ⟨1, 1, .ro⟩, ⟨0, 1, .ro⟩]
  | .PT_NUM => [⟨24, 8, .ro⟩, ⟨16, 8, .ro⟩, ⟨2, 1, .rw1c⟩, ⟨1, 1, .rw1c⟩, ⟨0, 1, .rw1c⟩]
  | .TG_CAP => [⟨16, 16, .ro⟩, ⟨0, 16, .ro⟩]
  | .TG_STATUS => [⟨16, 11, .ro⟩, ⟨8, 5, .ro⟩, ⟨7, 1, .ro⟩, ⟨4, 3, .ro⟩, ⟨3, 1, .rw1c⟩, ⟨0, 3, .ro⟩]
  | .TG_SERVICE => [⟨24, 8, .ro⟩, ⟨16, 5, .ro⟩, ⟨12, 4, .ro⟩, ⟨0, 7, .ro⟩]
  | .TG_CFG => [⟨48, 16, .ro⟩, ⟨32, 16, .ro⟩, ⟨16, 16, .ro⟩, ⟨0, 16, .ro⟩]
  | .TG_EFF => [⟨30, 2, .ro⟩, ⟨0, 16, .ro⟩]
  | .TG_WAIT => [⟨0, 32, .ro⟩]
  | .TG_BYTES_RSV => [⟨0, 64, .ro⟩]
  | .TG_BYTES_EXC => [⟨0, 64, .ro⟩]
  | .TG_PART => [⟨48, 4, .ro⟩, ⟨32, 16, .ro⟩, ⟨0, 16, .ro⟩]
  | .TG_FRAMES => [⟨16, 16, .ro⟩, ⟨0, 15, .ro⟩]
  | .FLT_STAT => [⟨0, 32, .ro⟩]
  | .FLT_PC => [⟨31, 1, .ro⟩, ⟨30, 1, .ro⟩, ⟨0, 16, .ro⟩]
  | .FLT_EVR_CFG => [⟨31, 1, .rw⟩, ⟨30, 1, .rw⟩, ⟨24, 5, .rw⟩, ⟨16, 8, .rw⟩, ⟨0, 16, .rw⟩]
  | .FLT_EVR_BASE => [⟨12, 52, .rw⟩]
  | .FLT_EVR_PTR => [⟨32, 16, .rw⟩, ⟨0, 16, .ro⟩]
  | .FLT_EVR_STAT => [⟨16, 16, .ro⟩, ⟨0, 1, .rw1c⟩]
  | .CW_NODE => [⟨31, 1, .rw⟩, ⟨16, 8, .ro⟩, ⟨0, 3, .ro⟩]
  | .CW_EXPORT => [⟨32, 16, .rw⟩, ⟨0, 15, .rw⟩]
  | .CW_GRANT => [⟨63, 1, .rw⟩, ⟨56, 3, .rw⟩, ⟨53, 3, .rw⟩, ⟨32, 16, .rw⟩, ⟨0, 15, .rw⟩]
  | .CW_LINK_STAT => [⟨29, 3, .ro⟩, ⟨26, 3, .ro⟩, ⟨23, 3, .ro⟩, ⟨21, 2, .ro⟩, ⟨0, 16, .ro⟩]
  | .CW_LINK_CTRL => [⟨31, 1, .wo⟩, ⟨30, 1, .wo⟩]
  | .CW_LINK_CNT => [⟨32, 32, .ro⟩, ⟨0, 32, .ro⟩]
  | .DG_PART => [⟨32, 32, .ro⟩, ⟨0, 9, .ro⟩]
  | .TRC_STAT => [⟨24, 4, .ro⟩, ⟨16, 5, .ro⟩, ⟨5, 1, .ro⟩, ⟨4, 1, .rw1c⟩, ⟨3, 1, .ro⟩, ⟨0, 3, .ro⟩]
  | .TRC_SRC => [⟨0, 64, .ro⟩]
  | .TRC_TRIG => [⟨0, 64, .ro⟩]
  | .TRC_CNT => [⟨32, 32, .ro⟩, ⟨0, 32, .ro⟩]
  | .EVC_CTRL => [⟨31, 1, .rw⟩, ⟨30, 1, .wo⟩, ⟨29, 1, .wo⟩, ⟨28, 1, .rw⟩]
  | .EVC_SNAPTIME => [⟨0, 32, .ro⟩]
  | .EVC_CFG => [⟨31, 1, .rw⟩, ⟨30, 1, .rw⟩, ⟨29, 1, .rw1c⟩, ⟨20, 9, .rw⟩, ⟨0, 13, .rw⟩]
  | .EVC_VAL => [⟨49, 1, .ro⟩, ⟨48, 1, .rw1c⟩, ⟨0, 48, .ro⟩]
  | .EVC_SNAP => [⟨0, 48, .ro⟩]
  | .KS_STAT => [⟨24, 8, .ro⟩, ⟨16, 8, .ro⟩, ⟨8, 8, .ro⟩, ⟨7, 1, .ro⟩, ⟨6, 1, .ro⟩, ⟨5, 1, .ro⟩, ⟨4, 1, .ro⟩, ⟨0, 3, .ro⟩]
  | .KS_FW_SRC => [⟨12, 52, .rw⟩]
  | .KS_FW_CTRL => [⟨28, 4, .wo⟩, ⟨24, 3, .rw⟩, ⟨0, 13, .rw⟩]
  | .KS_FW_STAT => [⟨31, 1, .ro⟩, ⟨28, 3, .ro⟩, ⟨0, 4, .ro⟩]
  | .KS_PART_ATT => [⟨32, 32, .ro⟩, ⟨16, 16, .ro⟩, ⟨11, 2, .ro⟩, ⟨10, 1, .ro⟩, ⟨9, 1, .ro⟩, ⟨8, 1, .ro⟩, ⟨7, 1, .ro⟩, ⟨0, 2, .ro⟩]
  | .CS_PART_VAULT => [⟨8, 7, .rw⟩, ⟨0, 7, .rw⟩]
  | .CS_CTX => [⟨48, 16, .ro⟩, ⟨40, 8, .ro⟩, ⟨32, 6, .ro⟩, ⟨16, 5, .ro⟩, ⟨8, 8, .ro⟩, ⟨5, 3, .ro⟩, ⟨0, 2, .ro⟩]
  | .CS_STAT => [⟨16, 16, .ro⟩, ⟨3, 1, .ro⟩, ⟨0, 2, .ro⟩]
  | .TH_CFG => [⟨30, 2, .rw⟩, ⟨29, 1, .rw⟩, ⟨22, 7, .rw⟩, ⟨14, 8, .rw⟩, ⟨0, 8, .rw⟩]
  | .TH_RTH => [⟨16, 16, .rw⟩, ⟨0, 16, .rw⟩]
  | .TH_STAT => [⟨21, 11, .ro⟩, ⟨12, 4, .ro⟩, ⟨3, 1, .rw1c⟩, ⟨2, 1, .ro⟩, ⟨1, 1, .ro⟩, ⟨0, 1, .ro⟩]
  | .TH_POWER => [⟨16, 16, .ro⟩, ⟨0, 16, .ro⟩]
  | .TH_STATIC => [⟨0, 16, .ro⟩]
  | .TH_INLET => [⟨0, 16, .ro⟩]
  | .TH_STACK => [⟨16, 16, .ro⟩, ⟨0, 16, .ro⟩]
  | .TH_TILE => [⟨0, 16, .ro⟩]
  | .TH_DIE => [⟨16, 16, .ro⟩, ⟨0, 16, .ro⟩]
  | .KS_BOOT => [⟨23, 9, .ro⟩, ⟨14, 9, .ro⟩, ⟨10, 4, .ro⟩, ⟨8, 2, .ro⟩, ⟨1, 7, .ro⟩, ⟨0, 1, .ro⟩]
  | .KS_DBG_SRC => [⟨0, 64, .rw⟩]
  | .KS_DBG_CTRL => [⟨31, 1, .wo⟩]
  | .TRH_DB_SQ => [⟨0, 16, .wo⟩]
  | .TRH_DB_CQ => [⟨0, 16, .wo⟩]

/-- The Reset columns, for the fields whose reset value does not depend on the index. -/
def regReset0 : Reg → W64
  | .KS_GRADE => 0xFFFF
  | .TB_CTRL => 0x3
  | .TB_INC => 0x4000000
  | .EXC_CH_LIM => 0x40000000
  | .ACT_TRIG_CFG => 0x1
  | .ACT_DQ_SRC => 0x200000
  | .TRH_PART_CFG => 0x40
  | .TG_STATUS => 0x4000070
  | .TG_SERVICE => 0x40100040
  | .TG_CFG => 0x40000000000000
  | .CW_NODE => 0x10000
  | .CS_CTX => 0xFF0000000000
  | .CS_STAT => 0x8
  | .TH_CFG => 0x320B400A
  | .TH_RTH => 0x12C00FA
  | .TH_STAT => 0x80000000
  | .TH_POWER => 0x7080000
  | .TH_STATIC => 0x1C2
  | .TH_INLET => 0x2D0
  | .TB_NOW | .TB_SNAP | .TB_STEP | .TB_STATUS | .TB_OFFSET | .BR_CH_CFG
  | .BR_CH_PHASE | .BR_CH_STAT | .BR_CH_QUANT | .BR_CH_OFFSET | .BR_CH_STAMP | .BR_AL_CFG
  | .BR_AL_TARGET | .BR_AL_PERIOD | .BR_AL_STAT | .BR_WIN_CFG | .BR_WIN_START | .BR_WIN_STOP
  | .BR_WIN_LEN | .BR_WIN_STAT | .BR_WIN_OWN | .ING_PORT_CFG | .ING_PORT_STAT | .ING_PORT_CNT
  | .ING_D_CFG | .ING_D_SEL | .ING_D_DATA | .ING_D_REC | .ING_D_CTRL | .ING_D_PTR
  | .ING_D_RPTR | .ING_D_CNT0 | .ING_D_CNT1 | .EXC_CH_CFG | .EXC_CH_CTRL | .EXC_CH_STAT
  | .EXC_CH_MEAS | .ACT_PWM_CFG | .ACT_PWM_PERIOD | .ACT_PWM_SAFE | .ACT_PWM_STAT | .ACT_GRP_CFG
  | .ACT_GRP_STAT | .ACT_DQ_CFG | .ACT_DQ_STAT | .ACT_DQ_TXTS | .ACT_ADV_WL0 | .ACT_ADV_WL1
  | .ACT_ADV_WL2 | .ACT_ADV_SRC | .ACT_ADV_TSTAT | .ACT_ADV_STAT | .ACT_ADV_CNT | .TRH_RING_CFG
  | .TRH_SQ_BASE | .TRH_CQ_BASE | .TRH_RING_PTR | .TRH_RING_STAT | .TRH_RING_IRQ | .TRH_PART_STAT
  | .DK_STAT | .DK_RGN_CFG | .DK_TAGS | .SEM_CFG | .SEM_STAT | .SEM_OWNER
  | .PT_STAT | .PT_RUN | .PT_STAY | .PT_NUM | .TG_CAP | .TG_EFF
  | .TG_WAIT | .TG_BYTES_RSV | .TG_BYTES_EXC | .TG_PART | .TG_FRAMES | .FLT_STAT
  | .FLT_PC | .FLT_EVR_CFG | .FLT_EVR_BASE | .FLT_EVR_PTR | .FLT_EVR_STAT | .CW_EXPORT
  | .CW_GRANT | .CW_LINK_STAT | .CW_LINK_CTRL | .CW_LINK_CNT | .DG_PART | .TRC_STAT
  | .TRC_SRC | .TRC_TRIG | .TRC_CNT | .EVC_CTRL | .EVC_SNAPTIME | .EVC_CFG
  | .EVC_VAL | .EVC_SNAP | .KS_STAT | .KS_FW_SRC | .KS_FW_CTRL | .KS_FW_STAT
  | .KS_PART_ATT | .CS_PART_VAULT | .TH_STACK | .TH_TILE | .TH_DIE | .KS_BOOT
  | .KS_DBG_SRC | .KS_DBG_CTRL | .TRH_DB_SQ | .TRH_DB_CQ => 0

/-- Reset PARAM of source `s` by class (R62, R63). -/
def paramReset (s : Nat) : Nat :=
  if s ≤ 0x07 then 0x002712
  else if s ≤ 0x0B then 0x000002
  else if s ≤ 0x0D then 0x000002
  else if 0x10 ≤ s ∧ s ≤ 0x1F then 0x000004
  else if 0x20 ≤ s ∧ s ≤ 0x27 then 0x000FFC
  else if 0x28 ≤ s ∧ s ≤ 0x2A then 0x000032
  else if 0x30 ≤ s ∧ s ≤ 0x37 then 0x000003
  else 0

/-- The peak of resource `r` in units of 0.1 GB/s (R239); the CEIL reset value, with 16,384 for DECK (R243). -/
def ceilReset (r : Nat) : Nat :=
  if r = 0 then 32000 else if r = 1 then 16000 else if r = 2 then 16384 else 560

/-- Deliverable capacity at reset (R243, R250): all pseudo-channels, no link, LF 64, DERATE 1,024. -/
def capReset (r : Nat) : Nat :=
  if r = 0 then 27200 else if r = 3 ∨ r = 4 then 476 else 0

/-- The value of register `r`, index `k`, at reset (R11 and each table). -/
def regReset (r : Reg) (k : Nat) : W64 :=
  match r with
  | .TRH_RING_CFG => setBits 0 27 3 (k / 16)
  | .TG_CAP => setBits 0 0 16 (capReset k)
  | .TG_CFG => setBits (setBits (regReset0 .TG_CFG) 48 16 0x40) 16 16 (ceilReset (k % 5))
  | .TG_PART => setBits 0 48 4 (if k = 0 then 8 else k)
  | .ING_PORT_CFG => setBits 0 0 24 (paramReset k)
  | r => regReset0 r

/-- The bits of a register whose fields have type `t`. -/
def regMask (r : Reg) (t : FTy) : W64 :=
  (regFields r).foldl (fun m f => if f.ty = t then m ||| fieldMask f.lo f.w else m) 0

/-- The key of register `r`, index `k`, in the state's register table. -/
def regKey (r : Reg) (k : Nat) : Nat := r.ctorIdx + 256 * k


/-- Part 0 of the register list, in the order of the section files. -/
def regsPart0 : List Reg :=
  [.KS_GRADE, .TB_CTRL, .TB_INC, .TB_NOW, .TB_SNAP, .TB_STEP, .TB_STATUS, .TB_OFFSET, .BR_CH_CFG, .BR_CH_PHASE, .BR_CH_STAT, .BR_CH_QUANT, .BR_CH_OFFSET, .BR_CH_STAMP, .BR_AL_CFG, .BR_AL_TARGET, .BR_AL_PERIOD, .BR_AL_STAT, .BR_WIN_CFG, .BR_WIN_START]

/-- Part 1 of the register list, in the order of the section files. -/
def regsPart1 : List Reg :=
  [.BR_WIN_STOP, .BR_WIN_LEN, .BR_WIN_STAT, .BR_WIN_OWN, .ING_PORT_CFG, .ING_PORT_STAT, .ING_PORT_CNT, .ING_D_CFG, .ING_D_SEL, .ING_D_DATA, .ING_D_REC, .ING_D_CTRL, .ING_D_PTR, .ING_D_RPTR, .ING_D_CNT0, .ING_D_CNT1, .EXC_CH_CFG, .EXC_CH_LIM, .EXC_CH_CTRL, .EXC_CH_STAT]

/-- Part 2 of the register list, in the order of the section files. -/
def regsPart2 : List Reg :=
  [.EXC_CH_MEAS, .ACT_PWM_CFG, .ACT_PWM_PERIOD, .ACT_PWM_SAFE, .ACT_PWM_STAT, .ACT_GRP_CFG, .ACT_GRP_STAT, .ACT_TRIG_CFG, .ACT_DQ_CFG, .ACT_DQ_SRC, .ACT_DQ_STAT, .ACT_DQ_TXTS, .ACT_ADV_WL0, .ACT_ADV_WL1, .ACT_ADV_WL2, .ACT_ADV_SRC, .ACT_ADV_TSTAT, .ACT_ADV_STAT, .ACT_ADV_CNT, .TRH_RING_CFG]

/-- Part 3 of the register list, in the order of the section files. -/
def regsPart3 : List Reg :=
  [.TRH_SQ_BASE, .TRH_CQ_BASE, .TRH_RING_PTR, .TRH_RING_STAT, .TRH_RING_IRQ, .TRH_PART_CFG, .TRH_PART_STAT, .DK_STAT, .DK_RGN_CFG, .DK_TAGS, .SEM_CFG, .SEM_STAT, .SEM_OWNER, .PT_STAT, .PT_RUN, .PT_STAY, .PT_NUM, .TG_CAP, .TG_STATUS, .TG_SERVICE]

/-- Part 4 of the register list, in the order of the section files. -/
def regsPart4 : List Reg :=
  [.TG_CFG, .TG_EFF, .TG_WAIT, .TG_BYTES_RSV, .TG_BYTES_EXC, .TG_PART, .TG_FRAMES, .FLT_STAT, .FLT_PC, .FLT_EVR_CFG, .FLT_EVR_BASE, .FLT_EVR_PTR, .FLT_EVR_STAT, .CW_NODE, .CW_EXPORT, .CW_GRANT, .CW_LINK_STAT, .CW_LINK_CTRL, .CW_LINK_CNT, .DG_PART]

/-- Part 5 of the register list, in the order of the section files. -/
def regsPart5 : List Reg :=
  [.TRC_STAT, .TRC_SRC, .TRC_TRIG, .TRC_CNT, .EVC_CTRL, .EVC_SNAPTIME, .EVC_CFG, .EVC_VAL, .EVC_SNAP, .KS_STAT, .KS_FW_SRC, .KS_FW_CTRL, .KS_FW_STAT, .KS_PART_ATT, .CS_PART_VAULT, .CS_CTX, .CS_STAT, .TH_CFG, .TH_RTH, .TH_STAT]

/-- Part 6 of the register list, in the order of the section files. -/
def regsPart6 : List Reg :=
  [.TH_POWER, .TH_STATIC, .TH_INLET, .TH_STACK, .TH_TILE, .TH_DIE, .KS_BOOT, .KS_DBG_SRC, .KS_DBG_CTRL, .TRH_DB_SQ, .TRH_DB_CQ]

/-- Every register, for the address decoder. -/
def allRegs : List Reg :=
  [regsPart0, regsPart1, regsPart2, regsPart3, regsPart4, regsPart5, regsPart6].flatten

/-- The index of `r` that covers BAR0 offset `a`, with the byte within the register, if any. -/
def regAt (r : Reg) (a : Nat) : Option (Nat × Nat) :=
  let p := regPlace r
  if a < p.base then none
  else
    let d := a - p.base
    let i1 := if p.s1 = 0 then 0 else d / p.s1
    let d1 := d - i1 * p.s1
    let i2 := if p.s2 = 0 then 0 else d1 / p.s2
    let d2 := d1 - i2 * p.s2
    if i1 < p.n1 ∧ i2 < p.n2 ∧ d2 < p.width / 8 then some (i1 * p.n2 + i2, d2) else none

/-- The first register of a list that covers a BAR0 offset. -/
def findReg (a : Nat) : List Reg → Option (Reg × Nat × Nat)
  | [] => none
  | r :: rs =>
    match regAt r a with
    | some (k, b) => some (r, k, b)
    | none => findReg a rs

/-- The register, index and byte that BAR0 offset `a` of the physical function reaches (R12); `none` is an unused
offset, which reads 0 and ignores writes (R13). -/
def decodeAddr (a : Nat) : Option (Reg × Nat × Nat) := findReg a allRegs

end Sys2Proof.Machine
end

