-- ==== Sys2Proof/Machine/Types.lean ====
section
/-! DEFINITION. The records the state is made of, beside the registers: packets, runs, tiles, units in progress. -/

namespace Sys2Proof.Machine

/-- A buffer descriptor (R128). -/
structure BufDesc where
  addr : Nat := 0
  count : Nat := 0
  mr : Nat := 0
  kind : Nat := 0
  deriving DecidableEq, Repr, Inhabited

/-- The parameters of a PROG_RUN, or of an alarm's program start, with the spares that stand in for its tiles (R135,
R136, R279). -/
structure RunParams where
  prog : Nat := 0
  tiles : Nat := 0
  dims : List Nat := []
  bufs : List BufDesc := []
  spares : List (Nat × Nat) := []
  deriving DecidableEq, Repr, Inhabited

/-- The tiles of a run's parameters by role: those named in TILES, a retired one replaced by its spare (R279, R306). -/
def RunParams.byRole (p : RunParams) : List Nat :=
  ((List.range 16).filter (fun n => p.tiles / 2 ^ n % 2 == 1)).map (fun t =>
    p.spares.foldl (fun t e => if t = e.1 then e.2 else t) t)

/-- One partition's slot of a TG_COMMIT (R244): tiles, rank, five images of TG_CFG and four frame runs. -/
structure PartCfg where
  part : Nat := 0
  tiles : Nat := 0
  rank : Nat := 0
  cfg : List W64 := []
  runs : List (Nat × Nat) := []
  deriving DecidableEq, Repr, Inhabited

/-- The fields of a CS_OP (R363). -/
structure CsParams where
  ctx : Nat := 0
  op : Nat := 0
  first : Nat := 0
  nl : Nat := 0
  a : Nat := 0
  b : Nat := 0
  d : Nat := 0
  g : Nat := 0
  ofirst : Nat := 0
  onl : Nat := 0
  hbm : BufDesc := {}
  consts : List Nat := []
  deriving DecidableEq, Repr, Inhabited

/-- The fields of a TRC_CFG (R317). -/
structure TrcParams where
  op : Nat := 0
  mode : Nat := 0
  charge : Nat := 0
  srcEn : W64 := 0
  trig : W64 := 0
  buf : BufDesc := {}
  first : Nat := 0
  nrec : Nat := 0
  deriving DecidableEq, Repr, Inhabited

/-- The parameters of a fetched packet, by opcode (R131). -/
inductive TCmd where
  | nop
  | mrRegister (base len access : Nat)
  | mrDeregister (handle : Nat)
  | dmaCopy (src dst : BufDesc)
  | progLoad (image : BufDesc) (pin : Nat)
  | progRun (p : RunParams)
  | progUnload (handle : Nat)
  | stayCall (tile stay kernel lock : Nat) (useLock : Bool) (params : List Byte)
  | semOp (sem op ownerSel n : Nat)
  | alarmArm (slot : Nat) (cfg target period : W32) (rel : Bool) (run : RunParams)
  | alarmDisarm (slot : Nat)
  | descArm (desc : Nat) (cfg sel : W32) (data rec : W64)
  | descDisarm (desc : Nat)
  | qciLoad (port table first count : Nat) (data : List Byte)
  | excCmd (ch cmd : Nat) (writeCfg : Bool) (cfg lim : W32)
  | dqSafeLoad (queue : Nat) (clear : Bool) (src : BufDesc)
  | tgCommit (dry : Bool) (pool : Nat) (cfgs : List PartCfg)
  | partReset (p : Nat)
  | tenantSwitch (p : Nat) (policy : Option BufDesc)
  | csCtxOpen (logn nprimes : Nat) (chain : BufDesc)
  | csOp (p : CsParams)
  | csCtxClose (ctx : Nat)
  | ksHash (op alg ctx : Nat) (buf : BufDesc)
  | dgRead (start count : Nat) (dest : BufDesc)
  | trcCfg (p : TrcParams)
  deriving DecidableEq, Repr, Inhabited

/-- A fetched command (R122, R127): its header, with the partition of its ring and the PART its packet carries, its parameters,
whether it has passed its checks and started, what a DG_READ took at its start (R310), and its end if it has ended. -/
structure Cmd where
  ring : Nat := 0
  tag : Nat := 0
  part : Nat := 0
  idPart : Nat := 0
  slot : Nat := 0
  opc : Nat := 0
  unordered : Bool := false
  fence : Bool := false
  signal : Bool := false
  sigSem : Nat := 0
  par : TCmd := .nop
  checked : Bool := false
  started : Bool := false
  done : Option (Nat × Nat) := none
  replay : Bool := false
  digest : Bool := false
  moved : Nat := 0
  took : Option (Nat × List Byte) := none
  deriving DecidableEq, Repr, Inhabited

/-- A host memory region (R132): base, length, access bits, and whether it is being retired (R133). -/
structure Region where
  base : Nat := 0
  len : Nat := 0
  access : Nat := 0
  live : Bool := false
  deriving DecidableEq, Repr, Inhabited

/-- A declared Deck region of a program's layout (R157, R174). -/
structure RegionDecl where
  region : Nat := 0
  cfg : W32 := 0
  deriving DecidableEq, Repr, Inhabited

/-- One entry of a restore list (R273): an HBM range, in a run buffer or at an address, and the Deck range it reloads. -/
structure Restore where
  buf : Option Nat := none
  addr : Nat := 0
  region : Nat := 0
  slot : Nat := 0
  nslots : Nat := 0
  deriving DecidableEq, Repr, Inhabited

/-- One tile role of an image (R157): its instructions, declared layout and span bounds. -/
structure Role where
  instrs : List W128 := []
  layout : List RegionDecl := []
  bounds : List Nat := []
  deriving DecidableEq, Repr, Inhabited

/-- One cut (R273): each role's span number at the cut and its restore list. -/
structure Cut where
  spans : List Nat := []
  restore : List (List Restore) := []
  deriving DecidableEq, Repr, Inhabited

/-- A compiled image (R157-R163, R273, R370). -/
structure Image where
  ring : Bool := false
  roles : List Role := []
  operands : List (List Byte) := []
  cuts : List Cut := []
  dimMax : List Nat := []
  deriving DecidableEq, Repr, Inhabited

/-- A loaded program (R187). -/
structure Prog where
  handle : Nat := 0
  part : Nat := 0
  image : Image := {}
  crc : W32 := 0
  src : BufDesc := {}
  pins : Nat := 0
  deriving DecidableEq, Repr, Inhabited

/-- A digest entry (R306). -/
structure Digest where
  index : Nat := 0
  prog : Nat := 0
  ringTag : Nat := 0
  layer : Nat := 0
  role : Nat := 0
  tile : Nat := 0
  flags : Nat := 0
  fmt : Nat := 0
  instr : Nat := 0
  cut : Nat := 0
  nbytes : Nat := 0
  digest : W64 := 0
  deriving DecidableEq, Repr, Inhabited

/-- A run of a program, queued or in progress, with the last cut it has passed, the last one
whose digests are in the ring, and the digests of the roles that have ended (R135, R159, R273-R279, R307). -/
structure Run where
  id : Nat := 0
  prog : Nat := 0
  part : Nat := 0
  cmd : Option (Nat × Nat) := none
  slot : Option Nat := none
  tiles : List Nat := []
  bufs : List BufDesc := []
  dims : List Nat := []
  rollbacks : Nat := 0
  cut : Nat := 0
  top : Nat := 0
  replay : Bool := false
  warn : Bool := false
  marked : Bool := false
  restoring : Bool := false
  begun : Bool := false
  rolled : Bool := false
  ended : List Nat := []
  held : List Digest := []
  last : Option Nat := none
  lead : Nat := 0
  steps : Nat := 0
  stepping : Bool := false
  failed : List Nat := []
  deriving DecidableEq, Repr, Inhabited

/-- A LOOP in progress: its first instruction, its length, and the passes left after this one (R164). -/
structure Loop where
  first : Nat := 0
  len : Nat := 0
  left : Nat := 0
  deriving DecidableEq, Repr, Inhabited

/-- The sequencer state of a tile that no register shows (R159-R170, R268, R273, R307): its run and role, its LOOP, where its
span began, what the span has deferred, filled, taken and locked, whether it has passed its cut barrier and entered its tail,
and what it waits for. A waited-for or filled slot is numbered over all Decks, 32,768 a tile. -/
structure Tile where
  run : Option Nat := none
  role : Nat := 0
  loop : Loop := {}
  spanFrom : Nat := 0
  spanLoop : Loop := {}
  deferred : List (Nat × Bool) := []
  filled : List Nat := []
  startQ : List Nat := []
  fails : Nat := 0
  inTail : Bool := false
  passed : Bool := false
  onPath : Bool := false
  atBarrier : Bool := false
  spanDone : Bool := false
  granted : Bool := false
  reqDone : Bool := false
  moved : Nat := 0
  waitSlot : Option (Nat × Bool) := none
  taken : List (Nat × Nat) := []
  locks : List (Nat) := []
  spanTaken : Nat := 0
  spanLocks : Nat := 0
  held : List Digest := []
  spanHeld : Nat := 0
  replayed : Bool := false
  deriving DecidableEq, Repr, Inhabited

/-- Who started a kernel (R171, R172). -/
inductive StayOwner where
  | cmd (ring tag : Nat)
  | prog (run : Nat)
  deriving DecidableEq, Repr, Inhabited

/-- A Stay core (R171): its kernel's parameters, its lock and its last result. -/
structure Stay where
  owner : Option StayOwner := none
  kernel : Nat := 0
  inst : Nat := 0
  next : Nat := 0
  params : List Byte := []
  lock : Option Nat := none
  lockHeld : Bool := false
  abandoned : Bool := false
  result : W32 := 0
  waitSlot : Option (Nat × Bool) := none
  deriving DecidableEq, Repr, Inhabited

/-- A requester at a semaphore, in the order of R181. -/
inductive Requester where
  | tile (t : Nat)
  | stay (t c : Nat)
  | ingress
  | cmd (ring tag : Nat)
  deriving DecidableEq, Repr, Inhabited

/-- A waiting WAIT n, or a waiting ACQUIRE (R181, R182). -/
structure Waiter where
  who : Requester := .ingress
  n : Nat := 1
  acquire : Bool := false
  ownerSel : Nat := 0
  deriving DecidableEq, Repr, Inhabited

/-- The phase source state of a Bearing channel (R39-R44). -/
structure Bearing where
  count : Nat := 0
  src : W32 := 0
  inc : W32 := 0
  missed : Nat := 0
  seen : Bool := false
  deriving DecidableEq, Repr, Inhabited

/-- A periodic phase alarm's hold after a firing (R49): how far the shaft must move on before the next crossing counts, how
far it has moved, and whether the firing was in the reverse sense. -/
structure Hold where
  need : Nat := 0
  moved : Int := 0
  back : Bool := false
  deriving DecidableEq, Repr, Inhabited

/-- A transaction that a serial port is asked for (R83): the tick of the request, the descriptors it samples, those of them
that a capture latch asked for, and whether the 100 µs poll of an SSI encoder made it (R72). -/
structure Ask where
  tick : Nat := 0
  descs : List Nat := []
  latched : List Nat := []
  poll : Bool := false
  deriving DecidableEq, Repr, Inhabited

/-- The counters, levels and transactions of an ingress port (R40, R70, R83): the requests that wait, and the one in progress
with the tick in which it began. -/
structure Port where
  count : W32 := 0
  zCount : W16 := 0
  broken : Bool := false
  fast : Bool := false
  level : Bool := false
  period : W32 := 0
  freq : W32 := 0
  line : Nat := 0
  counted : List Nat := []
  waiting : List Ask := []
  busy : Bool := false
  serving : List Nat := []
  began : Nat := 0
  deriving DecidableEq, Repr, Inhabited

/-- A capture window's held stamps: value and the tick of the latch (R55); the wrap count and TB_LOCKED at START (R80). -/
structure Window where
  start : Option (W32 × Nat) := none
  stop : Option (W32 × Nat) := none
  wrap : Byte := 0
  unlocked : Bool := false
  deriving DecidableEq, Repr, Inhabited

/-- A grain of a unit in the hub (R72): its bytes, the windows that admit it, each with its COUNT of completed windows, and
whether it is a CSI-2 line (R56, R80). -/
structure Grain where
  data : List Byte := []
  wins : List (Nat × Nat) := []
  line : Bool := false
  deriving DecidableEq, Repr, Inhabited

/-- What the capture windows say of a grain: the windows that admit it, and whether none of those that gate it does (R56). -/
structure Gating where
  wins : List (Nat × Nat) := []
  shut : Bool := false
  deriving DecidableEq, Repr, Inhabited

/-- A unit, or a window record, on its way to memory (R72, R76, R80): `data` has not landed yet, `len` bytes have; `inside`
and `outside` count its grains by R56, and `gate` is what the windows say at the TS of a serial sample (R81). A window record
has its PROD in `ofs` and its window's COUNT in `run`. -/
structure UnitRec where
  seq : W32 := 0
  ts : W32 := 0
  tsEnd : W32 := 0
  wrap : Byte := 0
  phase : W32 := 0
  flags : Nat := 0
  info : Nat := 0
  len : Nat := 0
  data : List Grain := []
  inside : Nat := 0
  outside : Nat := 0
  cut : Bool := false
  gate : Option Gating := none
  isWindow : Bool := false
  ofs : Nat := 0
  run : Nat := 0
  complete : Bool := false
  deriving DecidableEq, Repr, Inhabited

/-- The hub's state of a stream descriptor (R73-R83): `pend` is the stamp of a CSI-2 frame that has started, `cur` the unit in
progress, `sampled` the tick of the last sample and whether a latch took it, and `tally` counts the bytes landed inside each window. -/
structure Desc where
  seq : W32 := 0
  pend : Option UnitRec := none
  cur : Option UnitRec := none
  backlog : List UnitRec := []
  dropped : Nat := 0
  lastSeq : Option W32 := none
  need : Nat := 0
  skipping : Bool := false
  sampled : Option (Nat × Bool) := none
  tally : Tab Nat := []
  deriving DecidableEq, Repr, Inhabited

/-- A gate control list (R140). -/
structure GateList where
  base : W32 := 0
  cycle : Nat := 0
  init : Nat := 0
  entries : List (Nat × Nat) := []
  deriving DecidableEq, Repr, Inhabited

/-- A gate: its list in force, the next entry, its states, and a list waiting for its BASE (R140). -/
structure Gate where
  running : Option GateList := none
  pos : Nat := 0
  states : Nat := 0xFF
  waiting : Option GateList := none
  deriving DecidableEq, Repr, Inhabited

/-- A staged or sent frame or payload with its time (R96, R107). -/
structure Staged where
  data : List Byte := []
  ts : W32 := 0
  wrap : Byte := 0
  tick : Nat := 0
  deriving DecidableEq, Repr, Inhabited

/-- An output's hub state: staged value, last value sent, safe value (R95-R97, R103, R107). -/
structure OutBuf where
  staged : Option Staged := none
  last : Option Staged := none
  safe : Option (List Byte) := none
  applied : Option (Nat × List Byte) := none
  ms : Nat := 0
  due : Bool := false
  deriving DecidableEq, Repr, Inhabited

/-- A frame waiting on a port: queue, class, bytes (R104). -/
structure TxFrame where
  queue : Nat := 0
  tc : Nat := 0
  data : List Byte := []
  deriving DecidableEq, Repr, Inhabited

/-- A PWM output's pending duty (R99). -/
structure Pwm where
  pending : Option (Nat × Bool) := none
  deriving DecidableEq, Repr, Inhabited

/-- A fault record (R262) with the tick of its detection (R263). -/
structure FaultRec where
  seq : W32 := 0
  time : W32 := 0
  wrap : Byte := 0
  cls : Nat := 0
  action : Nat := 0
  part : Nat := 0xFF
  unit : Nat := 0
  cause : Nat := 0
  info0 : W64 := 0
  info1 : W32 := 0
  ringTag : Nat := 0xFFFF
  rep : Nat := 0
  tick : Nat := 0
  deriving DecidableEq, Repr, Inhabited

/-- An event held back while the management cores are stopped (R265, R331). -/
structure EvRec where
  ty : Nat := 0
  part : Nat := 0xFF
  arg0 : Nat := 0
  arg1 : W64 := 0
  arg2 : W64 := 0
  time : W32 := 0
  wrap : Byte := 0
  deriving DecidableEq, Repr, Inhabited

/-- A trace record (R312). -/
structure TraceRec where
  src : Nat := 0
  noPart : Bool := false
  ty : Nat := 0
  part : Nat := 0
  wrap : Byte := 0
  time : W32 := 0
  data : W64 := 0
  deriving DecidableEq, Repr, Inhabited

/-- The trace funnel's state beside its registers (R313-R318); `stopSeen` is the tick and number of the last stop trigger met
while ARMED (R316). -/
structure Trace where
  buf : List TraceRec := []
  post : Nat := 0
  fifoLost : Tab Nat := []
  charge : Nat := 0
  part : Nat := 0
  stream : BufDesc := {}
  written : Nat := 0
  stopSeen : Option (Nat × Nat) := none
  deriving DecidableEq, Repr, Inhabited

/-- A hash context (R348). -/
structure HashCtx where
  part : Nat := 0
  alg : Nat := 0
  msg : List Byte := []
  busy : Option (Nat × Nat) := none
  deriving DecidableEq, Repr, Inhabited

/-- A prime of a residue chain (R355): q = 2^K - 2^J + 1 and its root. -/
structure Prime where
  k : Nat := 0
  j : Nat := 0
  psi : Nat := 0
  deriving DecidableEq, Repr, Inhabited

/-- A Caisson operation of a command (R363, R366). -/
structure CsJob where
  ring : Nat := 0
  tag : Nat := 0
  p : CsParams := {}
  step : Nat := 0
  deriving DecidableEq, Repr, Inhabited

/-- A Caisson context's chain and its operations, the current one first (R356, R366). -/
structure CsCtx where
  chain : List Prime := []
  jobs : List CsJob := []
  deriving DecidableEq, Repr, Inhabited

/-- A tenant policy in force (R340): flags, MIN_SVN and its first 128 bytes. -/
structure Policy where
  minSvn : Nat := 0
  head : List Byte := []
  deriving DecidableEq, Repr, Inhabited

/-- A reset or switch of a partition in progress (R257, R342): its command, unless a reset has ended that (R148), whether it is
a tenant switch, the incoming policy, the KS_PART_ATT.STATE before it, and whether its transfers have drained. -/
structure Scrub where
  cmd : Option (Nat × Nat) := none
  tenant : Bool := false
  policy : Option (List Byte) := none
  was : Nat := 0
  drained : Bool := false
  deriving DecidableEq, Repr, Inhabited

/-- One tag of the whitelist image with its safe payload (R106). -/
structure WlTag where
  wl0 : W32 := 0
  wl1 : W64 := 0
  wl2 : W32 := 0
  safe : List Byte := []
  deriving DecidableEq, Repr, Inhabited

/-- The whitelist image (R106). -/
structure WlImage where
  speed : Nat := 0
  smac : BitVec 48 := 0
  tags : List WlTag := []
  deriving DecidableEq, Repr, Inhabited

/-- What one bank of the boot flash holds (R326, R394): whether its signature verifies, its SVN and contents. -/
structure Bank where
  signed : Bool := true
  svn : Nat := 0
  catalogue : Nat := 0
  firmware : List Byte := []
  whitelist : Option WlImage := none
  poolEn : Option Bool := none
  exportRun : Option W64 := none
  deriving DecidableEq, Repr, Inhabited

/-- Fuses and straps (R3, R68, R328, R330, R376, R407). -/
structure Fuses where
  stepping : Nat := 0
  grade : Nat := 0
  mask : Nat := 0xFFFF
  svn : Nat := 0
  tapHold : Bool := false
  pStatic : Nat := 0x1C2
  straps : Nat := 0
  deriving DecidableEq, Repr, Inhabited

/-- The SPDM responder (R327, R332, R336): which of the four secured sessions are open or in their handshake, the chain of
slot 1, a large request in progress and the last one, and the requests deferred in a bank switch window by their tokens. -/
structure Spdm where
  sessions : List Bool := [false, false, false, false]
  handshake : List Bool := [false, false, false, false]
  slot1 : List Byte := []
  chunk : List Byte := []
  large : List Byte := []
  token : Nat := 0
  deferred : List (Nat × Instr) := []
  deriving DecidableEq, Repr, Inhabited

/-- A response of the SPDM responder, the IDE_KM responder or a TDISP interface (R332-R339). -/
inductive Resp where
  | version (vs : List Nat)
  | capabilities (names : List String)
  | algorithms (names : List String)
  | digests (ds : List (List Byte))
  | certificate (slot : Nat) (chain : List Byte)
  | challengeAuth (slot : Nat) (sig : List Byte)
  | measurements (total : Nat) (ms : List (Nat × List Byte)) (sig : List Byte)
  | keyExchange (ses : Nat) (sig : List Byte)
  | finish (ses : Nat)
  | heartbeat (ses : Nat)
  | keyUpdate (ses : Nat)
  | endSession (ses : Nat)
  | chunkSendAck (handle : Nat)
  | chunk (handle : Nat) (data : List Byte)
  | csr (data : List Byte)
  | setCertificate (slot : Nat)
  | keyGo (stream : Nat)
  | tdispVersion
  | tdispCapabilities
  | tdispLocked (p : Nat)
  | tdispReport (p tiles : Nat) (res : List Nat) (meas : List Byte)
  | tdispState (p st : Nat)
  | tdispStarted (p : Nat)
  | tdispStopped (p : Nat)
  | unsupported
  | notReady (exponent m token : Nat)
  | refused
  deriving DecidableEq, Repr, Inhabited

/-- A message to another device of the pool (R288, R289, R297, R298): a request with the device address it names, an
answer, a forwarded block count, or this device's published mask of retired pseudo-channels. -/
inductive PoolMsg where
  | read (addr n : Nat)
  | write (addr : Nat) (data : List Byte)
  | addHbm (seq : Nat) (fmt : Nat) (ring : Bool) (addr : Nat) (data : List Byte)
  | addDeck (seq : Nat) (fmt : Nat) (ring : Bool) (tile slot : Nat) (data : List Byte)
  | data (bs : List Byte)
  | done
  | refused
  | poisoned
  | transit (n : Nat)
  | mask (m : W64)
  deriving DecidableEq, Repr, Inhabited

/-- What leaves the device other than by a memory or register (frames, answers, interrupts): the model's own log. -/
inductive Out where
  | eth (port : Nat) (frame : List Byte)
  | advisory (frame : List Byte)
  | msix (fn vector : Nat)
  | resp (r : Resp)
  | config (ok : Bool)
  | tdo (reg : Nat) (val : W32)
  | pool (node : Nat) (m : PoolMsg)
  deriving DecidableEq, Repr, Inhabited

/-- Power, reset and boot state (R387-R400, R412-R414). -/
structure Power where
  rails : Nat := 0
  pwrGood : Bool := false
  resetLow : Bool := false
  released : Bool := false
  pll : Bool := false
  boot : Bool := false
  recovery : Bool := false
  hubs : Bool := false
  trained : Bool := false
  memReady : Bool := false
  hostReady : Bool := false
  servo : Bool := false
  tripped : Bool := false
  tripOut : Bool := false
  scanHeld : Bool := false
  outsDriven : Bool := false
  perst : Bool := false
  cause : Nat := 0
  since : Nat := 0
  deriving DecidableEq, Repr, Inhabited

/-- The test access port (R413, R414): instruction register, and a scan instruction in effect. -/
structure Jtag where
  ir : Nat := 0x01
  active : Bool := false
  deriving DecidableEq, Repr, Inhabited

/-- The thermal block's window and runs (R375-R381). -/
structure Thermal where
  window : List (List Int × List Int × Int × Int) := []
  inletGood : Option Int := none
  inletFails : Nat := 0
  shut : Nat := 0
  high : List Nat := []
  est : List W32 := []
  deriving DecidableEq, Repr, Inhabited

/-- A commit between its admission and its single step (R246, R248), with its command. -/
structure Commit where
  ring : Nat := 0
  tag : Nat := 0
  pool : Nat := 0
  cfgs : List PartCfg := []
  deriving DecidableEq, Repr, Inhabited

end Sys2Proof.Machine
end

