-- ==== Sys2Proof/Config.lean ====
section
/-! DEFINITION. What the spec leaves open: free values, each an opaque constant with no body, named in a log entry. -/

namespace Sys2Proof.Config

open Sys2Proof.Machine (Image BufDesc)

/-- The `n`-th draw of random bits or of an undefined value (R232, R235, R355); log entry 7. -/
opaque freeValue : Nat → W64

/-- Whether the record of draw `n` finds its source's FIFO full, which only timing decides (R313); log entry 22. -/
opaque fifoFull : Nat → Bool

/-- The image that a byte string holds; the manual gives no container format (R157); log entry 8. -/
opaque parseImage : List Byte → Option Image

/-- Which dimensions an image declares as run-time dimensions (R135); log entry 8. -/
opaque declaresDim : Image → Nat → Bool

/-- ELTWISE functions 0x12-0x1A, whose results are given only to within 2 units in the last place: which of those it is (R165);
log entry 9. -/
opaque elementwise : Nat → W32 → W32

/-- The order in which an F32 accumulation of `n` terms adds them, set by the compiled instruction (R219); log entry 10. -/
opaque sumOrder : W128 → Nat → List Nat

/-- A NaN's sign and payload are not at stake: the F32 results the manual gives no value for (R165); log entry 11. -/
opaque undefF32 : Nat → W32 → W32 → W32

/-- The parameter block of a Stay kernel, read as the numbers its work needs (R171 gives only its size); entry 12. -/
opaque kernelField : Nat → List Byte → Nat → Nat

/-- The count of loops or outputs in the first 24 bytes of a CL_PID or CL_LIMIT parameter block; log entry 12. -/
opaque kernelCount : Nat → List Byte → Nat

/-- The value a kernel computes where R171 names its work and not its formula; log entry 12. -/
opaque kernelValue : Nat → List Byte → List Int → Nat → Int

/-- How REDUCE_XT and ATOMIC_ADD name their target: 0 own Deck, 1 another role's Deck, 2 HBM, 3 a Deck of another pool member;
log entry 13. -/
opaque reduceTarget : W128 → Nat

/-- The role, the device address, or the node, tile and slot that a reduction's target is (R20, R297); log entry 13. -/
opaque reduceAddr : W128 → List Byte → Nat

/-- The firmware servo's trimmed TB_INC before its clamp, from the old value and the offset (R36); log entry 14. -/
opaque servoTrim : W32 → W32 → W32

/-- The lock that a STAY_INVOKE passes to its kernel (R164, R171 give no field for it); log entry 12. -/
opaque invokeLock : W128 → Option Nat

/-- LPG of the pages of an ATTN whose list is a retrieval block, which carries no page size (R202); log entry 44. -/
opaque listLpg : W128 → Nat

/-- FILL of page `p` of an ATTN whose list is a retrieval block, which carries none (R202); log entry 44. -/
opaque listFill : W128 → List Byte → Nat → Nat

/-- The bytes of one position, 2 × H_kv × D × e, of the pages of a KV_RETRIEVE, which has no field for H_kv, D and the element
size (R201, R206); log entry 44. -/
opaque kvBytes : W128 → Nat

/-- An element that the manual leaves open in the output of an instruction that is not marked: the score of an unused entry of a
retrieval block, and what a row whose page table fails is given; no draw, since unmarked outputs repeat (R205, R208, R303); log
entry 44. -/
opaque openElem : W128 → Nat → W64

/-- The row of the batch table whose step an ATTN or KV_RETRIEVE takes: the instruction and the step (R208); log entry 19. -/
opaque stepRow : W128 → Nat → Nat

/-- The own position of query row `r` of a causal ATTN, for which R202 names no operand; log entry 44. -/
opaque queryPos : W128 → List Byte → Nat → Nat

/-- The mains PLL's increment after a zero-crossing: bandwidth, old increment, phase error, period (R39); entry 15. -/
opaque pllNext : Nat → W32 → W32 → W32 → W32

/-- Whether the mains PLL is locked after that zero-crossing (R39); log entry 15. -/
opaque pllLocked : Nat → W32 → W32 → W32 → Bool

/-- An encoder's counts when edges arrive above 50 MHz: whether the edge is counted (R41, R70); log entry 16. -/
opaque edgeCounted : Nat → Bool

/-- SHA-384 and SHA3-384 (R348) and the digests of measured images (R333); log entry 17. -/
opaque hash : Nat → List Byte → List Byte

/-- ECDSA P-384 verification of a signature over a message by a key (R340, R347); log entry 17. -/
opaque verify : List Byte → List Byte → List Byte → Bool

/-- Signatures, certificates and key material that Keystone's secrets produce (R327, R332); log entry 17. -/
opaque secret : Nat → List Byte → List Byte

/-- Whether a debug token is signed by the Vornaund firmware key and bound to this device's serial (R347 gives its size and
no layout); log entry 17. -/
opaque tokenOk : List Byte → Bool

/-- Whether an SPDM FINISH proves its requester (R332); log entry 17. -/
opaque finishOk : Nat → List Byte → Bool

/-- The boot image read back from a flash bank after STAGE (R329): what the bytes of an image mean; log entry 18. -/
opaque parseBank : List Byte → Sys2Proof.Machine.Bank

/-- Whether the model of a serving run signals the end of row `i` at a step (R208); log entry 19. -/
opaque rowEnds : Nat → Nat → Bool

/-- The bytes a step of a serving run appends to a row's output ring (R208); log entry 19. -/
opaque rowOutput : Nat → Nat → List Byte

/-- The transit device by which node `n` is reached in two hops, or a number above 7 where there is none: the announcements
from which firmware builds its route table are not laid out (R293, R294); log entry 20. -/
opaque routeOf : Nat → Nat

/-- Whether a peer refuses the request of draw `n`: its export run and tag states are its own (R288, R289); log entry 30. -/
opaque peerRefuses : Nat → Bool

/-- Whether a peer answers the read of draw `n` from a poisoned frame (R28, R299); log entry 30. -/
opaque peerPoisoned : Nat → Bool

/-- The JEDEC manufacturer code of IDCODE, given in the BSDL file (R413); log entry 21. -/
opaque jedec : BitVec 11

end Sys2Proof.Config
end

