-- ==== Sys2Proof/Machine/Float.lean ====
section
/-! DEFINITION. Element formats and their arithmetic: decoding, rounding and the F32 operations of R213-R219. -/

namespace Sys2Proof.Machine

/-- An exact value: a number ±m × 2^e, an infinity, or NaN. -/
inductive Num where
  | nan
  | inf (neg : Bool)
  | fin (neg : Bool) (m : Nat) (e : Int)
  deriving DecidableEq, Repr, Inhabited

/-- A floating format (R213): exponent and mantissa widths, bias, whether it has infinities, its largest finite code,
and its canonical NaN (`none` where a NaN converts to +0, R217). -/
structure FloatFmt where
  eb : Nat
  mb : Nat
  bias : Nat
  inf : Bool
  maxCode : Nat
  nanCode : Option Nat
  deriving DecidableEq, Repr

/-- The floating formats 0x0-0x6 (R213). -/
def floatFmt : Nat → Option FloatFmt
  | 0x0 => some ⟨8, 23, 127, true, 0x7F7FFFFF, some 0x7FC00000⟩
  | 0x1 => some ⟨5, 10, 15, true, 0x7BFF, some 0x7E00⟩
  | 0x2 => some ⟨8, 7, 127, true, 0x7F7F, some 0x7FC0⟩
  | 0x3 => some ⟨4, 3, 7, false, 0x7E, some 0x7F⟩
  | 0x4 => some ⟨5, 2, 15, true, 0x7B, some 0x7E⟩
  | 0x5 => some ⟨3, 2, 3, false, 0x1F, none⟩
  | 0x6 => some ⟨2, 1, 1, false, 0x7, none⟩
  | _ => none

/-- Whether a format code is floating. -/
def isFloat (f : Nat) : Bool := (floatFmt f).isSome

/-- Whether a format code is an integer format, I32 to I4 (R213). -/
def isInt (f : Nat) : Bool := decide (7 ≤ f) && decide (f ≤ 0xB)

/-- The width of an element (R213). -/
def fmtBits : Nat → Nat
  | 0x1 => 16
  | 0x2 => 16
  | 0x3 => 8
  | 0x4 => 8
  | 0x5 => 6
  | 0x6 => 4
  | 0x8 => 16
  | 0x9 => 8
  | 0xA => 8
  | 0xB => 4
  | 0xD => 8
  | _ => 32

/-- The integer a code of an integer format or Q16.16 is; U8 is unsigned (R213). -/
def intOf (f c : Nat) : Int := if f = 0xA then ((c % 256 : Nat) : Int) else toSigned (fmtBits f) c

/-- The range of an integer format or Q16.16 (R213). -/
def intRange (f : Nat) : Int × Int :=
  if f = 0xA then (0, 255) else (-(2 ^ (fmtBits f - 1) : Int), 2 ^ (fmtBits f - 1) - 1)

/-- An integer as a value times 2^e. -/
def numOfInt (i : Int) (e : Int) : Num := .fin (decide (i < 0)) i.natAbs e

/-- The value of a floating code (R213). -/
def floatValue (t : FloatFmt) (c : Nat) : Num :=
  let neg := natBit c (t.eb + t.mb)
  let x := natBits c t.mb t.eb
  let m := natBits c 0 t.mb
  if t.inf && x == 2 ^ t.eb - 1 then (if m = 0 then .inf neg else .nan)
  else if !t.inf && t.nanCode == some (natBits c 0 (t.eb + t.mb)) then .nan
  else if x = 0 then .fin neg m (1 - (t.bias : Int) - t.mb)
  else .fin neg (2 ^ t.mb + m) ((x : Int) - t.bias - t.mb)

/-- The value of a code in any format (R213). -/
def value (f c : Nat) : Num :=
  match floatFmt f with
  | some t => floatValue t c
  | none =>
    if f = 0xC then numOfInt (intOf f c) (-16)
    else if f = 0xD then (if c % 256 = 255 then .nan else .fin false 1 ((c % 256 : Nat) - 127))
    else numOfInt (intOf f c) 0

/-- The number of bits of a natural. -/
def bitLen (n : Nat) : Nat := if n = 0 then 0 else Nat.log2 n + 1

/-- m × 2^k for k ≥ 0, or m / 2^-k rounded to nearest, ties to even (R217). -/
def shiftRne (m : Nat) (k : Int) : Nat :=
  if 0 ≤ k then m * 2 ^ k.toNat
  else
    let d := 2 ^ (-k).toNat
    let q := m / d
    let r := m % d
    if 2 * r < d then q else if d < 2 * r then q + 1 else q + q % 2

/-- m × 2^k with 16 random bits `r` added below the last place, and truncated (R232). -/
def shiftStoch (r m : Nat) (k : Int) : Nat :=
  if 0 ≤ k then m * 2 ^ k.toNat
  else
    let d := 2 ^ (-k).toNat
    (m * 65536 + r % 65536 * d) / (d * 65536)

/-- How a value is rounded: to nearest even, or with random bits (R217, R232). -/
inductive Rounding where
  | rne
  | stoch (r : Nat)
  deriving DecidableEq, Repr

/-- m × 2^k rounded. -/
def Rounding.shift : Rounding → Nat → Int → Nat
  | .rne => shiftRne
  | .stoch r => shiftStoch r

/-- A value encoded in a floating format; overflow saturates when `sat` or without an infinity (R217). -/
def encodeFloat (t : FloatFmt) (rd : Rounding) (sat : Bool) (v : Num) : Nat :=
  let sign := fun (neg : Bool) => if neg then 2 ^ (t.eb + t.mb) else 0
  let ovf := fun (neg : Bool) => sign neg + if sat || !t.inf then t.maxCode else (2 ^ t.eb - 1) * 2 ^ t.mb
  match v with
  | .nan => t.nanCode.getD 0
  | .inf neg => ovf neg
  | .fin neg m e =>
    if m = 0 then sign neg
    else
      let top := max (e + bitLen m - 1) (1 - (t.bias : Int))
      let n := rd.shift m (e - (top - t.mb))
      let c := ((top + t.bias).toNat - 1) * 2 ^ t.mb + n
      if c ≤ t.maxCode then sign neg + c else ovf neg

/-- A value rounded to an integer (R217). -/
def roundInt (rd : Rounding) (v : Num) : Int :=
  match v with
  | .fin false m e => rd.shift m e
  | .fin true m e => -(rd.shift m e : Int)
  | _ => 0

/-- A value encoded in an integer format or Q16.16 with zero point `z`, saturating (R217). -/
def encodeInt (f : Nat) (rd : Rounding) (z : Int) (v : Num) : Nat :=
  let (lo, hi) := intRange f
  let clamp := fun (i : Int) => ofSigned (fmtBits f) (max lo (min hi i))
  match v with
  | .nan => 0
  | .inf neg => clamp (if neg then lo else hi)
  | .fin neg m e => clamp (roundInt rd (.fin neg m (if f = 0xC then e + 16 else e)) + z)

/-- A conversion to format `f` (R217), and whether it turned a NaN to 0 (R234). -/
def convert (f : Nat) (rd : Rounding) (sat : Bool) (z : Int) (v : Num) : Nat × Bool :=
  match floatFmt f with
  | some t => (encodeFloat t rd sat v, v == .nan && t.nanCode.isNone)
  | none => (encodeInt f rd z v, v == .nan)

/-! F32 arithmetic: each operation one rounding to nearest even (R219, R228) -/

/-- The F32 format. -/
def f32Fmt : FloatFmt := ⟨8, 23, 127, true, 0x7F7FFFFF, some 0x7FC00000⟩

/-- The value of an F32 word. -/
def f32Val (a : W32) : Num := floatValue f32Fmt a.toNat

/-- A value rounded to F32. -/
def toF32 (v : Num) : W32 := BitVec.ofNat 32 (encodeFloat f32Fmt .rne false v)

/-- The canonical F32 NaN. -/
def f32NaN : W32 := 0x7FC00000#32

/-- An exact sum of two finite values; an exact zero is +0 unless both are −0. -/
def addFin (n1 : Bool) (m1 : Nat) (e1 : Int) (n2 : Bool) (m2 : Nat) (e2 : Int) : Num :=
  let e := min e1 e2
  let a : Int := m1 * 2 ^ (e1 - e).toNat
  let b : Int := m2 * 2 ^ (e2 - e).toNat
  let s := (if n1 then -a else a) + (if n2 then -b else b)
  if s = 0 then .fin (n1 && n2) 0 e else numOfInt s e

/-- a + b; infinities of opposite signs have no stated sum (log entry 11). -/
def f32Add (a b : W32) : W32 :=
  match f32Val a, f32Val b with
  | .nan, _ => f32NaN
  | _, .nan => f32NaN
  | .inf n, .inf k => if n = k then a else Config.undefF32 0 a b
  | .inf _, _ => a
  | _, .inf _ => b
  | .fin n1 m1 e1, .fin n2 m2 e2 => toF32 (addFin n1 m1 e1 n2 m2 e2)

/-- −a. -/
def f32Neg (a : W32) : W32 := a ^^^ 0x80000000#32

/-- a − b. -/
def f32Sub (a b : W32) : W32 := f32Add a (f32Neg b)

/-- The exact product of two values; 0 × ∞ has none. -/
def mulNum (a b : Num) : Option Num :=
  match a, b with
  | .nan, _ => some .nan
  | _, .nan => some .nan
  | .inf n, .inf k => some (.inf (n != k))
  | .inf n, .fin k m _ => if m = 0 then none else some (.inf (n != k))
  | .fin k m _, .inf n => if m = 0 then none else some (.inf (n != k))
  | .fin n1 m1 e1, .fin n2 m2 e2 => some (.fin (n1 != n2) (m1 * m2) (e1 + e2))

/-- a × b (log entry 11 for 0 × ∞). -/
def f32Mul (a b : W32) : W32 :=
  match mulNum (f32Val a) (f32Val b) with
  | some v => toF32 v
  | none => Config.undefF32 1 a b

/-- a / b for finite values, b not 0: enough quotient bits and a sticky bit for one exact rounding. -/
def divFin (n1 : Bool) (m1 : Nat) (e1 : Int) (n2 : Bool) (m2 : Nat) (e2 : Int) : Num :=
  let k := 64 + bitLen m2
  let q := m1 * 2 ^ k / m2
  .fin (n1 != n2) (2 * q + if m1 * 2 ^ k % m2 = 0 then 0 else 1) (e1 - e2 - k - 1)

/-- The quotient of two values, near enough to round once; 0/0 and ∞/∞ have none, a finite non-zero value over 0 is an
infinity. -/
def divNum (a b : Num) : Option Num :=
  match a, b with
  | .nan, _ => some .nan
  | _, .nan => some .nan
  | .inf _, .inf _ => none
  | .inf n, .fin k _ _ => some (.inf (n != k))
  | .fin n _ _, .inf k => some (.fin (n != k) 0 0)
  | .fin n1 m1 e1, .fin n2 m2 e2 =>
    if m2 = 0 then (if m1 = 0 then none else some (.inf (n1 != n2))) else some (divFin n1 m1 e1 n2 m2 e2)

/-- a / b of F32 words as a value that is still to be rounded (log entry 11 where there is none). -/
def f32Quot (a b : W32) : Num := (divNum (f32Val a) (f32Val b)).getD (f32Val (Config.undefF32 2 a b))

/-- a / b. -/
def f32Div (a b : W32) : W32 := toF32 (f32Quot a b)

/-- √a of a value that is not negative. -/
def sqrtFin (m : Nat) (e : Int) : Num :=
  let odd := (e % 2).toNat
  let m' := m * 2 ^ (64 + odd)
  let r := Nat.sqrt m'
  .fin false (2 * r + if r * r = m' then 0 else 1) ((e - odd - 64) / 2 - 1)

/-- √a; a negative value gives NaN (R165, R233). -/
def f32Sqrt (a : W32) : W32 :=
  match f32Val a with
  | .nan => f32NaN
  | .inf n => if n then f32NaN else a
  | .fin n m e => if m = 0 then a else if n then f32NaN else toF32 (sqrtFin m e)

/-- Whether an F32 word is NaN. -/
def f32IsNaN (a : W32) : Bool := f32Val a == .nan

/-- Whether an F32 word is finite. -/
def f32Finite (a : W32) : Bool :=
  match f32Val a with
  | .fin .. => true
  | _ => false

/-- Whether an F32 word is below 0. -/
def f32Neg? (a : W32) : Bool :=
  match f32Val a with
  | .inf n => n
  | .fin n m _ => n && m != 0
  | .nan => false

/-- a < b for values that are not NaN. -/
def numLt (a b : Num) : Bool :=
  match a, b with
  | .nan, _ => false
  | _, .nan => false
  | .inf n, .inf k => n && !k
  | .inf n, _ => n
  | _, .inf k => !k
  | .fin n1 m1 e1, .fin n2 m2 e2 =>
    match addFin n1 m1 e1 (!n2) m2 e2 with
    | .fin n m _ => n && m != 0
    | _ => false

/-- a < b for words that are not NaN. -/
def f32Lt (a b : W32) : Bool := numLt (f32Val a) (f32Val b)

/-- a − b of finite values; NaN where either is not finite. -/
def subNum (a b : Num) : Num :=
  match a, b with
  | .fin n1 m1 e1, .fin n2 m2 e2 => addFin n1 m1 e1 (!n2) m2 e2
  | _, _ => .nan

/-- The larger of two values; NaN where one is NaN (R198). -/
def numMax (a b : Num) : Num := if a == .nan || b == .nan then .nan else if numLt a b then b else a

/-- max(a, b); a NaN operand gives NaN (R165). -/
def f32Max (a b : W32) : W32 := if f32IsNaN a || f32IsNaN b then f32NaN else if f32Lt a b then b else a

/-- min(a, b); a NaN operand gives NaN (R165). -/
def f32Min (a b : W32) : W32 := if f32IsNaN a || f32IsNaN b then f32NaN else if f32Lt b a then b else a

/-- An element as F32: exact, but an I32 that F32 cannot hold, which is rounded (R165). -/
def elemF32 (f c : Nat) : W32 := toF32 (value f c)

/-- floor(log2 |v|) of a finite value that is not 0. -/
def log2Floor (m : Nat) (e : Int) : Int := e + bitLen m - 1

/-- The order in which an F32 accumulation of `n` terms adds them; `k` stands for the compiled instruction (R219; log
entry 10). -/
def sumOrder (k : W128) (n : Nat) : List Nat :=
  let l := Config.sumOrder k n
  if l.isPerm (List.range n) then l else List.range n

/-- The F32 sum of terms in their order. -/
def f32Sum (k : W128) (start : W32) (ts : List W32) : W32 :=
  (sumOrder k ts.length).foldl (fun a j => f32Add a (ts.getD j 0)) start

end Sys2Proof.Machine
end

