-- ==== Sys2Proof/Machine/Approx.lean ====
section
/-! DEFINITION. The functions that R165 gives to within 2 units in the last place, in fixed point with 256 fraction bits, far
beyond that bound (log entry 9). -/

namespace Sys2Proof.Machine

/-- 1. -/
def fxOne : Nat := 2 ^ 256

/-- ±m × 2^e. -/
def fxOf (neg : Bool) (m : Nat) (e : Int) : Int :=
  let a : Int := if -256 ≤ e then m * 2 ^ (e + 256).toNat else m / 2 ^ (-(e + 256)).toNat
  if neg then -a else a

/-- The value of a fixed-point number. -/
def fxNum (x : Int) : Num := numOfInt x (-256)

/-- The exponential series of 0 ≤ r < 1. -/
def fxExpSeries (r : Nat) : Nat :=
  ((List.range 64).foldl (fun (term, sum) k =>
    let term := term * r / (fxOne * (k + 1))
    (term, sum + term)) (fxOne, fxOne)).2

/-- artanh z for 0 ≤ z ≤ 1/3. -/
def fxArtanh (z : Nat) : Nat :=
  ((List.range 90).foldl (fun (p, sum) k => (p * z / fxOne * z / fxOne, sum + p / (2 * k + 1))) (z, 0)).2

/-- ln 2 = 2 artanh(1/3). -/
def fxLn2 : Nat := 2 * fxArtanh (fxOne / 3)

/-- e^x; an argument beyond ±512 over- or underflows F32 as ±512 does. -/
def fxExp (x : Int) : Num :=
  let lim : Int := 512 * fxOne
  let x : Int := max (-lim) (min lim x)
  .fin false (fxExpSeries (x % fxLn2).toNat) (x / fxLn2 - 256)

/-- e^(−x) of a magnitude, in fixed point. -/
def fxExpNeg (x : Nat) : Nat :=
  match fxExp (-(x : Int)) with
  | .fin _ m e => m / 2 ^ (-(e + 256)).toNat
  | _ => 0

/-- 1 / (1 + e^(−x)). -/
def fxSigmoid (x : Int) : Int :=
  let q := fxExpNeg x.natAbs
  if 0 ≤ x then (fxOne * fxOne / (fxOne + q) : Nat) else (q * fxOne / (fxOne + q) : Nat)

/-- tanh x. -/
def fxTanh (x : Int) : Int :=
  let q := fxExpNeg (2 * x.natAbs)
  let t : Nat := (fxOne - q) * fxOne / (fxOne + q)
  if x < 0 then -(t : Int) else t

/-- ln(m × 2^e) for m > 0, about the power of two nearest to m. -/
def fxLn (m : Nat) (e : Int) : Int :=
  let j := if 2 * m < 3 * 2 ^ (bitLen m - 1) then bitLen m - 1 else bitLen m
  let p := 2 ^ j
  let z : Int := if p ≤ m then fxArtanh ((m - p) * fxOne / (m + p)) else -(fxArtanh ((p - m) * fxOne / (m + p)) : Int)
  2 * z + (e + j) * fxLn2

/-- Twice 0.7978846 × (a + 0.044715 × a³), so that GELU(a) = a / (1 + e^(−that)) (R165). -/
def fxGeluArg (a : Int) : Int := (a + 44715 * (a * a * a / (fxOne * fxOne : Nat)) / 1000000) * 15957692 / 10000000

/-- 1 / √(m × 2^e): enough bits and a sticky bit for one exact rounding. -/
def rsqrtFin (m : Nat) (e : Int) : Num :=
  let odd := (e % 2).toNat
  let m := m * 2 ^ odd
  let k := 64 + bitLen m
  let q := Nat.sqrt (2 ^ (2 * k) / m)
  .fin false (2 * q + if q * q * m = 2 ^ (2 * k) then 0 else 1) (-(e - odd) / 2 - k - 1)

/-- 1 / √a; a negative value gives NaN (R165). -/
def f32Rsqrt (a : W32) : W32 :=
  match f32Val a with
  | .nan => f32NaN
  | .inf n => if n then f32NaN else 0#32
  | .fin n m e => if m = 0 then toF32 (.inf n) else if n then f32NaN else toF32 (rsqrtFin m e)

/-- A result within 2 units in the last place of the exact one: the free value where it is that near, else the exact
one (R165; log entry 9). -/
def near2 (exact free : W32) : W32 :=
  let d := (free.toNat : Int) - exact.toNat
  if f32IsNaN exact || f32IsNaN free then exact else if decide (-2 ≤ d) && decide (d ≤ 2) then free else exact

/-- a × v of a value and a fixed-point number. -/
def fxTimes (a : Num) (v : Int) : Num := (mulNum a (fxNum v)).getD .nan

/-- The exact results of functions 0x12-0x1A (R165). GELU and SILU of −∞ have no stated value (log entry 11). -/
def eltExact (c : Nat) (a : W32) : W32 :=
  match c, f32Val a with
  | 0x17, v => match v with
    | .nan => f32NaN
    | .inf n => if n then f32NaN else a
    | .fin n m e => if m = 0 then 0xFF800000#32 else if n then f32NaN else toF32 (fxNum (fxLn m e))
  | 0x18, _ => f32Div 0x3F800000#32 a
  | 0x19, _ => f32Sqrt a
  | 0x1A, _ => f32Rsqrt a
  | _, .nan => f32NaN
  | 0x12, .inf n => if n then 0#32 else 0x3F800000#32
  | 0x12, .fin n m e => toF32 (fxNum (fxSigmoid (fxOf n m e)))
  | 0x13, .inf n => if n then 0xBF800000#32 else 0x3F800000#32
  | 0x13, .fin n m e => if m = 0 then a else toF32 (fxNum (fxTanh (fxOf n m e)))
  | 0x14, .inf n => if n then Config.undefF32 3 a a else a
  | 0x14, .fin n m e => toF32 (fxTimes (.fin n m e) (fxSigmoid (fxGeluArg (fxOf n m e))))
  | 0x15, .inf n => if n then Config.undefF32 4 a a else a
  | 0x15, .fin n m e => toF32 (fxTimes (.fin n m e) (fxSigmoid (fxOf n m e)))
  | _, .inf n => if n then 0#32 else a
  | _, .fin n m e => toF32 (fxExp (fxOf n m e))

/-- Functions 0x12-0x1A: within 2 units in the last place of the exact result (R165; log entry 9). -/
def eltApprox (c : Nat) (a : W32) : W32 := near2 (eltExact c a) (Config.elementwise c a)

end Sys2Proof.Machine
end

