-- ==== Sys2Proof/Machine/State.lean ====
section
/-! DEFINITION. The state of the LY4: its registers, its memories, what the rules name outside registers, and the queue
of waiting commands. -/

namespace Sys2Proof.Machine

/-- Why the machine stops with a fault. -/
inductive Fault where
  /-- Raised by no command: the spec gives every command of the table an effect on whatever data it carries. Safe. -/
  | malformedCommand
  deriving DecidableEq, Repr

/-- Why a command has no meaning. -/
inductive Refusal where
  /-- Raised for a row of the table that is not modelled. Safe: nothing is said of the command. -/
  | notModelled (mnemonic : String)
  deriving DecidableEq, Repr

/-- The machine. Registers are held by R11's map under `regs`, an unlisted register holding its reset value; the other
fields are the state the rules name outside registers. -/
structure State where
  pending : List Instr := []
  regs : Tab W64 := []
  -- time and phase (R30-R61)
  tb : BitVec 56 := 0
  wrap : Byte := 0
  ticks : Nat := 0
  goodSyncs : Nat := 0
  servoStepped : Bool := false
  bearings : Tab Bearing := []
  entries : Tab RunParams := []
  holds : Tab Hold := []
  windows : Tab Window := []
  -- ingress (R62-R88)
  ports : Tab Port := []
  descs : Tab Desc := []
  filters : Tab W128 := []
  meters : Tab W128 := []
  tokens : Tab Nat := []
  gates : Tab Gate := []
  -- egress (R89-R114)
  pwms : Tab Pwm := []
  pulses : Nat := 0
  groups : Tab OutBuf := []
  queues : Tab OutBuf := []
  txq : Tab (List TxFrame) := []
  tags : Tab OutBuf := []
  smac : BitVec 48 := 0
  lastTag : Nat := 63
  rampUs : Tab Nat := []
  -- rings (R115-R156)
  cmds : List Cmd := []
  phases : Nat := 0
  turnPart : Nat := 7
  turnRing : Tab Nat := []
  mrs : Tab Region := []
  unsig : Tab Nat := []
  -- tiles and Decks (R157-R188)
  progs : List Prog := []
  runs : List Run := []
  nextRun : Nat := 1
  nextProg : Nat := 1
  tiles : Tab Tile := []
  stays : Tab Stay := []
  scales : Tab W128 := []
  deck : Memory := []
  full : Tab Bool := []
  fedOut : Tab Bool := []
  waiters : Tab (List Waiter) := []
  -- memories (R17-R19, R283)
  hbm : Memory := []
  poisoned : List Nat := []
  host : Memory := []
  -- Tollgates (R237-R259)
  resUsed : Tab Nat := []
  ceilUsed : Tab Nat := []
  held : List (Instr × Nat) := []
  turnRsv : Tab Nat := []
  turnExc : Tab Nat := []
  commit : Option Commit := none
  degradedRes : Nat := 0
  -- faults and events (R260-R286)
  faults : List FaultRec := []
  evPhase : Bool := false
  evLost : Nat := 0
  evHeld : List EvRec := []
  ceNow : Tab Nat := []
  deckCe : Tab Nat := []
  ceDue : Nat := 0
  -- Causeway (R287-R302); bit l of `conflicts`: link l is held DOWN (R302); of `restores`: it trains after a RESTORE (R290)
  peerMasks : Tab W64 := []
  conflicts : Nat := 0
  restores : Nat := 0
  applied : Tab (List W64) := []
  credits : Tab Nat := []
  replays : Tab Nat := []
  atomicSeq : Nat := 0
  -- digests and trace (R303-R325)
  digests : Tab Digest := []
  trace : Trace := {}
  -- Keystone (R326-R354)
  fuses : Fuses := {}
  bankA : Bank := {}
  bankB : Bank := {}
  reverted : Bool := false
  config : List Byte := []
  fallback : Option (Nat × Nat) := none
  swStart : Nat := 0
  policies : Tab Policy := []
  scrubs : Tab (Option Scrub) := []
  scrubInfo : Tab (Nat × Nat) := []
  hashes : Tab (Option HashCtx) := []
  hashLast : Option Nat := none
  spdm : Spdm := {}
  ide : Nat := 0
  -- Caisson (R355-R374)
  csCtx : Tab CsCtx := []
  vault : Memory := []
  vaultBad : List Nat := []
  -- thermal, power and test access (R375-R416)
  thermal : Thermal := {}
  power : Power := {}
  jtag : Jtag := {}
  -- the model's own: what has left the device, and the draws of free values made
  outs : List Out := []
  draws : Nat := 0
  deriving DecidableEq, Repr

/-- The machine right after reset (R30, R391 step 1, R392): every register at its reset value, every memory empty, no
command waiting. The values the spec does not give are named in log entries 3 to 6. -/
def State.reset : State := {}

end Sys2Proof.Machine
end

