-- ==== Sys2Proof/Machine/Ops.lean ====
section
/-! DEFINITION. The named operations every family shares: register and table access, time, event counters (R320-R322),
trace records (R311-R318), events (R264-R266), fault records (R261-R263), and the end of a command (R143-R148). -/

namespace Sys2Proof.Machine

namespace State

/-- The value of register `r`, index `k`; an unlisted register holds its reset value (R11). -/
def rget (s : State) (r : Reg) (k : Nat) : W64 := tabGet (regReset r k) s.regs (regKey r k)

/-- Register `r`, index `k`, set whole. -/
def rset (s : State) (r : Reg) (k : Nat) (v : W64) : State :=
  { s with regs := tabSet (regReset r k) s.regs (regKey r k) v }

/-- A register at its reset value (R152, R343). -/
def rreset (s : State) (r : Reg) (k : Nat) : State := s.rset r k (regReset r k)

/-- The value of a field. -/
def fget (s : State) (f : Fld) (k : Nat) : Nat := getBits (s.rget f.r k) f.lo f.w

/-- A field set, modulo its width. -/
def fset (s : State) (f : Fld) (k v : Nat) : State := s.rset f.r k (setBits (s.rget f.r k) f.lo f.w v)

/-- Whether a field is not 0. -/
def flag (s : State) (f : Fld) (k : Nat) : Bool := s.fget f k != 0

/-- A field advanced by `n`, modulo its width. -/
def fadd (s : State) (f : Fld) (k n : Nat) : State := s.fset f k (s.fget f k + n)

/-- A field advanced by `n`, saturating at its largest value. -/
def fsat (s : State) (f : Fld) (k n : Nat) : State := s.fset f k (min (s.fget f k + n) (2 ^ f.w - 1))

def bearing (s : State) (c : Nat) : Bearing := tabGet {} s.bearings c
def setBearing (s : State) (c : Nat) (b : Bearing) : State := { s with bearings := tabSet {} s.bearings c b }
def win (s : State) (w : Nat) : Window := tabGet {} s.windows w
def setWin (s : State) (w : Nat) (v : Window) : State := { s with windows := tabSet {} s.windows w v }
def port (s : State) (p : Nat) : Port := tabGet {} s.ports p
def setPort (s : State) (p : Nat) (v : Port) : State := { s with ports := tabSet {} s.ports p v }
def desc (s : State) (n : Nat) : Desc := tabGet {} s.descs n
def setDesc (s : State) (n : Nat) (v : Desc) : State := { s with descs := tabSet {} s.descs n v }
def gate (s : State) (g : Nat) : Gate := tabGet {} s.gates g
def setGate (s : State) (g : Nat) (v : Gate) : State := { s with gates := tabSet {} s.gates g v }
def pwm (s : State) (o : Nat) : Pwm := tabGet {} s.pwms o
def setPwm (s : State) (o : Nat) (v : Pwm) : State := { s with pwms := tabSet {} s.pwms o v }
def group (s : State) (g : Nat) : OutBuf := tabGet {} s.groups g
def setGroup (s : State) (g : Nat) (v : OutBuf) : State := { s with groups := tabSet {} s.groups g v }
def queue (s : State) (q : Nat) : OutBuf := tabGet {} s.queues q
def setQueue (s : State) (q : Nat) (v : OutBuf) : State := { s with queues := tabSet {} s.queues q v }
def advTag (s : State) (k : Nat) : OutBuf := tabGet {} s.tags k
def setAdvTag (s : State) (k : Nat) (v : OutBuf) : State := { s with tags := tabSet {} s.tags k v }
def txFrames (s : State) (p : Nat) : List TxFrame := tabGet [] s.txq p
def setTxFrames (s : State) (p : Nat) (v : List TxFrame) : State := { s with txq := tabSet [] s.txq p v }
def tile (s : State) (t : Nat) : Tile := tabGet {} s.tiles t
def setTile (s : State) (t : Nat) (v : Tile) : State := { s with tiles := tabSet {} s.tiles t v }
def stay (s : State) (t c : Nat) : Stay := tabGet {} s.stays (2 * t + c)
def setStay (s : State) (t c : Nat) (v : Stay) : State := { s with stays := tabSet {} s.stays (2 * t + c) v }
def semWaiters (s : State) (n : Nat) : List Waiter := tabGet [] s.waiters n
def setSemWaiters (s : State) (n : Nat) (v : List Waiter) : State := { s with waiters := tabSet [] s.waiters n v }
/-- The memory region of handle `h` of partition `p` (R132). -/
def mr (s : State) (p h : Nat) : Region := tabGet {} s.mrs (256 * p + h)
def setMr (s : State) (p h : Nat) (v : Region) : State := { s with mrs := tabSet {} s.mrs (256 * p + h) v }
def ctx (s : State) (c : Nat) : CsCtx := tabGet {} s.csCtx c
def setCtx (s : State) (c : Nat) (v : CsCtx) : State := { s with csCtx := tabSet {} s.csCtx c v }
def hashCtx (s : State) (c : Nat) : Option HashCtx := tabGet none s.hashes c
def setHashCtx (s : State) (c : Nat) (v : Option HashCtx) : State := { s with hashes := tabSet none s.hashes c v }
def policy (s : State) (p : Nat) : Policy := tabGet {} s.policies p

/-- TB_NOW: the whole nanoseconds of the 56-bit counter (R30, R31). -/
def now (s : State) : W32 := (s.tb >>> 24).setWidth 32

/-- The next draw of a free value; the counter goes on (log entry 7). -/
def draw (s : State) : W64 × State := (Config.freeValue s.draws, { s with draws := s.draws + 1 })

/-- One thing that leaves the device. -/
def emit (s : State) (o : Out) : State := { s with outs := s.outs ++ [o] }

/-- Bytes written to host memory at a 64-bit bus address. -/
def hostWrite (s : State) (a : Nat) (bs : List Byte) : State := { s with host := memWrite s.host (a % 2 ^ 64) bs }

/-- Whether partition `p` is confidential without the debug consent bit (R346). -/
def confid (s : State) (p : Nat) : Bool := s.flag F.KS_PART_ATT_CONFIDENTIAL p && !(s.flag F.KS_PART_ATT_CONSENT p)

/-- Whether tile `t` is retired (R272). -/
def retired (s : State) (t : Nat) : Bool := s.fget F.PT_STAT_STATE t == 4

/-- Whether tile `t` is enabled by fuse (R3). -/
def fused (s : State) (t : Nat) : Bool := natBit (s.fget F.KS_GRADE_TILE_MASK 0) t

/-- Whether partition `p` owns tile `t` (R238). -/
def owns (s : State) (p t : Nat) : Bool := natBit (s.fget F.TG_PART_TILES p) t

/-- The partition that owns tile `t`, if any (R238). -/
def tileOwner (s : State) (t : Nat) : Option Nat := (List.range 8).find? (fun p => s.owns p t)

/-! Event counters (R320-R322) -/

/-- One counter's contribution, or MASKED when the partition is confidential without consent (R322). -/
def countOne (masked : Bool) (n k : Nat) (s : State) : State :=
  if masked then s.fset F.EVC_VAL_MASKED k 1
  else
    let c := s.fget F.EVC_VAL_COUNT k + n
    let s := if c < 2 ^ 48 then s else s.fset F.EVC_VAL_WRAPPED k 1
    s.fset F.EVC_VAL_COUNT k c

/-- Whether counter `k` selects event `code` of instance `qual`; an event without an instance takes `none` (R320). -/
def counts (s : State) (code : Nat) (qual : Option Nat) (k : Nat) : Bool :=
  s.flag F.EVC_CFG_EN k && s.fget F.EVC_CFG_EVENT k == code &&
    (s.flag F.EVC_CFG_ANY k || qual == none || qual == some (s.fget F.EVC_CFG_QUAL k))

/-- `n` contributions to event `code`, which arise in partition `part` (R320-R322). -/
def count (s : State) (code : Nat) (qual part : Option Nat) (n : Nat) : State :=
  if s.flag F.EVC_CTRL_RUN 0 then
    forEach ((List.range 64).filter (s.counts code qual))
      (countOne (match part with | some p => s.confid p | none => false) n) s
  else s

/-- All 64 counts into EVC_SNAP, and the time (R320). -/
def snapshot (s : State) : State :=
  forEach (List.range 64) (fun k s => s.fset F.EVC_SNAP_COUNT k (s.fget F.EVC_VAL_COUNT k))
    (s.fset F.EVC_SNAPTIME_NS 0 s.now.toNat)

/-! Charging (R21, R241) -/

/-- The index of partition `p`, resource `r` in the Tollgate registers (R243). -/
def tgIdx (p r : Nat) : Nat := 5 * p + r

/-- The depth of a bucket, in tenths of a byte: BURST KiB (R241, R243). -/
def burst (s : State) (i : Nat) : Nat := s.fget F.TG_CFG_BURST i * 10240

/-- What a bucket lacks of being full, in tenths of a byte. -/
def used (t : Tab Nat) (i : Nat) : Nat := tabGet 0 t i

/-- One transfer of `n` bytes of partition `p` on resource `r`, in 64 B units: reserved while the reserved bucket is
above 0, excess after; the ceiling bucket is debited by both, and may fall below zero (R241; log entry 27). -/
def charge (s : State) (p r n : Nat) : State :=
  let i := tgIdx p r
  let units := ceilDiv n 64
  let left := s.burst i - used s.resUsed i
  let rsv := min units (ceilDiv left 640)
  let exc := units - rsv
  let s := { s with resUsed := tabSet 0 s.resUsed i (used s.resUsed i + rsv * 640),
                    ceilUsed := tabSet 0 s.ceilUsed i (used s.ceilUsed i + units * 640) }
  let s := s.fadd F.TG_BYTES_RSV_RSV_BYTES i (rsv * 64)
  let s := s.fadd F.TG_BYTES_EXC_EXC_BYTES i (exc * 64)
  (s.count (0x020 + r) (some p) (some p) rsv).count (0x028 + r) (some p) (some p) exc

/-- Whether the ceiling bucket at index `i` holds no token (R241). -/
def dry (s : State) (i : Nat) : Bool := decide (s.burst i ≤ used s.ceilUsed i)

/-- Whether the reserved bucket at index `i` holds tokens (R241). -/
def reservedLeft (s : State) (i : Nat) : Bool := decide (used s.resUsed i < s.burst i)

/-- The credits of a lane of one link, in 256 B blocks; lane 2l carries link l's requests, 2l + 1 its responses (R292). -/
def laneCredits : Nat := 512

/-- Whether a lane has no credit left to send against (R292). -/
def laneDry (s : State) (k : Nat) : Bool := decide (laneCredits ≤ used s.credits k)

/-- What a step of partition `p` from `s` to `t` drew on although it was empty: a ceiling bucket by its index, or a lane by
64 and its number (R241, R292). -/
def shortOf (s t : State) (p : Nat) : Option Nat :=
  (((List.range 5).map (tgIdx p)).find? (fun i => s.dry i && decide (used s.ceilUsed i < used t.ceilUsed i))).or
    (((List.range 16).find? (fun k => s.laneDry k && decide (used s.credits k < used t.credits k))).map (· + 64))

/-- The effect `t` of command `c`, a transfer of partition `p`; where it meets an empty ceiling bucket or a lane without
credits, nothing happens yet and the command waits there (R241, R292; log entry 27). -/
def gated (s : State) (p : Nat) (c : Instr) (t : State) : State :=
  match s.shortOf t p with
  | none => t
  | some i => if s.held.contains (c, i) then s else { s with held := s.held ++ [(c, i)] }

/-- The effect `t` of a command that moves bytes of each partition in `ps`. -/
def gatedAll (s : State) (ps : List Nat) (c : Instr) (t : State) : State :=
  match ps.find? (fun p => (s.shortOf t p).isSome) with
  | some p => s.gated p c t
  | none => t

/-! Trace records (R311-R318) -/

/-- The bytes of a trace record (R312). -/
def traceBytes (t : TraceRec) : List Byte :=
  leBytes 1 (t.src + if t.noPart then 64 else 0) ++ leBytes 1 t.ty ++ leBytes 1 t.part ++ [t.wrap] ++
    leBytes 4 t.time.toNat ++ leBytes 8 t.data.toNat

/-- Fields packed from bit 0, each a width and a value (R312). -/
def packFields : List (Nat × Nat) → Nat
  | [] => 0
  | (w, v) :: fs => v % 2 ^ w + 2 ^ w * packFields fs

/-- The host bus address of byte `o` of the STREAM ring's region (R317, R318). -/
def streamAddr (s : State) (o : Nat) : Nat :=
  (s.mr s.trace.part s.trace.stream.mr).base + s.trace.stream.addr + o

/-- The number of records of the STREAM ring: COUNT = 256 + 16 × 2^k (R317). -/
def streamRecs (s : State) : Nat := (s.trace.stream.count - 256) / 16

/-- The queued STREAM records written to the host ring, and then the 64-bit count (R318). -/
def streamDrain (s : State) : State :=
  let n := s.trace.written
  let s1 := (s.trace.buf.zipIdx).foldl
    (fun s (r, i) => s.hostWrite (s.streamAddr (256 + ((n + i) % s.streamRecs) * 16)) (traceBytes r)) s
  let w := n + s.trace.buf.length
  let s2 := s1.hostWrite (s1.streamAddr 0) (leBytes 8 w)
  let s3 := s2.charge s2.trace.charge 4 (16 * s.trace.buf.length + 8)
  { s3 with trace := { s3.trace with written := w, buf := [] } }

/-- Whether a VF owns the trace and the record is not its partition's (R314). -/
def traceHidden (s : State) (part : Option Nat) : Bool :=
  match s.fget F.TRC_STAT_OWNER 0 with
  | 0 => false
  | n + 1 => part != some n

/-- A record that is lost (R313, R324). -/
def traceLost (s : State) (src : Nat) (part : Option Nat) : State :=
  let s := { s with trace := { s.trace with fifoLost := tabSet 0 s.trace.fifoLost src (tabGet 0 s.trace.fifoLost src + 1) } }
  ((s.fadd F.TRC_CNT_LOST 0 1).fset F.TRC_STAT_LOST_EV 0 1).count 0x191 (some src) part 1

/-- One record into the buffer, or into the STREAM queue, which is written in blocks of 16 (R316, R318). -/
def tracePut (s : State) (r : TraceRec) : State :=
  let s := s.fadd F.TRC_CNT_WRITTEN 0 1
  if s.flag F.TRC_STAT_MODE 0 then
    let s := { s with trace := { s.trace with buf := s.trace.buf ++ [r] } }
    if 16 ≤ s.trace.buf.length then s.streamDrain else s
  else
    let s := if s.trace.buf.length < 262144 then s else s.fset F.TRC_STAT_WRAPPED 0 1
    { s with trace := { s.trace with buf := (s.trace.buf ++ [r]).drop (s.trace.buf.length + 1 - 262144) } }

/-- The record a source makes now (R312). -/
def traceRec (s : State) (src ty : Nat) (part : Option Nat) (fs : List (Nat × Nat)) : TraceRec :=
  { src := src, noPart := part == none, ty := ty, part := part.getD 0, wrap := s.wrap, time := s.now,
    data := BitVec.ofNat 64 (packFields fs) }

/-- A record taken by the funnel, or lost when its source's FIFO or the STREAM queue is full (R313, R316). -/
def traceTake (s : State) (src ty : Nat) (part : Option Nat) (fs : List (Nat × Nat)) : State :=
  let full := Config.fifoFull s.draws || decide (s.flag F.TRC_STAT_MODE 0 ∧ 262144 ≤ s.trace.buf.length)
  let s := { s with draws := s.draws + 1 }
  if full then s.traceLost src part else (s.count 0x190 (some src) part 1).tracePut (s.traceRec src ty part fs)

/-- A source's record: filtered at the source, taken while RUNNING, or in POST while its count lasts (R313-R315). -/
def traceEv (s : State) (src ty : Nat) (part : Option Nat) (fs : List (Nat × Nat)) : State :=
  let st := s.fget F.TRC_STAT_STATE 0
  if !(natBit (s.fget F.TRC_SRC_SRC_EN 0) src) then s
  else if (match part with | some p => s.confid p | none => false) || s.traceHidden part then s
  else if st = 2 then s.traceTake src ty part fs
  else if st = 3 ∧ 0 < s.trace.post then
    let w := s.fget F.TRC_CNT_WRITTEN 0
    let s := s.traceTake src ty part fs
    if s.fget F.TRC_CNT_WRITTEN 0 = w then s else { s with trace := { s.trace with post := s.trace.post - 1 } }
  else s

/-! Events (R264-R266) -/

/-- One MSI-X vector of function 0 (PF) or 1-8 (VF); vector r is ring pair r's, 128 the event ring's (log entry 23). -/
def msix (s : State) (fn vector : Nat) : State := s.emit (.msix fn vector)

/-- One more unsignalled entry; the vector fires once COAL_N + 1 are unsignalled (R117). -/
def unsignalled (s : State) (fn vector : Nat) (en : Bool) (coalN : Nat) : State :=
  let n := tabGet 0 s.unsig vector + 1
  if en && decide (coalN < n) then { s.msix fn vector with unsig := tabSet 0 s.unsig vector 0 }
  else { s with unsig := tabSet 0 s.unsig vector n }

/-- The bytes of an event entry (R265). -/
def eventBytes (e : EvRec) (phase : Bool) : List Byte :=
  leBytes 2 e.ty ++ leBytes 1 e.part ++ [if phase then 0x80#8 else 0#8] ++ leBytes 4 e.time.toNat ++ [e.wrap] ++
    leBytes 3 0 ++ leBytes 4 e.arg0 ++ leBytes 8 e.arg1.toNat ++ leBytes 8 e.arg2.toNat

/-- The free entries of the event ring; one place stays free so that HEAD = TAIL is empty (R264). -/
def eventFree (s : State) : Nat :=
  let n := 2 ^ s.fget F.FLT_EVR_CFG_LOG2 0
  n - 1 - (s.fget F.FLT_EVR_PTR_TAIL 0 + n - s.fget F.FLT_EVR_PTR_HEAD 0) % n

/-- The partition that pays for an event entry: the one it names, else P0 (R21, R239; log entry 102). -/
def eventPayer (e : EvRec) : Nat := if e.part < 8 then e.part else 0

/-- One entry written at TAIL, charged to HOST_OUT (R239, R264, R265). -/
def eventWrite (s : State) (e : EvRec) : State :=
  let n := 2 ^ s.fget F.FLT_EVR_CFG_LOG2 0
  let tail := s.fget F.FLT_EVR_PTR_TAIL 0
  let s := s.hostWrite (s.fget F.FLT_EVR_BASE_ADDR 0 * 4096 + tail * 32) (eventBytes e s.evPhase)
  let s := { s with evPhase := if tail + 1 = n then (!s.evPhase) else s.evPhase }
  let s := (s.fset F.FLT_EVR_PTR_TAIL 0 ((tail + 1) % n)).charge (eventPayer e) 4 32
  s.unsignalled 0 128 (s.flag F.FLT_EVR_CFG_IRQ_EN 0) (s.fget F.FLT_EVR_CFG_COAL_N 0)

/-- Whether Keystone is in a bank switch window, in which the management cores are stopped (R331). -/
def evStopped (s : State) : Bool := s.fget F.KS_STAT_STATE 0 == 2

/-- EVENTS_LOST in the first free entry after events were discarded, ahead of any newer event (R266). -/
def eventsLost (s : State) : State :=
  if s.evLost = 0 ∨ s.eventFree = 0 ∨ !(s.flag F.FLT_EVR_CFG_EN 0) ∨ s.evStopped then s
  else { s with evLost := 0 }.eventWrite { ty := 0x00FF, arg0 := s.evLost, time := s.now, wrap := s.wrap }

/-- An event entry written, or lost and counted when the ring is full (R264, R266). -/
def eventPut (s : State) (e : EvRec) : State :=
  if s.eventFree = 0 then
    { (s.fadd F.FLT_EVR_STAT_LOST 0 1).fset F.FLT_EVR_STAT_OVERFLOW 0 1 with evLost := s.evLost + 1 }
  else if s.flag F.FLT_EVR_CFG_EN 0 then s.eventWrite e
  else s

/-- An event posted: nothing while EN is 0, held in a bank switch window, else after the EVENTS_LOST that is due (R264, R266,
R331). -/
def eventPost (s : State) (e : EvRec) : State :=
  if !(s.flag F.FLT_EVR_CFG_EN 0) then s
  else if s.evStopped then { s with evHeld := s.evHeld ++ [e] }
  else s.eventsLost.eventPut e

/-- An event of the present time (R265). -/
def event (s : State) (ty part arg0 : Nat) (arg1 arg2 : Nat) : State :=
  s.eventPost
    { ty := ty, part := part, arg0 := arg0, arg1 := BitVec.ofNat 64 arg1, arg2 := BitVec.ofNat 64 arg2
      time := s.now, wrap := s.wrap }

/-! Fault records (R261-R263) -/

/-- Whether a record is a repeat of the newest one within 1 ms, 250,000 ticks (R263). Of a tile, each failure and each of the
ACTIONs 4 and 5 has a record of its own (R271, R280; log entry 24). -/
def faultRepeats (s : State) (f n : FaultRec) : Bool :=
  n.cls == f.cls && n.unit == f.unit && n.cause == f.cause && n.info0 == f.info0 &&
    (f.cls != 2 || (n.action == f.action && n.info1 == f.info1)) && decide (s.ticks ≤ n.tick + 250000)

/-- A new record at NEXT_SEQ, its event and its trace record. -/
def faultNew (s : State) (f : FaultRec) : State :=
  let seq := s.fget F.FLT_STAT_NEXT_SEQ 0
  let r := { f with seq := BitVec.ofNat 32 seq, time := s.now, wrap := s.wrap, tick := s.ticks, rep := 0 }
  let s := { s with faults := (r :: s.faults).take 256 }
  let s := s.fadd F.FLT_STAT_NEXT_SEQ 0 1
  let s := s.event 0x0001 f.part seq
    (packFields [(8, r.wrap.toNat), (8, f.cls), (8, f.action), (8, f.part), (16, f.unit), (16, f.cause)])
    f.info0.toNat
  s.traceEv 0x2B 0xD0 (if f.part < 8 then some f.part else none) [(16, seq), (16, f.cls)]

/-- A fault recorded: coalesced, or written whole with its FAULT event and trace record (R261-R263, R265, R311). -/
def fault (s : State) (f : FaultRec) : State :=
  match s.faults with
  | n :: rest =>
    if s.faultRepeats f n then { s with faults := { n with rep := min (n.rep + 1) 0xFFFF } :: rest }
    else s.faultNew f
  | [] => s.faultNew f

/-- The number of a requester in an ACCESS record: 0 PF, 0x11-0x18 VF (R262). -/
def fnUnit : Fn → Nat
  | .pf => 0
  | .vf p => 0x11 + p.val

/-- The partition an ACCESS record names: a VF's own (R262; log entry 25). -/
def fnPart : Fn → Nat
  | .pf => 0xFF
  | .vf p => p.val

/-- The BAR0 offset of index `k` of register `r` in the physical function's window (R12). -/
def regOffset (r : Reg) (k : Nat) : Nat :=
  let p := regPlace r
  p.base + k / p.n2 * p.s1 + k % p.n2 * p.s2

/-- A discarded access recorded under CLASS 0x01 (R262). -/
def accessFault (s : State) (fn : Fn) (cause off : Nat) (data : W64) : State :=
  s.fault { cls := 1, action := 0, part := fnPart fn, unit := fnUnit fn, cause := cause, info0 := BitVec.ofNat 64 off,
            info1 := data.setWidth 32 }

/-! Commands in flight (R122, R127, R143-R148) -/

/-- The in-flight command of ring `r` with TAG `t` that has not ended (R127). -/
def findCmd (s : State) (r t : Nat) : Option Cmd := s.cmds.find? (fun c => c.ring == r && c.tag == t && c.done == none)

/-- One in-flight command replaced. -/
def modCmd (s : State) (r t : Nat) (f : Cmd → Cmd) : State :=
  { s with cmds := s.cmds.map (fun c => if c.ring == r && c.tag == t && c.done == none then f c else c) }

/-- RING_TAG of a record or digest: [15:9] ring pair, [8:0] TAG (R262, R306). -/
def ringTag (r t : Nat) : Nat := r * 512 + t

end State
end Sys2Proof.Machine
end

