-- ==== Sys2Proof/Machine/Tollgate.lean ====
section
/-! DEFINITION. Tollgates: charging (R239-R242), deliverable capacity (R250), shedding (R252, R253), DEGRADED (R254). -/

namespace Sys2Proof.Machine.State

/-- One tick's refill of a bucket table: `rate` units of 0.1 GB/s are 4 tenths of a byte each in 4 ns (R241). -/
def refillTab (rate : Nat → Nat) (t : Tab Nat) : Tab Nat :=
  (t.map (fun e => (e.1, e.2 - 4 * rate e.1))).filter (fun e => e.2 ≠ 0)

/-- One tick of all buckets: the reserved bucket refills at E, the ceiling bucket at CEIL (R241). -/
def refill (s : State) : State :=
  { s with resUsed := refillTab (s.fget F.TG_EFF_E) s.resUsed,
           ceilUsed := refillTab (s.fget F.TG_CFG_CEIL) s.ceilUsed }

/-- Whether a transfer of bucket index `i` waits for ceiling tokens: a command held there, or units of an earlier transfer
that are ahead of their tokens (R241, R243; log entry 27). -/
def tollWaits (s : State) (i : Nat) : Bool := s.held.any (fun e => e.2 == i) || decide (s.burst i + 640 ≤ used s.ceilUsed i)

/-- `n` Truss cycles of waiting in TG_WAIT and its event counters (R243, R258, R321). -/
def tollCycles (s : State) (n : Nat) : State :=
  forEach ((List.range 40).filter s.tollWaits)
    (fun i t => (t.fadd F.TG_WAIT_CYCLES i n).count (0x030 + i % 5) (some (i / 5)) (some (i / 5)) n) s

/-- The numbers of a list in rotation: those after the one served last come first (R242). -/
def rotate (last : Nat) (ps : List Nat) : List Nat := ps.filter (fun p => decide (last < p)) ++ ps.filter (fun p => decide (p ≤ last))

/-- The first command of partition `p` that waits at resource `r` and whose ceiling bucket is positive again (R241). -/
def eligible (s : State) (r p : Nat) : Option (Instr × Nat) :=
  if s.dry (tgIdx p r) then none else s.held.find? (fun e => e.2 == tgIdx p r)

/-- The partitions of one class in the order resource `r` serves them: reserved, P0 first and P1-P7 in rotation; excess, all
in rotation (R242). -/
def classOrder (s : State) (r : Nat) (reserved : Bool) : List Nat :=
  (if reserved then 0 :: rotate (tabGet 0 s.turnRsv r) [1, 2, 3, 4, 5, 6, 7] else rotate (tabGet 7 s.turnExc r) (List.range 8)).filter
    (fun p => s.reservedLeft (tgIdx p r) == reserved && (s.eligible r p).isSome)

/-- One arbitration point of resource `r`: reserved-class requests before excess-class ones, one request of each partition
(R242). The commands served come to the front of the queue in that order. -/
def arbitrate (r : Nat) (s : State) : State :=
  let rsv := s.classOrder r true
  let exc := s.classOrder r false
  let go := (rsv ++ exc).filterMap (s.eligible r)
  { s with held := s.held.filter (fun e => !(go.contains e)), pending := s.pending ++ go.map (·.1)
           turnRsv := tabSet 0 s.turnRsv r (((rsv.filter (· != 0)).getLast?).getD (tabGet 0 s.turnRsv r))
           turnExc := tabSet 7 s.turnExc r ((exc.getLast?).getD (tabGet 7 s.turnExc r)) }

/-- The credits that peers return, and the commands that waited for them (R292; log entry 100). -/
def returnCredits (s : State) : State :=
  { s with credits := [], held := s.held.filter (fun e => decide (e.2 < 64))
           pending := s.pending ++ (s.held.filter (fun e => decide (64 ≤ e.2))).map (·.1) }

/-- What waited at the Tollgates and on the links and may go on now (R241, R242, R292). -/
def serveHeld (s : State) : State := if s.held = [] then { s with credits := [] } else (forEach (List.range 5) arbitrate s).returnCredits

/-- The waits of partition `p` at the Tollgates end (R257 step 3). -/
def dropHeld (s : State) (p : Nat) : State := { s with held := s.held.filter (fun e => e.2 / 5 != p || decide (64 ≤ e.2)) }

/-- Tiles enabled and not retired (R243). -/
def tilesIn (s : State) : Nat := ((List.range 16).filter (fun t => s.fused t && !(s.retired t))).length

/-- Pseudo-channels in service (R243). -/
def pcIn (s : State) : Nat := ((List.range 64).filter (fun c => !(s.flag F.FLT_PC_RETIRED c))).length

/-- Whether link `l` is trained and not retired: HELD, ACTIVE or RETRAIN (R243, R290; log entry 28). -/
def linkIn (s : State) (l : Nat) : Bool :=
  let st := s.fget F.CW_LINK_STAT_STATE l
  st == 2 || st == 3 || st == 4

/-- Causeway links trained and not retired (R243). -/
def linksIn (s : State) : Nat := ((List.range 8).filter s.linkIn).length

/-- The owned in-service tiles of partition `p` (R239). -/
def ownedIn (s : State) (p : Nat) : Nat :=
  ((List.range 16).filter (fun t => s.owns p t && s.fused t && !(s.retired t))).length

/-- The thermal derate published (R250, R378). -/
def derate (s : State) : Nat := s.fget F.TH_STAT_DERATE 0

/-- floor(0.85 × PEAK × DERATE × N_in / (1,024 × N_tot)) (R250). -/
def deliver (peak derate nIn nTot : Nat) : Nat := 17 * peak * derate * nIn / (20 * 1024 * nTot)

/-- D of resource `r` other than DECK (R239, R250). -/
def capacity (s : State) (r : Nat) : Nat :=
  if r = 0 then deliver 32000 s.derate s.pcIn 64
  else if r = 1 then deliver 16000 s.derate s.linksIn 8
  else if r = 2 then 0
  else deliver 560 s.derate (s.fget F.TG_SERVICE_LF 0) 64

/-- D of DECK for partition `p` (R239, R250). -/
def deckCapacity (s : State) (p : Nat) : Nat := deliver (64 * s.ownedIn p) s.derate 1 1

/-- One partition's row in a resource's shed: rank, RES, FLOOR and E (R253). -/
structure ShedRow where
  rank : Nat
  res : Nat
  floor : Nat
  e : Nat
  deriving DecidableEq, Repr

/-- How far a cut goes: to the floor, or to 0 (R253). -/
def cutLimit (toFloor : Bool) (x : ShedRow) : Nat := if toFloor then x.floor else 0

/-- `cut` of R253: the rows of one rank give up to their limit, in proportion to their margin. -/
def cutRank (rank : Nat) (toFloor : Bool) (rows : List ShedRow) (deficit : Nat) : List ShedRow × Nat :=
  let avail := ((rows.filter (·.rank == rank)).map (fun x => x.e - cutLimit toFloor x)).sum
  let rows := rows.map (fun x =>
    if x.rank == rank then
      { x with e := if avail ≤ deficit then cutLimit toFloor x
                    else x.e - ceilDiv ((x.e - cutLimit toFloor x) * deficit) avail }
    else x)
  (rows, if avail ≤ deficit then deficit - avail else 0)

/-- Successive ranks cut while a deficit remains (R253). -/
def cutRanks (toFloor : Bool) (ranks : List Nat) (rows : List ShedRow) (deficit : Nat) : List ShedRow × Nat :=
  ranks.foldl (fun (rows, d) rank => if d = 0 then (rows, d) else cutRank rank toFloor rows d) (rows, deficit)

/-- `shed` of R253: E of every partition, in partition order, for deliverable capacity `d`. -/
def shed (d : Nat) (rows : List ShedRow) : List Nat :=
  let rows := rows.map (fun x => { x with e := x.res })
  let (rows, def1) := cutRanks true [1, 2, 3, 4, 5, 6, 7, 8] rows ((rows.map (·.res)).sum - d)
  let (rows, def2) := cutRanks false [1, 2, 3, 4, 5, 6, 7] rows def1
  let es := rows.map (·.e)
  if def2 = 0 then es else es.set 0 d

/-- The rows of resource `r` as committed (R243). -/
def shedRows (s : State) (r : Nat) : List ShedRow :=
  (List.range 8).map (fun p =>
    { rank := s.fget F.TG_PART_RANK p, res := s.fget F.TG_CFG_RES (tgIdx p r), floor := s.fget F.TG_CFG_FLOOR (tgIdx p r), e := 0 })

/-- The effective reservations of resource `r` (R253). -/
def effective (s : State) (r : Nat) : List Nat :=
  if r = 2 then (List.range 8).map (fun p => min (s.fget F.TG_CFG_RES (tgIdx p 2)) (s.deckCapacity p))
  else shed (s.capacity r) (s.shedRows r)

/-- TG_EFF.STATE (R243). -/
def effState (e res floor : Nat) : Nat :=
  if res ≤ e then 0 else if floor < e then 1 else if e = floor then 2 else 3

/-- The sum of committed RES over all partitions; 0 for DECK (R243). -/
def sumRes (s : State) (r : Nat) : Nat :=
  if r = 2 then 0 else ((List.range 8).map (fun p => s.fget F.TG_CFG_RES (tgIdx p r))).sum

/-- Whether some partition's E on `r` is below its RES (R243). -/
def isShed (s : State) (r : Nat) : Bool :=
  (List.range 8).any (fun p => decide (s.fget F.TG_EFF_E (tgIdx p r) < s.fget F.TG_CFG_RES (tgIdx p r)))

/-- Whether P0's floor is met on `r` (R254). -/
def floorMet (s : State) (r : Nat) : Bool := decide (s.fget F.TG_CFG_FLOOR (tgIdx 0 r) ≤ s.fget F.TG_EFF_E (tgIdx 0 r))

/-- A capacity event of resource `r`, with D and SUM_RES as TG_CAP has them: 0 for DECK (R243, R255, R265; log entry 26). -/
def capacityEvent (s : State) (ty r : Nat) : State :=
  s.event ty 0xFF r (s.fget F.TG_CAP_D r) (s.fget F.TG_CAP_SUM_RES r)

/-- The new E, STATE, D and SUM_RES of resource `r` (R243, R253). -/
def recomputeRes (r : Nat) (s : State) : State :=
  let s1 := ((s.effective r).zipIdx).foldl (fun (s1 : State) (e, p) =>
    let i := tgIdx p r
    (s1.fset F.TG_EFF_E i e).fset F.TG_EFF_STATE i (effState e (s.fget F.TG_CFG_RES i) (s.fget F.TG_CFG_FLOOR i))) s
  if r = 2 then forEach (List.range 8) (fun p s1 => s1.fset F.TG_PART_DECK_D p (s.deckCapacity p)) s1
  else (s1.fset F.TG_CAP_D r (s.capacity r)).fset F.TG_CAP_SUM_RES r (s.sumRes r)

/-- SHED and the events of one resource after a recompute; `deg` is a resource on which DEGRADED just set (R255). -/
def recomputeReport (deg : Option Nat) (r : Nat) (s : State) : State :=
  let old := natBit (s.fget F.TG_STATUS_SHED 0) r
  let new := s.isShed r
  let mask := s.fget F.TG_STATUS_SHED 0
  let s := s.fset F.TG_STATUS_SHED 0 (if new = old then mask else if new then mask + 2 ^ r else mask - 2 ^ r)
  let s := s.traceEv 0x23 0x70 none [(16, r), (16, s.fget F.TG_CAP_D r), (16, s.fget F.TG_STATUS_SHED 0)]
  if (new && !old) || deg == some r then s.capacityEvent 0x0050 r
  else if old && !new then s.capacityEvent 0x0051 r
  else s

/-- One advisory tag when DEGRADED sets: its staged payload is discarded and counted, what it sent before is not sent
again, and it is due (R109). -/
def advTagDegrade (k : Nat) (s : State) : State :=
  let b := s.advTag k
  let s := s.setAdvTag k { b with staged := none, last := none, due := s.flag F.ACT_ADV_WL0_EN k }
  if s.flag F.ACT_ADV_TSTAT_FRESH k then
    ((s.fset F.ACT_ADV_TSTAT_FRESH k 0).fadd F.ACT_ADV_CNT_DISCARDED 0 1).count 0x144 (some (48 + k))
      (some (s.fget F.ACT_ADV_WL0_PART k)) 1
  else s

/-- The capacity recompute: every E, DEGRADED, SHED and the events (R252-R255). -/
def recompute (s : State) : State :=
  let s := forEach (List.range 5) recomputeRes s
  let unmet := (List.range 5).find? (fun r => !(s.floorMet r))
  let was := s.flag F.TG_STATUS_DEGRADED 0
  let s := match unmet with
    | some r =>
      let s := if was then s else forEach (List.range 64) advTagDegrade s
      { (s.fset F.TG_STATUS_DEGRADED 0 1).fset F.ACT_ADV_STAT_DEGRADED 0 1 with degradedRes := r }
    | none => s
  forEach (List.range 5) (recomputeReport (if was then none else unmet)) s

end Sys2Proof.Machine.State

namespace Sys2Proof.Machine

/-- DEGRADED_CLEAR: P0's floor has been met on every resource for 1 s; both bits clear in the same tick, and
CAPACITY_RESTORED names the resource last unmet (R254, R255; log entry 26). -/
def execDegradedClear (s : State) : Host.Outcome State Fault Refusal :=
  .next (
    if s.flag F.TG_STATUS_DEGRADED 0 && (List.range 5).all s.floorMet then
      let s := (s.fset F.TG_STATUS_DEGRADED 0 0).fset F.ACT_ADV_STAT_DEGRADED 0 0
      s.capacityEvent 0x0051 s.degradedRes
    else s)

end Sys2Proof.Machine
end

