-- ==== Sys2Proof/Machine/Sem.lean ====
section
/-! DEFINITION. Semaphores: counts, waiters, locks, owners and abandonment (R179-R184). -/

namespace Sys2Proof.Machine.State

/-- Whether semaphore `n` is in use and belongs to partition `p` (R180). -/
def semOk (s : State) (n p : Nat) : Bool := s.flag F.SEM_CFG_EN n && s.fget F.SEM_CFG_PART n == p

/-- Whether semaphore `n` is in lock mode. -/
def semLock (s : State) (n : Nat) : Bool := s.flag F.SEM_CFG_LOCK n

/-- SIGNAL k: adds k, saturating at 65,535 with OVERFLOW (R180). -/
def semAdd (s : State) (n k : Nat) : State :=
  let c := s.fget F.SEM_STAT_COUNT n + k
  let s := if c ≤ 65535 then s else s.fset F.SEM_STAT_OVERFLOW n 1
  (s.fset F.SEM_STAT_COUNT n (min c 65535)).count 0x160 (some n) (some (s.fget F.SEM_CFG_PART n)) 1

/-- A count taken: COUNT falls by k (R180). -/
def semTake (s : State) (n k : Nat) : State :=
  let p := s.fget F.SEM_CFG_PART n
  ((s.fset F.SEM_STAT_COUNT n (s.fget F.SEM_STAT_COUNT n - k)).count 0x161 (some n) (some p) 1).traceEv
    0x27 0x90 (some p) [(16, n), (16, 0)]

/-- Counts given back to a semaphore: COUNT rises without a signal (R277 step 4). -/
def semGiveBack (s : State) (n k : Nat) : State :=
  s.fset F.SEM_STAT_COUNT n (min (s.fget F.SEM_STAT_COUNT n + k) 65535)

/-- A lock taken and its owner recorded; ABANDONED stays (R182, R184). -/
def lockTake (s : State) (n kind id : Nat) : State :=
  let p := s.fget F.SEM_CFG_PART n
  let ab := s.fget F.SEM_STAT_ABANDONED n
  let s := (s.fset F.SEM_STAT_HELD n 1).fset F.SEM_STAT_COUNT n 0
  let s := (s.fset F.SEM_OWNER_KIND n kind).fset F.SEM_OWNER_ID n id
  let s := s.count 0x161 (some n) (some p) 1
  let s := if ab = 0 then s else s.count 0x162 (some n) (some p) 1
  s.traceEv 0x27 0x90 (some p) [(16, n), (16, 2 * ab)]

/-- Whether a lock is held by the named owner (R182). -/
def lockHeldBy (s : State) (n kind id : Nat) : Bool :=
  s.flag F.SEM_STAT_HELD n && s.fget F.SEM_OWNER_KIND n == kind && s.fget F.SEM_OWNER_ID n == id

/-- A lock free again with no owner. -/
def lockFree (s : State) (n : Nat) : State :=
  let s := (s.fset F.SEM_STAT_HELD n 0).fset F.SEM_STAT_COUNT n 1
  (s.fset F.SEM_OWNER_KIND n 0).fset F.SEM_OWNER_ID n 0

/-- The holder's own release clears ABANDONED (R182, R184). -/
def lockRelease (s : State) (n : Nat) : State := (s.lockFree n).fset F.SEM_STAT_ABANDONED n 0

/-- The release of a holder that is reset: ABANDONED and COUNT = 1 (R183). -/
def lockAbandon (s : State) (n : Nat) : State := (s.lockFree n).fset F.SEM_STAT_ABANDONED n 1

/-- The semaphores whose lock is held. -/
def heldLocks (s : State) : List Nat :=
  ((s.regs.filter (fun e => e.1 % 256 == Reg.SEM_STAT.ctorIdx)).map (fun e => e.1 / 256)).filter
    (fun n => s.flag F.SEM_STAT_HELD n)

/-- Every held lock whose owner meets `f` (kind, ID) released ABANDONED (R183). -/
def abandonWhere (s : State) (f : Nat → Nat → Nat → Bool) : State :=
  forEach (s.heldLocks.filter (fun n => f n (s.fget F.SEM_OWNER_KIND n) (s.fget F.SEM_OWNER_ID n)))
    (fun n s => s.lockAbandon n) s

/-- The ID of a host function's owner: 0 the PF, 1-8 a VF, as the owner of ring `r` (R179, R182). -/
def ringFn (s : State) (r : Nat) : Nat := if s.flag F.TRH_RING_CFG_OWNER r then r / 16 + 1 else 0

/-- The function of ring `r` as an ACCESS record numbers it (R262). -/
def ringFnOf (s : State) (r : Fin 128) : Fn :=
  if s.flag F.TRH_RING_CFG_OWNER r.val then .vf ⟨r.val / 16, by omega⟩ else .pf

/-- The recorded owner of a requester (R179, R182); kinds 1 tile program, 2 Stay instance, 3 partition, 4 host function. -/
def lockOwner (s : State) (w : Waiter) : Nat × Nat :=
  match w.who with
  | .tile t => (1, t)
  | .stay t c => (2, t + 16 * c + 32 * (s.stay t c).inst)
  | .ingress => (0, 0)
  | .cmd r _ => if w.ownerSel = 1 then (3, r / 16) else (4, s.ringFn r)

/-- Whether the waiter at the head can be satisfied now (R180-R182). -/
def waiterReady (s : State) (n : Nat) (w : Waiter) : Bool :=
  if w.acquire then !(s.flag F.SEM_STAT_HELD n) else decide (w.n ≤ s.fget F.SEM_STAT_COUNT n)

/-- A waiter's request satisfied: the count taken, or the lock with its owner (R180, R182). -/
def waiterTake (s : State) (n : Nat) (w : Waiter) : State :=
  if w.acquire then s.lockTake n (s.lockOwner w).1 (s.lockOwner w).2 else s.semTake n w.n

/-- A WAIT or ACQUIRE: satisfied at once when nothing waits before it, otherwise queued (R181). -/
def semRequest (s : State) (n : Nat) (w : Waiter) : Bool × State :=
  if (s.semWaiters n).isEmpty && s.waiterReady n w then (true, s.waiterTake n w)
  else (false, s.setSemWaiters n (s.semWaiters n ++ [w]))

/-- The waits of the requesters that meet `f` end: they leave every queue (R257 step 2, R278). -/
def dropWaiters (s : State) (f : Requester → Bool) : State :=
  { s with waiters := (s.waiters.map (fun e => (e.1, e.2.filter (fun w => !(f w.who))))).filter (fun e => e.2 ≠ []) }

/-- A signal with no command status of its own (ingress SEM_EN, the SIGNAL flag): adds 1; on a lock-mode semaphore it
is discarded and recorded with CAUSE 4 and its number, on one not in use or of another partition with CAUSE 3 and the offset
of its SEM_CFG (R180, R262; log entry 29). -/
def signalFree (s : State) (unit part n p : Nat) : State :=
  if !(s.semOk n p) then
    s.fault { cls := 1, part := part, unit := unit, cause := 3, info0 := BitVec.ofNat 64 (regOffset .SEM_CFG n) }
  else if s.semLock n then
    s.fault { cls := 1, part := part, unit := unit, cause := 4, info0 := BitVec.ofNat 64 n }
  else s.semAdd n 1

end Sys2Proof.Machine.State
end

