-- ==== Sys2Proof/Machine/Mem.lean ====
section
/-! DEFINITION. The data paths: HBM frames, grants, poison and remote nodes (R17-R20, R28, R29, R245, R283-R289), Deck
slots, regions and tags (R173-R176), host memory regions (R128-R130), and their charging (R21, R239). -/

namespace Sys2Proof.Machine

/-- The outcome of an access: 0 done, a status of R145, or `waiting` when it must be tried again later. -/
def waiting : Nat := 0xFFFF

namespace State

/-! HBM -/

/-- This device's node number (R18, R287). -/
def node (s : State) : Nat := s.fget F.CW_NODE_ID 0

/-- Whether local frame `f` is granted to partition `p` (R245). -/
def granted (s : State) (p f : Nat) : Bool :=
  (List.range 4).any (fun k =>
    let a := s.fget F.TG_FRAMES_FIRST (4 * p + k)
    decide (a ≤ f) && decide (f < a + s.fget F.TG_FRAMES_COUNT (4 * p + k)))

/-- The partition a local frame is granted to (R245). -/
def frameOwner (s : State) (f : Nat) : Option Nat := (List.range 8).find? (fun p => s.granted p f)

/-- Whether the pseudo-channel of frame `f` is in service (R19, R284). -/
def frameIn (s : State) (f : Nat) : Bool := !(s.flag F.FLT_PC_RETIRED (f % 64))

/-- The mask of retired pseudo-channels that this device publishes (R289). -/
def retiredMask (s : State) : W64 :=
  BitVec.ofNat 64 (((List.range 64).map (fun c => if s.flag F.FLT_PC_RETIRED c then 2 ^ c else 0)).sum)

/-- The frames that `n` bytes from offset `o` touch (R19). -/
def framesOf (o n : Nat) : List Nat :=
  (List.range ((o + n - 1) / 0x200000 + 1 - o / 0x200000)).map (fun i => o / 0x200000 + i)

/-- Whether a range lies in one enabled grant entry of `p` for node `nd`, outside the peer's retired channels (R289). -/
def remoteOk (s : State) (p nd : Nat) (fs : List Nat) : Bool :=
  (List.range 64).any (fun i =>
    s.flag F.CW_GRANT_EN i && s.fget F.CW_GRANT_PART i == p && s.fget F.CW_GRANT_NODE i == nd &&
      fs.all (fun f => decide (s.fget F.CW_GRANT_FIRST i ≤ f) &&
        decide (f < s.fget F.CW_GRANT_FIRST i + s.fget F.CW_GRANT_COUNT i))) &&
    fs.all (fun f => !(natBit (tabGet 0#64 s.peerMasks nd).toNat (f % 64)))

/-- The KIND 1 bounds check: 0, or 0x0201 (R17, R18, R129, R245, R289). -/
def hbmCheck (s : State) (p a n : Nat) : Nat :=
  let nd := a / 2 ^ 36
  let fs := framesOf (a % 2 ^ 36) n
  if 2 ^ 39 ≤ a ∨ (a + n - 1) / 2 ^ 36 ≠ nd ∨ !(natBit (s.fget F.CW_NODE_MEMBERS 0) nd) then 0x0201
  else if nd = s.node then
    if fs.all (fun f => s.granted p f && s.frameIn f) then 0 else 0x0201
  else if s.remoteOk p nd fs then 0 else 0x0201

/-- The links that carry traffic to a node now: direct ones, else those to the transit device of its route (R294). -/
def linksTo (s : State) (nd : Nat) : List Nat :=
  let act := (List.range 8).filter (fun l => s.fget F.CW_LINK_STAT_STATE l == 3)
  let direct := act.filter (fun l => s.fget F.CW_LINK_STAT_PEER_NODE l == nd)
  if direct.isEmpty then act.filter (fun l => s.fget F.CW_LINK_STAT_PEER_NODE l == Config.routeOf nd) else direct

/-- 256 B blocks counted for each frame of an HBM access (R321). -/
def countBlocks (s : State) (code p o n : Nat) : State :=
  forEach (framesOf o n) (fun f s =>
    let a := max o (f * 0x200000)
    let e := min (o + n) ((f + 1) * 0x200000)
    s.count (code + f % 64) none (some p) ((e - 1) / 256 + 1 - a / 256)) s

/-- A POISON_READ record of the frame that holds address `a` (R262). -/
def poisonFault (s : State) (cause action p a rt : Nat) : State :=
  let f := a % 2 ^ 36 / 0x200000
  s.fault { cls := 4, action := action, part := p, unit := f % 64, cause := cause, info0 := BitVec.ofNat 64 a,
            info1 := BitVec.ofNat 32 f, ringTag := rt }

/-- Bytes of no stated value: a peer's, to this device (log entry 30), or undefined ones (log entry 7). -/
def freeBytes (s : State) : Nat → List Byte × State
  | 0 => ([], s)
  | n + 1 =>
    let (v, s) := s.draw
    let (bs, s) := s.freeBytes n
    (v.setWidth 8 :: bs, s)

/-- The link a transfer takes: the first minimal one whose request lane has credits, else the first (R292, R294, R295). -/
def linkFor (s : State) (nd : Nat) : Option Nat := ((s.linksTo nd).find? (fun l => !(s.laneDry (2 * l)))).or (s.linksTo nd).head?

/-- Credits taken on a lane of a link; a frame that passes ends the link's run of replays (R291, R292). -/
def laneUse (s : State) (l lane k : Nat) : State :=
  { s with credits := tabSet 0 s.credits (2 * l + lane) (used s.credits (2 * l + lane) + k), replays := tabSet 0 s.replays l 0 }

/-- The blocks of a remote transfer: requests against the request lane's credits, and the block counts of its link (R290,
R292, R295). -/
def linkUse (s : State) (nd n : Nat) (received : Bool) : State :=
  match s.linkFor nd with
  | none => s
  | some l =>
    let k := ceilDiv n 256
    let s := s.laneUse l 0 k
    let s := if received then s else s.fadd F.CW_LINK_CNT_BLOCKS l k
    s.count ((if received then 0x108 else 0x100) + l) none none k

/-- A message to a node of the pool (R288, R289). -/
def toPool (s : State) (nd : Nat) (m : PoolMsg) : State := s.emit (.pool nd m)

/-- The record of a transfer whose node has no path left (R29, R262). -/
def noPath (s : State) (p nd rt : Nat) : State :=
  s.fault { cls := 5, action := 0, part := p, unit := 0, cause := 4, info0 := BitVec.ofNat 64 nd, ringTag := rt }

/-- Whether a link of some path to the node, direct or by its transit device, may still come back (R29, R291, R294). -/
def pathPending (s : State) (nd : Nat) : Bool :=
  (List.range 8).any (fun l => s.fget F.CW_LINK_STAT_STATE l == 4 &&
    (s.fget F.CW_LINK_STAT_PEER_NODE l == nd || s.fget F.CW_LINK_STAT_PEER_NODE l == Config.routeOf nd))

/-- A peer's answer to the next request: served, refused with 0x0201, or, for a read, poisoned with 0x0500 (R28, R288, R299);
it is the peer's own, a free value (log entry 30). -/
def peerAnswer (s : State) (read : Bool) : Nat × State :=
  (if Config.peerRefuses s.draws then 0x0201 else if read && Config.peerPoisoned s.draws then 0x0500 else 0,
    { s with draws := s.draws + 1 })

/-- A remote read: the request leaves, and the peer returns bytes, a refusal or a poisoned frame; the frame it names is free
among those of the range (R20, R28, R288, R299; log entry 30). -/
def remoteRead (s : State) (p cause rt a n : Nat) : Nat × List Byte × State :=
  let nd := a / 2 ^ 36
  let o := a % 2 ^ 36
  let (st, s) := (s.toPool nd (.read a n)).peerAnswer true
  if st = 0x0500 then
    let (v, s) := s.draw
    let f := o / 0x200000 + v.toNat % (framesOf o n).length
    (st, [], s.poisonFault cause (if cause = 1 then 3 else 0) p (nd * 2 ^ 36 + max o (f * 0x200000)) rt)
  else if st ≠ 0 then (st, [], s)
  else
    let (bs, s) := s.freeBytes n
    (0, bs, (s.charge p 1 n).linkUse nd n true)

/-- A request that changes a peer's memory: it leaves with its data, and is done or refused there (R20, R288, R297). -/
def remoteWrite (s : State) (p nd n : Nat) (m : PoolMsg) : Nat × State :=
  let (st, s) := (s.toPool nd m).peerAnswer false
  if st ≠ 0 then (st, s) else (0, (s.charge p 1 n).linkUse nd n false)

/-- The sequence number of the next remote atomic (R298). -/
def nextSeq (s : State) : Nat × State := (s.atomicSeq, { s with atomicSeq := (s.atomicSeq + 1) % 2 ^ 64 })

/-- A request to another node, by the paths there are: `f` once a link carries traffic, waiting while one may come back, else
0x0502 with its record (R29, R285). -/
def remotely {α : Type} (s : State) (p rt nd : Nat) (fail : Nat → State → α) (f : State → α) : α :=
  if (s.linksTo nd).isEmpty then
    if s.pathPending nd then fail waiting s else fail 0x0502 (s.noPath p nd rt)
  else f s

/-- A read of device memory for partition `p`: whole or nothing (R28, R284); `cause` and `rt` for a POISON_READ record. -/
def hbmRead (s : State) (p cause rt a n : Nat) : Nat × List Byte × State :=
  let nd := a / 2 ^ 36
  let o := a % 2 ^ 36
  if nd = s.node then
    if (framesOf o n).any (fun f => !(s.frameIn f)) then (0x0500, [], s)
    else match (framesOf o n).find? (fun f => s.poisoned.contains f) with
      | some f =>
        (0x0500, [], s.poisonFault cause (if cause = 1 then 3 else 0) p (nd * 2 ^ 36 + max o (f * 0x200000)) rt)
      | none => (0, memRead s.hbm o n, (s.charge p 0 n).countBlocks 0x040 p o n)
  else s.remotely p rt nd (fun st s => (st, [], s)) (fun s => s.remoteRead p cause rt a n)

/-- A write of device memory for partition `p` (R283, R284). A remote write changes the peer's memory (R20). -/
def hbmWrite (s : State) (p rt a : Nat) (bs : List Byte) : Nat × State :=
  let nd := a / 2 ^ 36
  let o := a % 2 ^ 36
  let n := bs.length
  if nd = s.node then
    if (framesOf o n).any (fun f => !(s.frameIn f)) then (0x0500, s)
    else
      let s := (s.charge p 0 n).countBlocks 0x080 p o n
      (0, { s with hbm := memWrite s.hbm o bs })
  else s.remotely p rt nd Prod.mk (fun s => s.remoteWrite p nd n (.write a bs))

/-! Decks -/

/-- The index of region `g` of tile `t` (R174). -/
def rgnIdx (t g : Nat) : Nat := 16 * t + g

/-- Whether `n` slots from `slot` of the Deck of `t` lie in enabled region `g` (R173; slots of a Deck, log entry 31). -/
def inRegion (s : State) (t g slot n : Nat) : Bool :=
  let i := rgnIdx t g
  s.flag F.DK_RGN_CFG_EN i && decide (s.fget F.DK_RGN_CFG_BASE i ≤ slot) &&
    decide (slot + n ≤ s.fget F.DK_RGN_CFG_BASE i + s.fget F.DK_RGN_CFG_COUNT_M1 i + 1)

/-- Whether region `g` of tile `t` is TAGGED (R174). -/
def tagged (s : State) (t g : Nat) : Bool := s.flag F.DK_RGN_CFG_MODE (rgnIdx t g)

/-- The key of a slot's tag. -/
def slotKey (t slot : Nat) : Nat := 32768 * t + slot

/-- A slot's tag: full or empty (R173). -/
def isFull (s : State) (t slot : Nat) : Bool := tabGet false s.full (slotKey t slot)

/-- A slot's tag set. -/
def setFull (s : State) (t slot : Nat) (v : Bool) : State := { s with full := tabSet false s.full (slotKey t slot) v }

/-- The tags of `n` slots set. -/
def setFulls (s : State) (t slot n : Nat) (v : Bool) : State := forEach (List.range n) (fun i s => s.setFull t (slot + i) v) s

/-- The byte address of byte `o` of a slot in the Deck memory: 8 MiB a tile, 256 B a slot (R173). -/
def deckAddr (t slot o : Nat) : Nat := t * 0x800000 + slot * 256 + o

/-- Bytes read from a Deck. -/
def deckRead (s : State) (t slot o n : Nat) : List Byte := memRead s.deck (deckAddr t slot o) n

/-- Bytes written into a Deck. -/
def deckWrite (s : State) (t slot o : Nat) (bs : List Byte) : State :=
  { s with deck := memWrite s.deck (deckAddr t slot o) bs }

/-- The enabled region of a tile that holds a slot (R173). -/
def regionOf (s : State) (t slot : Nat) : Option Nat := (List.range 16).find? (fun g => s.inRegion t g slot 1)

/-- A region fed from outside the tile programs: by host DMA, by ingress, by a peer, or by a command's kernel (R277). -/
def feedOut (s : State) (t g : Nat) : State := if s.tagged t g then { s with fedOut := tabSet false s.fedOut (rgnIdx t g) true } else s

/-! Buffers (R128-R130) -/

/-- The slot, tile and region of a KIND 2 address (R128). -/
def bufSlot (d : BufDesc) : Nat := natBits d.addr 0 15
def bufTile (d : BufDesc) : Nat := natBits d.addr 16 4
def bufRgn (d : BufDesc) : Nat := natBits d.addr 20 4

/-- Step 8 of R126 for a buffer: a Deck of another partition (log entry 45). -/
def bufPart (s : State) (p : Nat) (d : BufDesc) : Nat :=
  if d.kind ≤ 1 then 0 else match s.tileOwner (bufTile d) with
    | some q => if q ≠ p then 0x0400 else 0
    | none => 0

/-- Step 9 of R126, the bounds check of R129; `write` is the direction, `none` either. -/
def bufBounds (s : State) (p : Nat) (d : BufDesc) (write : Option Bool) : Nat :=
  match d.kind with
  | 0 =>
    let m := s.mr p d.mr
    let ok := match write with | some w => natBit m.access (if w then 1 else 0) | none => true
    if !(m.live && ok) then 0x0202 else if d.addr + d.count ≤ m.len then 0 else 0x0200
  | 1 => s.hbmCheck p d.addr d.count
  | _ => if s.owns p (bufTile d) && s.inRegion (bufTile d) (bufRgn d) (bufSlot d) (ceilDiv d.count 256) then 0 else 0x0200

/-- Step 10 of R126 for a buffer: the Deck of a retired tile. -/
def bufTileIn (s : State) (d : BufDesc) : Nat := if 2 ≤ d.kind ∧ s.retired (bufTile d) then 0x0300 else 0

/-- The first check that fails, or 0 (R126). -/
def firstBad (sts : List Nat) : Nat := (sts.find? (· != 0)).getD 0

/-- Steps 8 to 10 of R126 for the buffers of a packet, each with its direction, step by step. -/
def bufsCheck (s : State) (p : Nat) (bs : List (BufDesc × Option Bool)) : Nat :=
  firstBad [firstBad (bs.map (fun b => s.bufPart p b.1)), firstBad (bs.map (fun b => s.bufBounds p b.1 b.2)),
    firstBad (bs.map (fun b => s.bufTileIn b.1))]

/-- Steps 8 to 10 of R126 for one buffer. -/
def bufCheck (s : State) (p : Nat) (d : BufDesc) (write : Option Bool) : Nat := s.bufsCheck p [(d, write)]

/-- The buffers of a command where its check stands: all steps at fetch; once they have passed, the tiles alone, since a handle
that a command has passed with stays good for it (R126, R133). -/
def bufsOk (s : State) (c : Cmd) (bs : List (BufDesc × Option Bool)) : Nat :=
  if c.checked then firstBad (bs.map (fun b => s.bufTileIn b.1)) else s.bufsCheck c.part bs

/-- The slots of a KIND 2 buffer from byte `o` that are ready for a read (full) or a write (empty) now (R130). -/
def bufReady (s : State) (d : BufDesc) (o : Nat) (write : Bool) : Nat :=
  if d.kind = 2 ∧ s.tagged (bufTile d) (bufRgn d) then
    let n := ceilDiv (d.count - o) 256
    min (d.count - o)
      (256 * ((List.range n).takeWhile (fun i => s.isFull (bufTile d) (bufSlot d + o / 256 + i) != write)).length)
  else d.count - o

/-- `n` bytes read from byte `o` of a buffer, charged; a TAGGED slot read is tagged empty (R21, R130). -/
def bufRead (s : State) (p rt cause : Nat) (d : BufDesc) (o n : Nat) : Nat × List Byte × State :=
  match d.kind with
  | 0 => (0, memRead s.host ((s.mr p d.mr).base + d.addr + o) n, s.charge p 3 n)
  | 1 => s.hbmRead p cause rt (d.addr + o) n
  | _ =>
    let t := bufTile d
    let slot := bufSlot d + o / 256
    let bs := s.deckRead t slot 0 n
    (0, bs, if s.tagged t (bufRgn d) then s.setFulls t slot (ceilDiv n 256) false else s)

/-- Bytes written at byte `o` of a buffer, charged; a TAGGED slot written is tagged full (R21, R130). -/
def bufWrite (s : State) (p rt : Nat) (d : BufDesc) (o : Nat) (bs : List Byte) : Nat × State :=
  match d.kind with
  | 0 =>
    let a := (s.mr p d.mr).base + d.addr + o
    (0, ({ s with host := memWrite s.host a bs }).charge p 4 bs.length)
  | 1 => s.hbmWrite p rt (d.addr + o) bs
  | _ =>
    let t := bufTile d
    let slot := bufSlot d + o / 256
    let s := (s.deckWrite t slot 0 bs).charge p 2 bs.length
    (0, if s.tagged t (bufRgn d) then (s.setFulls t slot (ceilDiv bs.length 256) true).feedOut t (bufRgn d) else s)

/-- An output buffer left undefined: each of its bytes in this device's reach takes a free value (R149, R154; log entry 7). -/
def undefBuf (p : Nat) (d : BufDesc) (s : State) : State :=
  let (bs, t) := s.freeBytes d.count
  match d.kind with
  | 0 => if (s.mr p d.mr).len = 0 then s else { t with host := memWrite t.host ((t.mr p d.mr).base + d.addr) bs }
  | 1 => if d.addr / 2 ^ 36 = t.node then { t with hbm := memWrite t.hbm (d.addr % 2 ^ 36) bs } else t
  | _ => t.deckWrite (bufTile d) (bufSlot d) 0 bs

end State
end Sys2Proof.Machine
end

