-- ==== Sys2Proof/Machine/Operands.lean ====
section
/-! DEFINITION. Tile instructions and their operands: the fields of R161, operand descriptors (R162), elements in a
Deck (R162, R214, R370), scale entries (R221), tag needs of operands (R168, R176) and the output digest (R305). -/

namespace Sys2Proof.Machine

/-! Instruction fields (R161) -/

/-- Bits `lo` to `lo + w - 1` of an instruction. -/
def insF (i : W128) (lo w : Nat) : Nat := natBits i.toNat lo w

def iOp (i : W128) : Nat := insF i 0 8
def iMk (i : W128) : Bool := natBit i.toNat 8
def iSpanEnd (i : W128) : Bool := natBit i.toNat 9
def iWaitEn (i : W128) : Bool := natBit i.toNat 10
def iSigEn (i : W128) : Bool := natBit i.toNat 11
def iLayerEnd (i : W128) : Bool := natBit i.toNat 12
def iDst (i : W128) : Nat := insF i 16 8
def iSrc0 (i : W128) : Nat := insF i 24 8
def iSrc1 (i : W128) : Nat := insF i 32 8
def iAux (i : W128) : Nat := insF i 40 8
def iScale (i : W128) : Nat := insF i 48 12
def iFmtOut (i : W128) : Nat := insF i 60 4
def iWsem (i : W128) : Nat := insF i 64 13
def iSsem (i : W128) : Nat := insF i 77 13
def iP8 (i : W128) : Nat := insF i 90 8
def iImm (i : W128) : Nat := insF i 98 30

/-- The opcodes of R164. -/
def tileOps : List Nat :=
  [0x01, 0x02, 0x03, 0x04, 0x05, 0x06, 0x08, 0x09, 0x0A, 0x0B, 0x0C, 0x0D, 0x0E, 0x0F, 0x10, 0x11, 0x12, 0x14, 0x18,
    0x19, 0x1A, 0x1B, 0x20, 0x21, 0x28, 0x2F]

/-- The marked opcodes of R164. -/
def markedOp (o : Nat) : Bool := [0x0A, 0x0C, 0x0D, 0x0F].contains o

/-- The opcodes whose unit in R164 is Girder or Vector. -/
def arithOp (o : Nat) : Bool := [0x01, 0x02, 0x03, 0x04, 0x05, 0x06, 0x08, 0x09, 0x0A, 0x0B, 0x0E, 0x0F, 0x14].contains o

/-- Whether a kernel accepts a lock (R171). -/
def lockKernel (k : Nat) : Bool := k == 0x20 || k == 0x21 || k == 0x22

/-- The lock that a STAY_INVOKE's kernel takes (R171; log entry 12). -/
def kernLock (i : W128) : Option Nat :=
  if iOp i = 0x20 ∧ lockKernel (iP8 i) then (Config.invokeLock i).map (· % 8192) else none

/-- Commit class (R164, R167): the listed opcodes, and a STAY_INVOKE whose kernel takes a lock; no kernel writes outside its
own tile's Deck (R171). -/
def commitClass (i : W128) : Bool :=
  [0x0C, 0x0D, 0x11, 0x12, 0x19, 0x1B, 0x2F].contains (iOp i) || (kernLock i).isSome

/-- Whether a WINDOW or DEPTHWISE runs in its FINAL phase (R196, R197). -/
def isFinal (i : W128) : Bool := (iOp i == 0x02 || iOp i == 0x03) && natBits (iP8 i) 0 2 == 3

/-- The descriptor an instruction's result goes to (R196, R216, R304). -/
def outIdx (i : W128) : Nat := if isFinal i then iDst i + 1 else iDst i

/-! Operand descriptors (R162) -/

/-- An operand descriptor. -/
structure Opd where
  region : Nat := 0
  tagmode : Nat := 0
  fmt : Nat := 0
  dyn : Nat := 0
  slot : Nat := 0
  nslots : Nat := 0
  dims : List Nat := []
  strides : List Nat := []
  deriving DecidableEq, Repr, Inhabited

/-- The 32 bytes of a descriptor (R162). -/
def parseOpd (b : List Byte) : Opd :=
  let f := leField b
  { region := f 0 1, tagmode := f 1 1, fmt := f 2 1, dyn := f 3 1, slot := f 4 2, nslots := f 6 2
    dims := (List.range 4).map (fun k => f (8 + 2 * k) 2), strides := (List.range 4).map (fun k => f (16 + 4 * k) 4) }

/-- Descriptor `k` of an image; 0xFF names none (R161). -/
def Image.opd (im : Image) (k : Nat) : Option Opd :=
  if k = 0xFF then none else (im.operands[k]?).map parseOpd

/-- The dimensions with the run-time ones of the run filled in (R135, R162). -/
def Opd.bind (o : Opd) (dims : List Nat) : Opd :=
  { o with dims := o.dims.zipIdx.map (fun (d, k) => if natBit o.dyn k then dims.getD (d % 4) 0 else d) }

/-- The bits of one element: 64 in a ring image (R213, R370). -/
def elemBits (ring : Bool) (fmt : Nat) : Nat := if ring then 64 else fmtBits fmt

/-- A resolved operand: its tile, the byte of its first element in the Deck, its element width and its shape. -/
structure View where
  tile : Nat := 0
  base : Nat := 0
  fmt : Nat := 0
  bits : Nat := 32
  dims : List Nat := []
  strides : List Nat := []
  deriving DecidableEq, Repr, Inhabited

/-- Dimension `k`. -/
def View.dim (v : View) (k : Nat) : Nat := v.dims.getD k 1

/-- The number of elements. -/
def View.count (v : View) : Nat := v.dim 0 * v.dim 1 * v.dim 2 * v.dim 3

/-- The index of element `n`, DIM0 fastest (R305). -/
def View.index (v : View) (n : Nat) : Nat × Nat × Nat × Nat :=
  (n % v.dim 0, n / v.dim 0 % v.dim 1, n / v.dim 0 / v.dim 1 % v.dim 2, n / v.dim 0 / v.dim 1 / v.dim 2)

/-- The place of an element: byte in the Deck and bit in that byte (R162, R214). -/
def View.place (v : View) (x : Nat × Nat × Nat × Nat) : Nat × Nat :=
  let s := fun k => v.strides.getD k 0
  let row := v.base + x.2.1 * s 1 + x.2.2.1 * s 2 + x.2.2.2 * s 3
  if v.bits < 8 then (row + x.1 * v.bits / 8, x.1 * v.bits % 8) else (row + x.1 * s 0, 0)

namespace State

/-- Bytes of one Deck from byte `a` (R173). -/
def deckGet (s : State) (t a n : Nat) : List Byte :=
  (List.range n).map (fun i => memGet s.deck (deckAddr t 0 ((a + i) % 0x800000)))

/-- Bytes put into one Deck from byte `a`. -/
def deckPut (s : State) (t a : Nat) (bs : List Byte) : State :=
  { s with deck := bs.zipIdx.foldl (fun m (b, i) => memSet m (deckAddr t 0 ((a + i) % 0x800000)) b) s.deck }

/-- The code of an element. -/
def elem (s : State) (v : View) (x : Nat × Nat × Nat × Nat) : Nat :=
  let (a, b) := v.place x
  leNat (s.deckGet v.tile a (if v.bits < 8 then 2 else v.bits / 8)) / 2 ^ b % 2 ^ v.bits

/-- An element written. -/
def putElem (s : State) (v : View) (x : Nat × Nat × Nat × Nat) (c : Nat) : State :=
  let (a, b) := v.place x
  let n := if v.bits < 8 then 2 else v.bits / 8
  let old := leNat (s.deckGet v.tile a n)
  let cut := old / 2 ^ b % 2 ^ v.bits
  s.deckPut v.tile a (leBytes n (old - cut * 2 ^ b + c % 2 ^ v.bits * 2 ^ b))

/-- The codes of an operand in storage order, DIM0 fastest. -/
def elems (s : State) (v : View) : List Nat := (List.range v.count).map (fun n => s.elem v (v.index n))

/-- Codes written to an operand in that order. -/
def putElems (s : State) (v : View) (cs : List Nat) : State :=
  cs.zipIdx.foldl (fun s (c, n) => s.putElem v (v.index n) c) s

/-- The first byte of an operand's slots: its region's BASE and its SLOT (R162, R174). -/
def opdBase (s : State) (t : Nat) (o : Opd) : Nat := (s.fget F.DK_RGN_CFG_BASE (rgnIdx t o.region) + o.slot) * 256

/-- An operand of tile `t` resolved. -/
def view (s : State) (t : Nat) (ring : Bool) (o : Opd) : View :=
  { tile := t, base := s.opdBase t o, fmt := o.fmt, bits := elemBits ring o.fmt, dims := o.dims, strides := o.strides }

/-- The slots of an operand, absolute in its Deck. -/
def opdSlots (s : State) (t : Nat) (o : Opd) : List Nat :=
  (List.range o.nslots).map (fun k => s.opdBase t o / 256 + k)

/-! Scale entries (R221) -/

/-- Entry `n` of the scale register file of tile `t`. -/
def scaleEntry (s : State) (t n : Nat) : W128 := tabGet 0#128 s.scales (4096 * t + n)

end State

/-- SCALE, BIAS and ZP of an entry (R221). -/
def entScale (e : W128) : W32 := e.setWidth 32
def entBias (e : W128) : W32 := (e >>> 32).setWidth 32
def entZp (e : W128) : Int := toSigned 16 (natBits e.toNat 64 16)

/-! The digest of an output (R305) -/

/-- The constants K1 and K2 of R305. -/
def digK1 : W64 := 0x9E3779B97F4A7C15#64
def digK2 : W64 := 0xFF51AFD7ED558CCD#64

/-- The contribution of one word. -/
def digWord (w : W64) (i : Nat) : W64 :=
  let x := w + BitVec.ofNat 64 i * digK1
  let x := (x ^^^ (x >>> 33)) * digK2
  x ^^^ (x >>> 29)

/-- The bytes of an output: its elements without strides, packed (R214, R305). -/
def packCodes (bits : Nat) (cs : List Nat) : List Byte :=
  leBytes (ceilDiv (bits * cs.length) 8) (State.packFields (cs.map (fun c => (bits, c))))

/-- DIGEST of a byte sequence (R305). -/
def digestOf (bs : List Byte) : W64 :=
  (List.range (ceilDiv bs.length 8)).foldl (fun dg i => dg + digWord (BitVec.ofNat 64 (leField bs (8 * i) 8)) i) 0#64 ^^^
    BitVec.ofNat 64 bs.length

end Sys2Proof.Machine
end

