-- ==== Sys2Proof/Machine/Parse.lean ====
section
/-! DEFINITION. Trehar packets: header, length rules, parameters and the checks that need the packet alone
(R124, R126 steps 1-5 and 8, R128, R131). -/

namespace Sys2Proof.Machine

/-- A packet's parameters with the verdicts of step 8 that need only the packet: reserved fields 0 (0x0104), byte counts
(0x0106), dimensions (0x0107), other fields (0x0108), in that order (R126). -/
structure Parsed where
  resv : Bool := true
  counts : Bool := true
  dims : Bool := true
  field : Bool := true
  cmd : TCmd := .nop

/-- The first failing check of step 8, or 0 (R126). -/
def Parsed.status (p : Parsed) : Nat :=
  if !p.resv then 0x0104 else if !p.counts then 0x0106 else if !p.dims then 0x0107 else if !p.field then 0x0108 else 0

/-- A buffer descriptor at byte `o` (R128). -/
def parseBuf (b : List Byte) (o : Nat) : BufDesc :=
  { addr := leField b o 8, count := leField b (o + 8) 4, mr := leField b (o + 12) 2, kind := leField b (o + 14) 1 }

/-- A descriptor's reserved byte is 0 (R128). -/
def bufResv (b : List Byte) (o : Nat) : Bool := allZero b (o + 15) 1

/-- A byte count is neither 0 nor 0xFFFFFFFF (R126, R128). -/
def bufCount (d : BufDesc) : Bool := d.count != 0 && d.count != 0xFFFFFFFF

/-- A descriptor's KIND, MR and unused address bits, and the slot boundaries of a Deck range (R128, R129). -/
def bufField (d : BufDesc) : Bool :=
  match d.kind with
  | 0 => decide (1 ≤ d.mr) && decide (d.mr ≤ 255)
  | 1 => d.mr == 0
  | 2 => d.mr == 0 && d.addr / 2 ^ 24 == 0 && natBits d.addr 15 1 == 0 && d.count % 256 == 0
  | _ => false

/-- The parameter block of a kernel: its fixed bytes, its bytes for each loop or output, and the most of those (R171). -/
def kernelForm : Nat → Option (Nat × Nat × Nat)
  | 0x01 => some (48, 0, 0)
  | 0x02 => some (24, 0, 0)
  | 0x03 => some (40, 0, 0)
  | 0x10 => some (24, 0, 0)
  | 0x11 => some (32, 0, 0)
  | 0x20 => some (24, 48, 16)
  | 0x21 => some (88, 0, 0)
  | 0x22 => some (24, 16, 32)
  | 0x30 => some (32, 0, 0)
  | 0x31 => some (32, 0, 0)
  | 0x32 => some (24, 0, 0)
  | _ => none

/-- The loops or outputs that a parameter block states: at least 1, at most the kernel's most (R171; log entry 12). -/
def kernelUnits (k most : Nat) (p : List Byte) : Nat := 1 + Config.kernelCount k (p.take 24) % most

/-- The bytes of the parameter block that begins with `p` (R171, R172). -/
def kernelBytes (k : Nat) (p : List Byte) : Option Nat :=
  (kernelForm k).map (fun (n, each, most) => if most = 0 then n else n + each * kernelUnits k most p)

/-- The slots of a STAY_CALL whose parameter block has `n` bytes (R172). -/
def stayLen (n : Nat) : Nat := if n ≤ 24 then 1 else 1 + ceilDiv (n - 24) 64

/-- The opcodes of R131. -/
def knownOpc (o : Nat) : Bool :=
  [0x00, 0x01, 0x02, 0x08, 0x10, 0x11, 0x12, 0x18, 0x20, 0x28, 0x29, 0x30, 0x31, 0x32, 0x38, 0x39, 0x40, 0x41, 0x48,
    0x50, 0x51, 0x52, 0x58, 0x60, 0x68].contains o

/-- The opcodes restricted to the physical function (R131); TRC_CFG follows R317. -/
def pfOnly (o : Nat) : Bool := [0x32, 0x40, 0x41, 0x48].contains o

/-- The opcode's rule for LEN, with the fields of the packet it depends on (R126 step 4, R131 and each command). -/
def lenOk (b : List Byte) (opc len : Nat) : Bool :=
  let f := leField b
  match opc with
  | 0x11 => decide (2 ≤ len) && decide (len ≤ 17) && len == 1 + ceilDiv (f 0x26 1) 4
  | 0x18 =>
    match kernelBytes (f 0x22 1) (b.drop 0x28) with
    | some n => len == stayLen n
    | none => decide (1 ≤ len) && decide (len ≤ 13)
  | 0x28 =>
    if natBits (f 0x24 4) 16 4 = 1 then decide (3 ≤ len) && decide (len ≤ 18) && len == 2 + ceilDiv (f 0x46 1) 4 else len == 1
  | 0x32 =>
    let n := f 0x23 1
    let bytes := if f 0x21 1 = 0 ∨ f 0x21 1 = 2 then 16 * n else 32 + 8 * n
    decide (2 ≤ len) && decide (len ≤ 10) && len == 1 + ceilDiv bytes 64
  | 0x40 => decide (2 ≤ len) && len == 1 + popCount (f 0x20 1) 8
  | 0x48 => len == 1 || len == 2
  | 0x51 =>
    match f 0x21 1 with
    | 0 => len == 2
    | 1 => len == 2
    | 8 => decide (len ≤ 3) && len == 1 + ceilDiv (f 0x23 1) 8
    | _ => len == 1
  | 0x68 => len == (if (f 0x20 1 = 0 ∧ f 0x21 1 = 1) ∨ f 0x20 1 = 1 then 2 else 1)
  | _ => len == 1

/-- The run parameters at byte `o`, with the buffers from byte `ob`; a packet of `len` slots in all (R135, R136). -/
def parseRun (b : List Byte) (o ob len : Nat) : Parsed × RunParams :=
  let f := leField b
  let n := f (o + 6) 1
  let bufs := (List.range n).map (fun i => parseBuf b (ob + 16 * i))
  let run : RunParams :=
    { prog := f o 4, tiles := f (o + 4) 2, dims := (List.range 4).map (fun k => f (o + 8 + 4 * k) 4), bufs := bufs }
  ({ resv := allZero b (o + 7) 1 && allZero b (o + 24) 8 && (List.range n).all (fun i => bufResv b (ob + 16 * i)) &&
       allZero b (ob + 16 * n) (64 * len - ob - 16 * n)
     counts := bufs.all bufCount
     field := decide (1 ≤ n) && decide (n ≤ 64) && bufs.all bufField }, run)

/-- MR_REGISTER (R132). -/
def parseMrRegister (b : List Byte) : Parsed :=
  let f := leField b
  { resv := allZero b 0x31 15
    field := f 0x20 8 % 4096 == 0 && f 0x28 8 % 4096 == 0 && decide (4096 ≤ f 0x28 8) && decide (f 0x28 8 ≤ 2 ^ 40) &&
      decide (1 ≤ f 0x30 1) && decide (f 0x30 1 ≤ 3)
    cmd := .mrRegister (f 0x20 8) (f 0x28 8) (f 0x30 1) }

/-- DMA_COPY: equal counts, and not two host descriptors (R134). -/
def parseDmaCopy (b : List Byte) : Parsed :=
  let src := parseBuf b 0x20
  let dst := parseBuf b 0x30
  { resv := bufResv b 0x20 && bufResv b 0x30
    counts := bufCount src && bufCount dst
    field := bufField src && bufField dst && src.count == dst.count && !(src.kind == 0 && dst.kind == 0)
    cmd := .dmaCopy src dst }

/-- PROG_LOAD: an image of KIND 1 (R187). -/
def parseProgLoad (b : List Byte) : Parsed :=
  let d := parseBuf b 0x20
  { resv := bufResv b 0x20 && allZero b 0x32 14, counts := bufCount d, field := bufField d && d.kind == 1
    cmd := .progLoad d (leField b 0x30 2) }

/-- STAY_CALL (R172). -/
def parseStayCall (b : List Byte) (len : Nat) : Parsed :=
  let f := leField b
  let l := f 0x24 2
  { resv := allZero b 0x23 1 && allZero b 0x26 2 && natBits l 13 2 == 0
    field := decide (f 0x20 1 < 16) && decide (f 0x21 1 ≤ 2) && (kernelForm (f 0x22 1)).isSome
    cmd := .stayCall (f 0x20 1) (f 0x21 1) (f 0x22 1) (natBits l 0 13) (natBit l 15) ((b.drop 0x28).take (64 * len - 0x28)) }

/-- SEM_OP (R180, R188). -/
def parseSemOp (b : List Byte) : Parsed :=
  let f := leField b
  let op := f 0x22 1
  { resv := natBits (f 0x20 2) 13 3 == 0 && allZero b 0x26 26
    field := decide (op ≤ 6) && (decide (op ≠ 3 ∧ op ≠ 4) || decide (f 0x23 1 ≤ 1)) &&
      (if op ≤ 2 then f 0x24 2 != 0 else f 0x24 2 == 0)
    cmd := .semOp (natBits (f 0x20 2) 0 13) op (f 0x23 1) (f 0x24 2) }

/-- ALARM_ARM (R136). -/
def parseAlarmArm (b : List Byte) (len : Nat) : Parsed :=
  let f := leField b
  let cfg := f 0x24 4
  let rel := f 0x30 1
  let (p, run) := if natBits cfg 16 4 = 1 then parseRun b 0x40 0x80 len else ({}, {})
  { p with
    resv := allZero b 0x21 3 && allZero b 0x31 15 && p.resv && (natBits cfg 16 4 != 1 || allZero b 0x60 32)
    field := p.field && (rel == 0 || (rel == 1 && natBits cfg 27 1 == 0))
    cmd := .alarmArm (f 0x20 1) (BitVec.ofNat 32 cfg) (BitVec.ofNat 32 (f 0x28 4)) (BitVec.ofNat 32 (f 0x2C 4))
      (rel == 1) run }

/-- DESC_ARM (R137). -/
def parseDescArm (b : List Byte) : Parsed :=
  let f := leField b
  { resv := allZero b 0x21 3 && allZero b 0x2C 4, field := decide (f 0x20 1 < 128)
    cmd := .descArm (f 0x20 1) (BitVec.ofNat 32 (f 0x24 4)) (BitVec.ofNat 32 (f 0x28 4)) (BitVec.ofNat 64 (f 0x30 8))
      (BitVec.ofNat 64 (f 0x38 8)) }

/-- A stream filter entry's zero bits (R140). -/
def filterOk (e : List Byte) : Bool :=
  natBits (leField e 6 2) 13 3 == 0 && decide (leField e 8 1 < 16) && decide (leField e 9 1 < 32) &&
    decide (leField e 10 1 < 16) && allZero e 11 5

/-- A flow meter entry's ranges (R140). -/
def meterOk (e : List Byte) : Bool :=
  decide (1 ≤ leField e 0 4) && decide (leField e 0 4 ≤ 25000) && decide (1518 ≤ leField e 4 4) &&
    decide (leField e 4 4 ≤ 1048576) && decide (leField e 8 1 < 2) && allZero e 9 7

/-- A gate list's ranges: CYCLE, INIT, entries of at least 64 ns that sum to CYCLE (R140). -/
def gateListOk (table n : Nat) (d : List Byte) : Bool :=
  let lim := if table = 1 then 2 else 256
  let cyc := leField d 4 4
  decide (1000 ≤ cyc) && decide (cyc ≤ 1000000000) && decide (leField d 8 1 < lim) && allZero d 9 23 &&
    (List.range n).all (fun i =>
      decide (leField d (32 + 8 * i) 1 < lim) && allZero d (33 + 8 * i) 3 && decide (64 ≤ leField d (36 + 8 * i) 4)) &&
    ((List.range n).map (fun i => leField d (36 + 8 * i) 4)).sum == cyc

/-- QCI_LOAD: a field out of range and a reserved field not 0 both give 0x0108 (R140). -/
def parseQciLoad (b : List Byte) (len : Nat) : Parsed :=
  let f := leField b
  let table := f 0x21 1
  let first := f 0x22 1
  let n := f 0x23 1
  let d := b.drop 64
  let used := if table = 0 ∨ table = 2 then 16 * n else 32 + 8 * n
  { field := allZero b 0x24 28 && decide (f 0x20 1 < 4) && decide (table ≤ 3) && decide (1 ≤ n) &&
      (match table with
       | 0 => decide (first + n ≤ 32) && (List.range n).all (fun i => filterOk (d.drop (16 * i)))
       | 2 => decide (first + n ≤ 32) && (List.range n).all (fun i => meterOk (d.drop (16 * i)))
       | 1 => decide (first < 16) && decide (n ≤ 64) && gateListOk 1 n d
       | _ => first == 0 && decide (n ≤ 64) && gateListOk 3 n d) && allZero d used (64 * len - 64 - used)
    cmd := .qciLoad (f 0x20 1) table first n (d.take used) }

/-- EXC_CMD (R141). -/
def parseExcCmd (b : List Byte) : Parsed :=
  let f := leField b
  let w := f 0x22 1 == 1
  { resv := natBits (f 0x22 1) 1 7 == 0 && allZero b 0x23 1 && allZero b 0x2C 20
    field := decide (f 0x20 1 < 4) && decide (f 0x21 1 ≤ 3) && (w || (f 0x24 4 == 0 && f 0x28 4 == 0))
    cmd := .excCmd (f 0x20 1) (f 0x21 1) w (BitVec.ofNat 32 (f 0x24 4)) (BitVec.ofNat 32 (f 0x28 4)) }

/-- DQ_SAFE_LOAD: with CLEAR the source is not checked and must be zero (R142). -/
def parseDqSafe (b : List Byte) : Parsed :=
  let clear := leField b 0x21 1 == 1
  let d := parseBuf b 0x30
  { resv := natBits (leField b 0x21 1) 1 7 == 0 && allZero b 0x22 14 && (clear || bufResv b 0x30)
    counts := clear || bufCount d
    field := decide (leField b 0x20 1 < 16) && (if clear then allZero b 0x30 16 else bufField d)
    cmd := .dqSafeLoad (leField b 0x20 1) clear d }

/-- One partition's slot of a TG_COMMIT, for partition `p` at byte `o` (R244, R247). -/
def parsePart (b : List Byte) (o p : Nat) : PartCfg :=
  { part := p, tiles := leField b o 2, rank := leField b (o + 2) 1
    cfg := (List.range 5).map (fun r => BitVec.ofNat 64 (leField b (o + 8 + 8 * r) 8))
    runs := (List.range 4).map (fun k => (natBits (leField b (o + 0x30 + 4 * k) 4) 0 15, leField b (o + 0x32 + 4 * k) 2)) }

/-- The field ranges of R247 for one partition: FLOOR ≤ RES ≤ CEIL, CEIL, BURST, RANK and run length. -/
def partOk (c : PartCfg) : Bool :=
  (c.cfg.zipIdx).all (fun (v, r) =>
    let res := getBits v 0 16
    let ceil := getBits v 16 16
    let burst := getBits v 48 16
    decide (getBits v 32 16 ≤ res) && decide (res ≤ ceil) && decide (1 ≤ ceil) && decide (ceil ≤ ceilReset r) &&
      decide (4 ≤ burst) && decide (burst ≤ 16384)) &&
    (if c.part = 0 then c.rank == 8 else decide (1 ≤ c.rank) && decide (c.rank ≤ 7)) &&
    c.runs.all (fun (a, n) => decide (n ≤ 32768) && decide (a + n ≤ 32768))

/-- TG_COMMIT (R244). -/
def parseTgCommit (b : List Byte) : Parsed :=
  let f := leField b
  let parts := (bitList (f 0x20 1) 8).zipIdx.map (fun (p, i) => parsePart b (64 + 64 * i) p)
  { resv := natBits (f 0x21 1) 1 7 == 0 && natBits (f 0x22 1) 3 5 == 0 && allZero b 0x23 29 &&
      (List.range parts.length).all (fun i => allZero b (64 + 64 * i + 3) 5 &&
        (List.range 4).all (fun k => natBits (leField b (64 + 64 * i + 0x30 + 4 * k) 4) 15 1 == 0))
    field := parts.all partOk
    cmd := .tgCommit (f 0x21 1 == 1) (natBits (f 0x22 1) 0 3) parts }

/-- TENANT_SWITCH: its own ring's partition `p` is refused (R131, R341). -/
def parseTenant (b : List Byte) (len ringPart : Nat) : Parsed :=
  let v := leField b 0x20 1
  let d := parseBuf b 64
  { resv := natBits v 3 5 == 0 && allZero b 0x21 31 && (len == 1 || (bufResv b 64 && allZero b 80 48))
    counts := len == 1 || bufCount d
    field := natBits v 0 3 != ringPart && (len == 1 || (bufField d && d.kind != 2 && d.count == 256))
    cmd := .tenantSwitch (natBits v 0 3) (if len = 1 then none else some d) }

/-- PART_RESET (R131, R257). -/
def parsePartReset (b : List Byte) (ringPart : Nat) : Parsed :=
  let v := leField b 0x20 1
  { resv := natBits v 3 5 == 0 && allZero b 0x21 31, field := natBits v 0 3 != ringPart
    cmd := .partReset (natBits v 0 3) }

/-- CS_CTX_OPEN (R355, R356). -/
def parseCsOpen (b : List Byte) : Parsed :=
  let f := leField b
  let d := parseBuf b 0x30
  { resv := allZero b 0x22 14 && bufResv b 0x30, counts := bufCount d
    field := decide (12 ≤ f 0x20 1) && decide (f 0x20 1 ≤ 16) && decide (1 ≤ f 0x21 1) && decide (f 0x21 1 ≤ 48) &&
      bufField d && d.kind != 2 && d.count == 16 * f 0x21 1
    cmd := .csCtxOpen (f 0x20 1) (f 0x21 1) d }

/-- CS_OP: the fields an operation does not use must be 0 (R363, R364). -/
def parseCsOp (b : List Byte) (len : Nat) : Parsed :=
  let f := leField b
  let op := f 0x21 1
  let hbm := op == 0 || op == 1
  let d := parseBuf b 64
  let nl := f 0x23 1
  let useA := op != 0
  let useB := op == 4 || op == 5 || op == 6 || op == 7 || op == 10
  let useD := op != 1
  let consts := if op = 8 then (List.range nl).map (fun i => f (64 + 8 * i) 8) else []
  { resv := allZero b 0x36 10 &&
      (if hbm then bufResv b 64 && allZero b 80 48
       else if op = 8 then allZero b (64 + 8 * nl) (64 * len - 64 - 8 * nl) else true)
    counts := !hbm || bufCount d
    field := decide (f 0x20 1 < 4) && decide (op ≤ 10) && decide (1 ≤ nl) && decide (nl ≤ 48) && (op != 8 || decide (nl ≤ 16)) &&
      (useA || f 0x24 4 == 0) && (useB || f 0x28 4 == 0) && (useD || f 0x2C 4 == 0) &&
      (if op = 9 then f 0x30 4 % 2 == 1 else f 0x30 4 == 0) &&
      (if op = 10 then decide (1 ≤ f 0x35 1) && decide (f 0x35 1 ≤ 48) else f 0x34 1 == 0 && f 0x35 1 == 0) &&
      (!hbm || (bufField d && d.kind == 1))
    cmd := .csOp { ctx := f 0x20 1, op := op, first := f 0x22 1, nl := nl, a := f 0x24 4, b := f 0x28 4, d := f 0x2C 4,
                   g := f 0x30 4, ofirst := f 0x34 1, onl := f 0x35 1, hbm := if hbm then d else {}, consts := consts } }

/-- KS_HASH (R348). -/
def parseKsHash (b : List Byte) : Parsed :=
  let f := leField b
  let op := f 0x20 1
  let d := parseBuf b 0x30
  let buf := op == 1 || op == 2
  { resv := allZero b 0x23 13 && (!buf || bufResv b 0x30), counts := !buf || bufCount d
    field := decide (op ≤ 3) && (if op = 0 then decide (f 0x21 1 ≤ 1) && f 0x22 1 == 0
                                 else f 0x21 1 == 0 && decide (f 0x22 1 ≤ 7)) &&
      (if buf then (bufField d && (op != 2 || d.count == 48)) else allZero b 0x30 16)
    cmd := .ksHash op (f 0x21 1) (f 0x22 1) d }

/-- DG_READ (R310). -/
def parseDgRead (b : List Byte) : Parsed :=
  let f := leField b
  let d := parseBuf b 0x30
  { resv := allZero b 0x26 10 && bufResv b 0x30, counts := bufCount d
    field := decide (1 ≤ f 0x24 2) && decide (f 0x24 2 ≤ 4096) && bufField d && d.kind != 2 &&
      decide (32 * f 0x24 2 ≤ d.count)
    cmd := .dgRead (f 0x20 4) (f 0x24 2) d }

/-- Whether a STREAM buffer's COUNT is 256 + 16 × 2^k, k from 10 to 24 (R317). -/
def streamCount (n : Nat) : Bool := (List.range 15).any (fun k => n == 256 + 16 * 2 ^ (k + 10))

/-- TRC_CFG (R317). The condition on SRC_EN and START is CONFIGURE's own. -/
def parseTrcCfg (b : List Byte) : Parsed :=
  let f := leField b
  let op := f 0x20 1
  let mode := f 0x21 1
  let d := parseBuf b 64
  let src := f 0x28 8
  let trig := f 0x30 8
  let buf := (op == 0 && mode == 1) || op == 1
  { resv := natBits (f 0x22 1) 3 5 == 0 && allZero b 0x23 5 && allZero b 0x38 8 && (!buf || bufResv b 64) &&
      (!buf || (if op = 1 then allZero b 88 40 else allZero b 80 48))
    counts := !buf || bufCount d
    field := decide (op ≤ 2) && (if op = 0 then decide (mode ≤ 1) else mode == 0) && (!buf || bufField d) &&
      (if op = 0 then
        decide (popCount src 64 ≤ 32) && src != 0 && (bitList src 64).all (fun n => decide (n ≤ 0x23) ||
          [0x25, 0x26, 0x27, 0x28, 0x29, 0x2A, 0x2B, 0x3F].contains n) &&
        !(natBits trig 0 16 == 0 && natBits trig 32 8 == 0) && (mode == 0 || (d.kind == 0 && streamCount d.count))
       else true) && (op != 1 || d.kind != 2)
    cmd := .trcCfg { op := op, mode := mode, charge := natBits (f 0x22 1) 0 3, srcEn := BitVec.ofNat 64 src,
                     trig := BitVec.ofNat 64 trig, buf := if buf then d else {},
                     first := if op = 1 then f 80 4 else 0, nrec := if op = 1 then f 84 4 else 0 } }

/-- The parameters of a packet by opcode (R131). -/
def parsePacket (b : List Byte) (opc len ringPart : Nat) : Parsed :=
  let f := leField b
  match opc with
  | 0x00 => { resv := allZero b 0x20 32, cmd := .nop }
  | 0x01 => parseMrRegister b
  | 0x02 => { resv := allZero b 0x22 30, field := decide (1 ≤ f 0x20 2) && decide (f 0x20 2 ≤ 255)
              cmd := .mrDeregister (f 0x20 2) }
  | 0x08 => parseDmaCopy b
  | 0x10 => parseProgLoad b
  | 0x11 =>
    let (p, run) := parseRun b 0x20 64 len
    { p with cmd := .progRun run }
  | 0x12 => { resv := allZero b 0x24 28, cmd := .progUnload (f 0x20 4) }
  | 0x18 => parseStayCall b len
  | 0x20 => parseSemOp b
  | 0x28 => parseAlarmArm b len
  | 0x29 => { resv := allZero b 0x21 31, cmd := .alarmDisarm (f 0x20 1) }
  | 0x30 => parseDescArm b
  | 0x31 => { resv := allZero b 0x21 31, field := decide (f 0x20 1 < 128), cmd := .descDisarm (f 0x20 1) }
  | 0x32 => parseQciLoad b len
  | 0x38 => parseExcCmd b
  | 0x39 => parseDqSafe b
  | 0x40 => parseTgCommit b
  | 0x41 => parsePartReset b ringPart
  | 0x48 => parseTenant b len ringPart
  | 0x50 => parseCsOpen b
  | 0x51 => parseCsOp b len
  | 0x52 => { resv := allZero b 0x21 31, field := decide (f 0x20 1 < 4), cmd := .csCtxClose (f 0x20 1) }
  | 0x58 => parseKsHash b
  | 0x60 => parseDgRead b
  | _ => parseTrcCfg b

end Sys2Proof.Machine
end

