-- ==== Sys2Proof/Machine/Image.lean ====
section
/-! DEFINITION. Images: spans, commit tails and cuts (R167, R273), and the checks of PROG_LOAD (R163, R165, R214-R216,
R220, R274, R304, R307, R370). -/

namespace Sys2Proof.Machine

/-- Role `k` of an image. -/
def Image.role (im : Image) (k : Nat) : Role := im.roles.getD k {}

/-- Instruction `n` of a role. -/
def Role.ins (r : Role) (n : Nat) : Option W128 := r.instrs[n]?

/-- The most instructions of any role: what a pinned tile reserves, since it may play any role (R158). -/
def Image.size (im : Image) : Nat := (im.roles.map (fun r => r.instrs.length)).foldl max 0

/-- The role's LAYER_END instructions before instruction `n`: the LAYER of instruction `n` (R306). -/
def Role.layerOf (r : Role) (n : Nat) : Nat := ((r.instrs.take n).filter iLayerEnd).length

/-- The instruction after `n`, and the LOOP in progress then: a LOOP repeats the instructions after it (R164). -/
def nextIns (l : Loop) (i : W128) (n : Nat) : Nat × Loop :=
  if iOp i = 0x28 then
    let len := natBits (iImm i) 0 16
    let times := natBits (iImm i) 16 14
    if times = 0 ∨ len = 0 then (n + 1 + len, {}) else (n + 1, { first := n + 1, len := len, left := times - 1 })
  else if l.len ≠ 0 ∧ n + 1 = l.first + l.len then
    if l.left = 0 then (n + 1, {}) else (l.first, { l with left := l.left - 1 })
  else (n + 1, l)

/-- One issue of a role's program: the instruction's index, the span it lies in, and the LOOP in progress before it. -/
structure Pass where
  n : Nat
  span : Nat
  loop : Loop
  deriving Inhabited

/-- The issues of a role from instruction `n` to its END, in order, at most `fuel` of them (R164, R167). -/
def Role.walkFrom (r : Role) : Nat → Nat → Nat → Loop → List Pass
  | 0, _, _, _ => []
  | fuel + 1, n, k, l =>
    match r.ins n with
    | none => []
    | some i =>
      { n := n, span := k, loop := l } :: (if iOp i = 0x2F then [] else
        r.walkFrom fuel (nextIns l i n).1 (if iSpanEnd i then k + 1 else k) (nextIns l i n).2)

/-- All issues of a role's program: its LOOPs unrolled, each instruction issued at most 16,383 times (R161, R164). -/
def Role.walk (r : Role) : List Pass := r.walkFrom (r.instrs.length * 16384) 0 0 {}

/-- The spans of a role (R167). -/
def Role.spans (r : Role) : Nat := ((r.walk.getLast?).map (fun p => p.span + 1)).getD 0

/-- Where span `k` of a role begins: its first instruction, and the LOOP in progress there (R167, R277). -/
def Role.spanStart (r : Role) (k : Nat) : Nat × Loop :=
  match r.walk.find? (fun p => p.span == k) with
  | some p => (p.n, p.loop)
  | none => (r.instrs.length, {})

/-- Whether span `k` of role `role` is a cut span: its SPAN_END lies immediately before a cut. The span that the role's END
ends is one only where END carries SPAN_END (R167, R273, R275). -/
def Image.cutSpan (im : Image) (role k : Nat) : Bool :=
  im.cuts.any (fun c => c.spans.getD role 0 == k + 1) &&
    (((im.role role).instrs.getLast?.map iSpanEnd).getD false || decide (k + 1 < (im.role role).spans))

/-- The declared DK_RGN_CFG image of a region in a layout (R157). -/
def layoutCfg (l : List RegionDecl) (g : Nat) : Option W32 := (l.find? (fun d => d.region == g)).map (fun d => d.cfg)

/-- A declared region: enabled, TAGGED, BASE and slots (R174). -/
def cfgEn (c : W32) : Bool := c.getLsbD 31
def cfgTagged (c : W32) : Bool := c.getLsbD 30
def cfgBase (c : W32) : Nat := natBits c.toNat 15 15
def cfgCount (c : W32) : Nat := natBits c.toNat 0 15 + 1

/-! Operands of an opcode -/

/-- Which of DST, SRC0, SRC1 and AUX an opcode needs: `some true` needed, `some false` must be 0xFF, `none` open. -/
structure Needs where
  dst : Option Bool := none
  src0 : Option Bool := none
  src1 : Option Bool := none
  aux : Option Bool := none

/-- Whether an ELTWISE function takes SRC1 (R165, R371); `none` is a reserved code. -/
def eltBinary (ring : Bool) (c : Nat) : Option Bool :=
  if ring then (if c = 1 ∨ c = 2 then some true else if c = 3 then some false else none)
  else if [0x01, 0x02, 0x04, 0x05, 0x06].contains c then some true
  else if [0x03, 0x07, 0x08, 0x09, 0x10, 0x11, 0x12, 0x13, 0x14, 0x15, 0x16, 0x17, 0x18, 0x19, 0x1A].contains c then
    some false
  else none

/-- The operands of an opcode (R164-R166, R189-R204, R222, R230, R233). -/
def needs (ring : Bool) (i : W128) : Needs :=
  let y := some true
  let n := some false
  match iOp i with
  | 0x01 => { dst := y, src0 := y, src1 := y }
  | 0x02 => { dst := y, src0 := y, src1 := y, aux := y }
  | 0x03 => { dst := y, src0 := y, src1 := y, aux := y }
  | 0x04 => { dst := y, src0 := y, src1 := n, aux := y }
  | 0x05 => { dst := y, src0 := y, src1 := y, aux := y }
  | 0x06 => { dst := y, src0 := y, src1 := y, aux := some (!(natBit (iP8 i) 1)) }
  | 0x08 => { dst := y, src0 := y, src1 := some ((eltBinary ring (natBits (iImm i) 0 8)).getD false) }
  | 0x09 => { dst := y, src0 := y, aux := if natBit (iP8 i) 2 then y else none }
  | 0x0A => { dst := y, src0 := y, aux := if natBit (iP8 i) 2 then y else none }
  | 0x0B => { dst := y, src0 := y }
  | 0x0C => { src0 := y }
  | 0x0D => { src0 := y }
  | 0x0E => { dst := y, src0 := y, src1 := y, aux := y }
  | 0x0F => { dst := y, src0 := y, src1 := y, aux := y }
  | 0x10 => { dst := y, aux := if natBit (iP8 i) 7 then y else none }
  | 0x11 => { src0 := y, aux := if natBit (iP8 i) 7 then y else none }
  | 0x12 => { dst := y, src0 := y }
  | 0x14 => { src0 := y }
  | 0x1A => { dst := y }
  | 0x20 => { src0 := y }
  | 0x21 => { dst := y }
  | _ => {}

/-- Whether an operand index meets its need and names a descriptor of the table (R161, R162). -/
def needMet (im : Image) (w : Option Bool) (k : Nat) : Bool :=
  (k == 0xFF || decide (k < im.operands.length)) && (match w with
    | some true => k != 0xFF
    | some false => k == 0xFF
    | none => true)

/-- The operands that must lie in PLAIN regions (R166, R190, R233; log entry 40). -/
def plainOpds (i : W128) : List Nat :=
  match iOp i with
  | 0x02 => [iAux i]
  | 0x03 => [iAux i]
  | 0x04 => [iAux i]
  | 0x0E => [iDst i, iSrc0 i, iSrc1 i, iAux i]
  | 0x0F => [iDst i, iSrc0 i, iSrc1 i, iAux i]
  | 0x10 => if natBit (iP8 i) 7 then [iAux i] else []
  | 0x11 => if natBit (iP8 i) 7 then [iAux i] else []
  | _ => []

/-- Whether an operand lies in its declared region of a layout, under a TAGMODE that fits the region's MODE, with
elements of static dimensions inside its slots (R163; log entry 40). -/
def opdPlaced (ring : Bool) (l : List RegionDecl) (o : Opd) : Bool :=
  match layoutCfg l o.region with
  | none => false
  | some c =>
    let v : View := { bits := elemBits ring o.fmt, dims := o.dims, strides := o.strides }
    let last := v.place (v.dim 0 - 1, v.dim 1 - 1, v.dim 2 - 1, v.dim 3 - 1)
    cfgEn c && decide (o.slot + o.nslots ≤ cfgCount c) && (o.tagmode != 0) == cfgTagged c &&
      (o.dyn != 0 || decide (last.1 * 8 + last.2 + v.bits ≤ o.nslots * 2048))

/-- The operands an instruction names, each with the layout it lies in: an XFER's DST lies in the Deck of the role in P8
(R164, R176). -/
def namedOpds (im : Image) (role : Role) (i : W128) : List (Opd × List RegionDecl) :=
  let dl := if iOp i = 0x12 then (im.role (iP8 i)).layout else role.layout
  ((im.opd (iDst i)).toList.map (fun o => (o, dl))) ++
    (if isFinal i then (im.opd (iDst i + 1)).toList.map (fun o => (o, role.layout)) else []) ++
    ([iSrc0 i, iSrc1 i, iAux i].filterMap im.opd).map (fun o => (o, role.layout))

/-- The formats of a Girder product pair up (R220). -/
def pairOk (a b : Nat) : Bool :=
  (isFloat a && isFloat b) || (isInt a && isInt b) || (a == 0xC && (b == 0xC || b == 7)) || (b == 0xC && a == 7)

/-- The fields of P8 and IMM that R164-R166 and each operator's rule reserve are 0. -/
def insResv (ring : Bool) (i : W128) : Bool :=
  let p := iP8 i
  let m := iImm i
  natBits i.toNat 13 3 == 0 && (match iOp i with
    | 0x01 => natBits p 1 7 == 0 && natBits m 16 14 == 0
    | 0x02 => natBits p 2 6 == 0 && natBits m 16 14 == 0
    | 0x03 => natBits p 2 6 == 0 && natBits m 16 14 == 0
    | 0x04 => natBits p 2 6 == 0
    | 0x05 => natBits m 13 17 == 0
    | 0x06 => natBits p 2 6 == 0 && natBits m 14 16 == 0
    | 0x08 => if ring then natBits m 8 22 == 0 else natBits m 16 14 == 0
    | 0x09 => natBits p 5 3 == 0
    | 0x0A => natBits p 5 3 == 0
    | 0x10 => natBits p 6 1 == 0
    | 0x11 => natBits p 6 1 == 0
    | _ => true)

/-- The opcodes of a ring image (R370). -/
def ringOp (o : Nat) : Bool := [0x01, 0x08, 0x0B, 0x0C, 0x10, 0x11, 0x12, 0x18, 0x19, 0x1A, 0x1B, 0x20, 0x21, 0x28, 0x2F].contains o

/-- A FINAL phase whose DST has no descriptor after it: no load check names it, and the run ends at its issue (R196). -/
def finalHigh (i : W128) : Bool := isFinal i && decide (0xFD < iDst i)

/-- The conditions on one instruction whose failure gives 0x0108 (R163, R165, R180, R215, R216, R220, R304, R370). -/
def insField (im : Image) (role : Role) (i : W128) : Bool :=
  let o := iOp i
  let n := needs im.ring i
  let dst := im.opd (iDst i)
  let fmt := fun k => ((im.opd k).map (fun d => d.fmt)).getD 0
  tileOps.contains o && iMk i == markedOp o && decide (iFmtOut i < 0xE) && iFmtOut i != 0xD &&
    needMet im n.dst (iDst i) && needMet im n.src0 (iSrc0 i) && needMet im n.src1 (iSrc1 i) && needMet im n.aux (iAux i) &&
    (namedOpds im role i).all (fun (d, l) => opdPlaced im.ring l d) &&
    ([iDst i, iSrc0 i, iSrc1 i].filterMap im.opd).all (fun d => d.fmt != 0xD) &&
    ((plainOpds i).filterMap im.opd).all (fun d => d.tagmode == 0) &&
    (finalHigh i || dst.isNone || fmt (outIdx i) == iFmtOut i) &&
    (!(isFinal i) || finalHigh i || (im.opd (iDst i + 1)).isSome) &&
    (if iLayerEnd i then arithOp o && dst.isSome else true) &&
    (match o with
     | 0x01 => pairOk (fmt (iSrc0 i)) (fmt (iSrc1 i)) && (!im.ring || (iScale i == 0 && iImm i == 0 && iP8 i == 0))
     | 0x02 => pairOk (fmt (iSrc0 i)) (fmt (iSrc1 i))
     | 0x03 => pairOk (fmt (iSrc0 i)) (fmt (iSrc1 i))
     | 0x08 => (eltBinary im.ring (natBits (iImm i) 0 8)).isSome
     | 0x0E => iFmtOut i == 0
     | 0x0F => iFmtOut i == 0
     | 0x10 => !(natBit (iP8 i) 7) || natBits (iP8 i) 0 6 == 0
     | 0x11 => !(natBit (iP8 i) 7) || natBits (iP8 i) 0 6 == 0
     | 0x12 => decide (iP8 i < im.roles.length)
     | 0x18 => natBits (iImm i) 0 16 != 0
     | 0x19 => natBits (iImm i) 0 16 != 0
     | _ => true) &&
    (!im.ring || (ringOp o && (!(iLayerEnd i) || o == 0x01 || o == 0x08)))

/-! Roles -/

/-- The instruction of an issue. -/
def Role.at (r : Role) (p : Pass) : W128 := (r.ins p.n).getD 0#128

/-- Commit-class instructions stand only in the tail of their span (R163, R167). -/
def tailsOk (r : Role) : Bool → List Pass → Bool
  | _, [] => true
  | tail, p :: ps =>
    (!tail || commitClass (r.at p)) && tailsOk r (if iSpanEnd (r.at p) then false else commitClass (r.at p)) ps

/-- LOOPs do not nest (R164; log entry 40). -/
def loopsOk : List W128 → Bool
  | [] => true
  | i :: is =>
    (iOp i != 0x28 || (is.take (natBits (iImm i) 0 16)).all (fun b => iOp b != 0x28)) && loopsOk is

/-- The role's LAYER_END issues between the cuts at spans `a` and `b` (R307). -/
def Role.layersIn (r : Role) (a b : Nat) : Nat :=
  (r.walk.filter (fun p => iLayerEnd (r.at p) && decide (a ≤ p.span) && decide (p.span < b))).length

/-- No role issues more than 256 LAYER_END instructions between two cuts (R307). -/
def layersOk (im : Image) (k : Nat) : Bool :=
  let marks := im.cuts.map (fun c => c.spans.getD k 0) ++ [(im.role k).spans]
  (marks.zip (marks.drop 1)).all (fun (a, b) => decide ((im.role k).layersIn a b ≤ 256))

/-- What may not stand in the commit tail of a span that is not a cut span: SEM_SIGNAL, UNLOCK, ATOMIC_ADD, REDUCE_XT, and a
STAY_INVOKE that takes a lock (R274). -/
def cutOnly (i : W128) : Bool := [0x19, 0x1B, 0x0D, 0x0C].contains (iOp i) || (kernLock i).isSome

/-- R274's first condition for role `k`. -/
def cutTailsOk (im : Image) (k : Nat) : Bool :=
  (im.role k).walk.all (fun p => !(cutOnly ((im.role k).at p)) || im.cutSpan k p.span)

/-- A layout that DK_RGN_CFG writes could set up (R174, R175). -/
def layoutOk (l : List RegionDecl) : Bool :=
  l.all (fun d => decide (d.region < 16) && cfgEn d.cfg && decide (cfgBase d.cfg + cfgCount d.cfg ≤ 32768)) &&
    l.all (fun d => l.all (fun e => d == e || (d.region != e.region &&
      (decide (cfgBase d.cfg + cfgCount d.cfg ≤ cfgBase e.cfg) || decide (cfgBase e.cfg + cfgCount e.cfg ≤ cfgBase d.cfg)))))

/-- Role `k` of an image. -/
def roleOk (im : Image) (k : Nat) : Bool :=
  let r := im.role k
  decide (1 ≤ r.instrs.length) && decide (r.instrs.length ≤ 4096) && layoutOk r.layout && r.instrs.all (insField im r) &&
    tailsOk r false r.walk && loopsOk r.instrs && layersOk im k && cutTailsOk im k &&
    (r.instrs.getLast?.map (fun i => iOp i == 0x2F)).getD false && (r.instrs.dropLast.all (fun i => iOp i != 0x2F))

/-- A restore range lies in the role's declared layout (R274). -/
def restoreOk (l : List RegionDecl) (x : Restore) : Bool :=
  match layoutCfg l x.region with
  | some c => decide (1 ≤ x.nslots) && decide (x.slot + x.nslots ≤ cfgCount c)
  | none => false

/-- The cut table: cut 0 before span 0 of every role, cuts at span boundaries that never go back, restore lists in the layouts;
a role that has ended stays at its last boundary (R273-R275). -/
def cutsOk (im : Image) : Bool :=
  let n := im.roles.length
  ((im.cuts.head?).map (fun c => c.spans.all (· == 0))).getD false &&
    im.cuts.all (fun c => c.spans.length == n && c.restore.length == n &&
      (List.range n).all (fun k => decide (c.spans.getD k 0 ≤ (im.role k).spans) &&
        (c.restore.getD k []).all (restoreOk (im.role k).layout))) &&
    (im.cuts.zip (im.cuts.drop 1)).all (fun (a, b) =>
      (List.range n).all (fun k => decide (a.spans.getD k 0 ≤ b.spans.getD k 0)))

/-! The descriptors themselves -/

/-- A descriptor's fields are in range (R162, R214, R370). -/
def opdField (ring : Bool) (o : Opd) : Bool :=
  decide (o.region < 16) && decide (o.tagmode ≤ 3) && decide (o.fmt ≤ 0xD) && decide (1 ≤ o.nslots) &&
    decide (o.nslots ≤ 32768) && (!ring || o.fmt == 7) &&
    (natBit o.dyn 0 || ((o.fmt != 0xB && o.fmt != 6 || o.dims.getD 0 0 % 2 == 0) && (o.fmt != 5 || o.dims.getD 0 0 % 4 == 0)))

/-- The static dimensions are not 0 (R163). -/
def opdDims (o : Opd) : Bool := o.dims.zipIdx.all (fun (d, k) => natBit o.dyn k || d != 0)

/-- The checks of PROG_LOAD on an image: 0, 0x0104, 0x0107 or 0x0108, in the order of R126 step 8 (R163). -/
def checkImage (im : Image) : Nat :=
  let opds := im.operands.map parseOpd
  let p : Parsed :=
    { resv := opds.all (fun o => decide (o.dyn < 16)) && im.roles.all (fun r => r.instrs.all (insResv im.ring))
      dims := opds.all opdDims
      field := decide (1 ≤ im.roles.length) && decide (im.roles.length ≤ 16) && decide (im.operands.length ≤ 255) &&
        im.operands.all (fun b => b.length == 32) && opds.all (opdField im.ring) && cutsOk im &&
        (List.range im.roles.length).all (roleOk im) }
  p.status

end Sys2Proof.Machine
end

