-- ==== Sys2Proof/Machine/Ring.lean ====
section
/-! DEFINITION. Rings: enabling, doorbells, fetching, checking, ending and completing commands (R115-R156). -/

namespace Sys2Proof.Machine
namespace State

/-- Ring states (R117): DISABLED 0, RUNNING 1, DRAINING 2, HALTED 3. -/
def ringState (s : State) (r : Nat) : Nat := s.fget F.TRH_RING_STAT_STATE r

/-- Commands of ring `r` fetched and not yet posted (R117). -/
def ringInflight (s : State) (r : Nat) : Nat := (s.cmds.filter (fun c => c.ring == r)).length

/-- Commands of partition `p` in flight (R117). -/
def partInflight (s : State) (p : Nat) : Nat := (s.cmds.filter (fun c => c.part == p)).length

/-- Whether a partition reset or tenant switch of `p` is in progress (R117). -/
def resetBusy (s : State) (p : Nat) : Bool := s.flag F.TRH_PART_STAT_RESET_BUSY p

/-- Whether Keystone is in a bank switch window (R331). -/
def switching (s : State) : Bool := s.fget F.KS_STAT_STATE 0 == 2

/-- Register accesses reach the device from host-ready on, and in RECOVERY only the KS_ window responds (R326, R391, R392,
R395): a write before, or elsewhere, has no effect. -/
def bar (s t : State) : State := if s.fget F.KS_STAT_STATE 0 = 1 ∨ s.switching then t else s

/-- Whether the interface of `p` is CONFIG_LOCKED or RUN (R339). -/
def tdiLocked (s : State) (p : Nat) : Bool :=
  s.fget F.KS_PART_ATT_TDI p == 1 || s.fget F.KS_PART_ATT_TDI p == 2

/-- The interface of `p` enters ERROR and TDI_ERROR is posted, unless it is there already (R339, R342, R350, R400). -/
def tdiEnter (s : State) (p cause : Nat) : State :=
  if s.fget F.KS_PART_ATT_TDI p = 3 then s
  else (s.fset F.KS_PART_ATT_TDI p 3).event 0x0111 p (p + 1) cause 0

/-- An event of R339 that puts a CONFIG_LOCKED or RUN interface into ERROR. -/
def tdiError (s : State) (p cause : Nat) : State := if s.tdiLocked p then s.tdiEnter p cause else s

/-! The end of a command -/

/-- The end of a command: its status and result are held for its completion, and its SIGNAL is given on success
(R125, R143, R147). -/
def finish (s : State) (r t status result : Nat) : State :=
  match s.findCmd r t with
  | none => s
  | some c =>
    let s := s.modCmd r t (fun c => { c with done := some (status, if status < 0x100 then result else 0) })
    if c.signal && decide (status < 0x100) then
      let fn := s.ringFn r
      s.signalFree (if fn = 0 then 0 else 0x10 + fn) (if fn = 0 then 0xFF else c.part) c.sigSem c.part
    else s

/-- Every command that meets `f` and has not ended ends with `status`. -/
def finishAll (s : State) (f : Cmd → Bool) (status : Nat) : State :=
  { s with cmds := s.cmds.map (fun c => if f c && c.done == none then { c with done := some (status, 0) } else c) }

/-- The FENCE of a command is met: every earlier command of its ring has posted (R125). -/
def fenceMet (s : State) (c : Cmd) : Bool :=
  !c.fence || (s.cmds.takeWhile (fun x => x != c)).all (fun x => x.ring != c.ring)

/-- Whether a command, once started, needs the interpreter no more: a copy, a hash or a Caisson operation (R331). -/
def onEngine : TCmd → Bool
  | .dmaCopy .. | .ksHash .. | .csOp _ => true
  | _ => false

/-- Work on a command of ring `r` with TAG `t` whose parameters meet `want`; none while its partition is being reset, nor what
needs the interpreter while the management cores are stopped (R152, R331). -/
def withCmd (s : State) (r t : Nat) (want : TCmd → Bool) (f : State → Cmd → State) : State :=
  match s.findCmd r t with
  | none => s
  | some c => if s.resetBusy c.part || (s.switching && !(c.started && onEngine c.par)) || !(want c.par) then s else f s c

/-- The start of a command once its FENCE is met: what its check says of the present state, and its effect (R125, R126,
R146; log entry 39). -/
def enter (s : State) (c : Cmd) (st : Nat) (effect : State → State) : State :=
  if !(s.fenceMet c) then s
  else if st ≠ 0 then s.finish c.ring c.tag st 0
  else effect (s.modCmd c.ring c.tag (fun c => { c with checked := true, started := true }))

/-- A command that has not started is admitted; one that has takes `again` (a wait that goes on). -/
def begin (s : State) (r t : Nat) (want : TCmd → Bool) (check : State → Cmd → Nat)
    (effect : Cmd → State → State) (again : Cmd → State → State) : State :=
  s.withCmd r t want (fun s c => if c.started then again c s else s.enter c (check s c) (effect c))

/-! Rings -/

/-- A RING_HALT event and the HALTED state (R117, R155, R265). -/
def halt (s : State) (r cause : Nat) : State :=
  let s := (s.fset F.TRH_RING_STAT_STATE r 3).fset F.TRH_RING_STAT_HALT_CAUSE r cause
  s.event 0x0060 (r / 16) r cause (s.fget F.TRH_RING_PTR_SQ_HEAD r)

/-- Whether function `fn` owns ring `r` (R115, R119). -/
def ownsRing (s : State) (fn : Fn) (r : Nat) : Bool :=
  match fn with
  | .pf => !(s.flag F.TRH_RING_CFG_OWNER r)
  | .vf p => r / 16 == p.val && s.flag F.TRH_RING_CFG_OWNER r

/-- The BAR0 offset of ring register `o` in the window of `fn` (R117, R118, R12). -/
def ringOff (fn : Fn) (r o : Nat) : Nat :=
  match fn with
  | .pf => 0x1000000 + r * 0x40 + o
  | .vf _ => r % 16 * 0x40 + o

/-- The EN part of a TRH_RING_CFG write: refused with CFG_ERR, RUNNING with pointers 0, or DRAINING (R117, R151). -/
def ringRun (s : State) (r : Nat) (v : W32) : State :=
  let sq := v.toNat / 2 ^ 22 % 32
  let cq := v.toNat / 2 ^ 17 % 32
  let st := s.ringState r
  if v.getLsbD 31 then
    if st = 0 then
      if sq < 4 ∨ 16 < sq ∨ cq < 4 ∨ 16 < cq then s.fset F.TRH_RING_STAT_CFG_ERR r 1
      else
        let s := (s.fset F.TRH_RING_CFG_EN r 1).rset .TRH_RING_PTR r 0
        let s := (s.fset F.TRH_RING_STAT_STATE r 1).fset F.TRH_RING_STAT_HALT_CAUSE r 0
        { s with phases := if natBit s.phases r then s.phases else s.phases + 2 ^ r }
    else s
  else
    let s := s.fset F.TRH_RING_CFG_EN r 0
    if st = 0 then s else s.fset F.TRH_RING_STAT_STATE r 2

/-- A write of TRH_RING_CFG by `fn` (R117, R118, R339). -/
def ringCfgWrite (s : State) (fn : Fn) (r : Nat) (v : W32) : State :=
  let p := r / 16
  let sq := v.toNat / 2 ^ 22 % 32
  let cq := v.toNat / 2 ^ 17 % 32
  let own := if v.getLsbD 30 then 1 else 0
  let off := ringOff fn r 0
  let moved := sq != s.fget F.TRH_RING_CFG_SQ_LOG2 r || cq != s.fget F.TRH_RING_CFG_CQ_LOG2 r
  let owned := s.flag F.TRH_RING_CFG_OWNER r
  match fn with
  | .vf q =>
    if !(s.ownsRing (.vf q) r) then s
    else if moved && s.ringState r != 0 then s.accessFault fn 3 off (v.setWidth 64)
    else ((s.fset F.TRH_RING_CFG_SQ_LOG2 r sq).fset F.TRH_RING_CFG_CQ_LOG2 r cq).ringRun r v
  | .pf =>
    if s.tdiLocked p then s.accessFault fn 2 off (v.setWidth 64)
    else
      let change := own != s.fget F.TRH_RING_CFG_OWNER r
      if change && s.ringState r != 0 then s.accessFault fn 3 off (v.setWidth 64)
      else if owned then s.fset F.TRH_RING_CFG_OWNER r own
      else if moved && s.ringState r != 0 then s.accessFault fn 3 off (v.setWidth 64)
      else
        let s := (s.fset F.TRH_RING_CFG_SQ_LOG2 r sq).fset F.TRH_RING_CFG_CQ_LOG2 r cq
        if own = 1 then s.fset F.TRH_RING_CFG_OWNER r 1 else s.ringRun r v

/-- Whether a doorbell write of `fn` acts; the PF's to a pair whose OWNER is 1 is recorded (R119). -/
def doorbell (s : State) (fn : Fn) (r : Nat) (o : Nat) (v : W16) (act : State → State) : State :=
  if s.ownsRing fn r then act s
  else match fn with
    | .pf => s.accessFault fn 2 (0x1200000 + r * 0x1000 + o) (v.setWidth 64)
    | .vf _ => s

/-- SQ_TAIL, or the halt of a RUNNING ring when out of range (R120). -/
def dbSq (r : Nat) (v : W16) (s : State) : State :=
  if 2 ^ s.fget F.TRH_RING_CFG_SQ_LOG2 r ≤ v.toNat ∧ s.ringState r = 1 then s.halt r 0x0109
  else s.fset F.TRH_RING_PTR_SQ_TAIL r v.toNat

/-- CQ_HEAD, ignored and recorded when it passes CQ_TAIL (R120). -/
def dbCq (fn : Fn) (r : Nat) (v : W16) (s : State) : State :=
  let n := 2 ^ s.fget F.TRH_RING_CFG_CQ_LOG2 r
  let head := s.fget F.TRH_RING_PTR_CQ_HEAD r
  let tail := s.fget F.TRH_RING_PTR_CQ_TAIL r
  if v.toNat < n ∧ (v.toNat + n - head) % n ≤ (tail + n - head) % n then s.fset F.TRH_RING_PTR_CQ_HEAD r v.toNat
  else
    let off := match fn with
      | .pf => 0x1200004 + r * 0x1000
      | .vf _ => 0x10004 + r % 16 * 0x1000
    s.accessFault fn 3 off (v.setWidth 64)

/-! Fetching -/

/-- The host bus address of a slot of the submission ring (R116). -/
def slotAddr (s : State) (r slot : Nat) : Nat :=
  s.fget F.TRH_SQ_BASE_ADDR r * 4096 + slot % 2 ^ s.fget F.TRH_RING_CFG_SQ_LOG2 r * 64

/-- `n` slots of a packet from `slot`, wrapping at the end of the ring (R121). -/
def packet (s : State) (r slot : Nat) : Nat → List Byte
  | 0 => []
  | n + 1 => memRead s.host (s.slotAddr r slot) 64 ++ s.packet r (slot + 1) n

/-- The slots before SQ_TAIL (R120). -/
def sqHeld (s : State) (r : Nat) : Nat :=
  let n := 2 ^ s.fget F.TRH_RING_CFG_SQ_LOG2 r
  (s.fget F.TRH_RING_PTR_SQ_TAIL r + n - s.fget F.TRH_RING_PTR_SQ_HEAD r) % n

/-- Whether the header at SQ_HEAD may be looked at: RUNNING, not empty, and fetching not stopped by a reset, a bank
switch or a TDISP state (R120, R257, R331, R339). -/
def fetchOpen (s : State) (r : Nat) : Bool :=
  s.ringState r == 1 && s.sqHeld r != 0 && !(s.resetBusy (r / 16)) && !s.switching &&
    s.fget F.KS_PART_ATT_TDI (r / 16) != 1

/-- The places of R121 and R127: the device's 512, the partition's share and the completion ring's. -/
def fetchRoom (s : State) (r : Nat) : Bool :=
  let n := 2 ^ s.fget F.TRH_RING_CFG_CQ_LOG2 r
  let open_ := (s.fget F.TRH_RING_PTR_CQ_TAIL r + n - s.fget F.TRH_RING_PTR_CQ_HEAD r) % n
  decide (s.cmds.length < 512) && decide (s.partInflight (r / 16) < s.fget F.TRH_PART_CFG_TAG_SHARE (r / 16)) &&
    decide (s.ringInflight r + open_ < n - 1)

/-- LEN of the packet at SQ_HEAD. -/
def headLen (s : State) (r : Nat) : Nat :=
  leField (memRead s.host (s.slotAddr r (s.fget F.TRH_RING_PTR_SQ_HEAD r)) 64) 1 1

/-- Whether ring `r` can be fetched from now (R121). -/
def fetchable (s : State) (r : Nat) : Bool :=
  s.fetchOpen r && (decide (2 ^ s.fget F.TRH_RING_CFG_SQ_LOG2 r - 1 < s.headLen r) ||
    (s.fetchRoom r && decide (s.headLen r ≤ s.sqHeld r)))

/-- The rings of partition `p` in the order they are served: in rotation after the one served last (R123). -/
def ringOrder (s : State) (p : Nat) : List Nat := (rotate (tabGet 15 s.turnRing p) (List.range 16)).map (fun i => 16 * p + i)

/-- The ring the interpreter fetches from next: P0's before all others, P1-P7 in rotation, and a partition's own rings in
rotation (R123, R238). -/
def nextFetch (s : State) : Option Nat :=
  ((0 :: rotate s.turnPart [1, 2, 3, 4, 5, 6, 7]).map s.ringOrder).flatten.find? s.fetchable

/-- The rotation after a fetch from ring `r` (R123). -/
def fetchTurn (s : State) (r : Nat) : State :=
  { s with turnPart := if r / 16 = 0 then s.turnPart else r / 16, turnRing := tabSet 15 s.turnRing (r / 16) (r % 16) }

/-- Steps 3 to 8 of R126 on a packet; 0 when they pass. -/
def packetStatus (s : State) (r : Nat) (b : List Byte) (len : Nat) (p : Parsed) : Nat :=
  let opc := leField b 0 1
  let tp := leField b 2 2
  let fl := leField b 4 1
  if !(knownOpc opc) then 0x0100
  else if !(lenOk b opc len) then 0x0102
  else if natBits tp 12 4 != 0 || natBits fl 3 5 != 0 || !(allZero b 5 1) || natBits (leField b 6 2) 13 3 != 0 ||
      !(allZero b 8 24) then 0x0104
  else if natBits tp 9 3 != r / 16 || (pfOnly opc && s.flag F.TRH_RING_CFG_OWNER r) then 0x0400
  else if s.cmds.any (fun c => c.ring == r && c.tag == natBits tp 0 9) then 0x0105
  else if p.status ≠ 0 then p.status
  else if natBit fl 2 && !(s.semOk (natBits (leField b 6 2) 0 13) (r / 16)) then 0x0400
  else 0

/-- A packet taken: SQ_HEAD advances past `n` slots, the command is in flight, and a failing check ends it
(R122, R126, R127). -/
def takePacket (s : State) (r : Nat) (b : List Byte) (n status : Nat) (p : Parsed) : State :=
  let head := s.fget F.TRH_RING_PTR_SQ_HEAD r
  let tp := leField b 2 2
  let fl := leField b 4 1
  let c : Cmd :=
    { ring := r, tag := natBits tp 0 9, part := r / 16, idPart := natBits tp 9 3, slot := head, opc := leField b 0 1, unordered := natBit fl 0
      fence := natBit fl 1, signal := natBit fl 2, sigSem := natBits (leField b 6 2) 0 13, par := p.cmd
      checked := status == 0, done := if status = 0 then none else some (status, 0) }
  let s := s.fset F.TRH_RING_PTR_SQ_HEAD r ((head + n) % 2 ^ s.fget F.TRH_RING_CFG_SQ_LOG2 r)
  let s := (s.charge (r / 16) 3 (64 * n)).count 0x150 (some r) (some (r / 16)) 1
  let s := s.traceEv 0x26 0x60 (some (r / 16)) [(16, r), (16, c.tag), (16, c.opc)]
  { s with cmds := s.cmds ++ [c] }

/-! Completing -/

/-- The ended command of ring `r` with TAG `t` whose completion may be posted now (R146). -/
def postable (s : State) (r t : Nat) : Option Cmd :=
  s.cmds.find? (fun c => c.ring == r && c.tag == t && c.done != none &&
    (c.unordered || (s.cmds.takeWhile (fun x => x != c)).all (fun x => x.ring != r)))

/-- The bytes of a completion entry (R143, R144). -/
def completionBytes (s : State) (c : Cmd) (phase : Bool) : List Byte :=
  let (status, result) := c.done.getD (0, 0)
  leBytes 2 (c.tag + c.idPart * 512 + (if c.digest then 4096 else 0) + (if c.replay then 8192 else 0) +
      (if c.unordered then 16384 else 0) + (if phase then 32768 else 0)) ++
    leBytes 2 status ++ leBytes 4 result ++ leBytes 2 (s.fget F.TRH_RING_PTR_SQ_HEAD c.ring) ++ leBytes 2 c.slot ++
    leBytes 4 s.now.toNat

/-- One completion entry written at CQ_TAIL; the command is no longer in flight (R127, R143-R148). -/
def post (s : State) (c : Cmd) : State :=
  let r := c.ring
  let n := 2 ^ s.fget F.TRH_RING_CFG_CQ_LOG2 r
  let tail := s.fget F.TRH_RING_PTR_CQ_TAIL r
  let status := (c.done.getD (0, 0)).1
  let s := s.hostWrite (s.fget F.TRH_CQ_BASE_ADDR r * 4096 + tail * 16) (s.completionBytes c (natBit s.phases r))
  let s := { s with cmds := s.cmds.erase c
                    phases := if tail + 1 = n then (if natBit s.phases r then s.phases - 2 ^ r else s.phases + 2 ^ r)
                              else s.phases }
  let s := (s.fset F.TRH_RING_PTR_CQ_TAIL r ((tail + 1) % n)).charge c.part 4 16
  let s := s.count 0x151 (some r) (some c.part) 1
  let s := if status = 0 then s else s.count 0x152 (some r) (some c.part) 1
  let s := s.traceEv 0x26 0x61 (some c.part) [(16, r), (16, c.tag), (16, status)]
  s.unsignalled (s.ringFn r) r (s.flag F.TRH_RING_IRQ_IRQ_EN r) (s.fget F.TRH_RING_IRQ_COAL_N r)

/-- The buffers a command names, for the regions it uses (R133). -/
def bufsOf : TCmd → List BufDesc
  | .dmaCopy a b => [a, b]
  | .progLoad a _ => [a]
  | .progRun p => p.bufs
  | .dqSafeLoad _ _ a => [a]
  | .tenantSwitch _ p => p.toList
  | .csCtxOpen _ _ a => [a]
  | .csOp p => [p.hbm]
  | .ksHash _ _ _ a => [a]
  | .dgRead _ _ a => [a]
  | .trcCfg p => [p.buf]
  | _ => []

/-- Whether a command that has passed its checks and has not ended uses handle `h` of partition `p` (R133). -/
def usesMr (p h : Nat) (c : Cmd) : Bool :=
  c.part == p && c.checked && c.done == none && (bufsOf c.par).any (fun d => d.kind == 0 && d.count != 0 && d.mr == h)

end State

open State

/-- RING_ENABLE: a write of TRH_RING_CFG with EN = 1 (R117). -/
def execRingEnable (fn : Fn) (r : Fin 128) (v : W32) (s : State) : Host.Outcome State Fault Refusal :=
  .next (s.bar (s.ringCfgWrite fn r.val (v ||| 0x80000000#32)))

/-- RING_DISABLE: a write of TRH_RING_CFG with EN = 0 (R151). -/
def execRingDisable (fn : Fn) (r : Fin 128) (v : W32) (s : State) : Host.Outcome State Fault Refusal :=
  .next (s.bar (s.ringCfgWrite fn r.val (v &&& 0x7FFFFFFF#32)))

/-- RING_DRAINED: INFLIGHT of a DRAINING ring is 0 (R151). -/
def execRingDrained (r : Fin 128) (s : State) : Host.Outcome State Fault Refusal :=
  .next (if s.ringState r.val = 2 ∧ s.ringInflight r.val = 0 then s.fset F.TRH_RING_STAT_STATE r.val 0 else s)

/-- TRH_DB_SQ: a submission doorbell (R119, R120). -/
def execTrhDbSq (fn : Fn) (r : Fin 128) (v : W16) (s : State) : Host.Outcome State Fault Refusal :=
  .next (s.bar (s.doorbell fn r.val 0 v (dbSq r.val v)))

/-- TRH_DB_CQ: a completion doorbell (R119, R120). -/
def execTrhDbCq (fn : Fn) (r : Fin 128) (v : W16) (s : State) : Host.Outcome State Fault Refusal :=
  .next (s.bar (s.doorbell fn r.val 4 v (dbCq fn r.val v)))

/-- COMPLETION_POST: the completion of an ended command whose turn has come (R143-R148). -/
def execCompletionPost (r : Fin 128) (tag : Fin 512) (s : State) : Host.Outcome State Fault Refusal :=
  .next (if s.switching || s.resetBusy (r.val / 16) then s else
    match s.postable r.val tag.val with
    | some c => s.gated c.part (.completionPost r tag) (s.post c)
    | none => s)

/-- COALESCING_TIMEOUT: COAL_US after the first unsignalled entry the vector fires (R117, R264). -/
def execCoalescingTimeout (who : CoalOf) (s : State) : Host.Outcome State Fault Refusal :=
  .next (
    let (fn, vec, en, us) := match who with
      | .ring r => (s.ringFn r.val, r.val, s.flag F.TRH_RING_IRQ_IRQ_EN r.val, s.fget F.TRH_RING_IRQ_COAL_US r.val)
      | .events => (0, 128, s.flag F.FLT_EVR_CFG_IRQ_EN 0, s.fget F.FLT_EVR_CFG_COAL_US 0)
    if en && us != 0 && tabGet 0 s.unsig vec != 0 then { s.msix fn vec with unsig := tabSet 0 s.unsig vec 0 } else s)

/-- NOP: does nothing and ends with RESULT 0 (R131). -/
def execNop (r : Fin 128) (tag : Fin 512) (s : State) : Host.Outcome State Fault Refusal :=
  .next (s.begin r.val tag.val (fun | .nop => true | _ => false) (fun _ _ => 0)
    (fun c s => s.finish c.ring c.tag 0 0) (fun _ s => s))

/-- The lowest free memory region handle of a partition (R132). -/
def State.freeMr (s : State) (p : Nat) : Option Nat :=
  ((List.range 255).map (· + 1)).find? (fun h => (s.mr p h).len == 0)

/-- The check of MR_REGISTER: a free handle (R132). -/
def State.registerCheck (s : State) (c : Cmd) : Nat := if (s.freeMr c.part).isNone then 0x0302 else 0

/-- MR_REGISTER: a region registered under a free handle, or 0x0302 (R132). -/
def execMrRegister (r : Fin 128) (tag : Fin 512) (s : State) : Host.Outcome State Fault Refusal :=
  .next (s.begin r.val tag.val (fun | .mrRegister .. => true | _ => false) State.registerCheck
    (fun c s => match c.par, s.freeMr c.part with
      | .mrRegister base len access, some h =>
        (s.setMr c.part h { base := base, len := len, access := access, live := true }).finish c.ring c.tag 0 h
      | _, _ => s)
    (fun _ s => s))

/-- A STREAM trace whose ring lies in region `h` of partition `p` stops and what it has queued is dropped, so that the device
makes no access to the region any more (R133, R153; log entry 101). -/
def State.streamStop (s : State) (p h : Nat) : State :=
  if s.flag F.TRC_STAT_MODE 0 ∧ s.trace.part = p ∧ s.trace.stream.mr = h then
    { s.fset F.TRC_STAT_STATE 0 4 with trace := { s.trace with buf := [], stream := {} } }
  else s

/-- The retirement of a handle ends once no command that passed the bounds check with it is left (R133). -/
def State.mrGone (h : Nat) (c : Cmd) (s : State) : State :=
  if s.cmds.any (State.usesMr c.part h) then s else ((s.streamStop c.part h).setMr c.part h {}).finish c.ring c.tag 0 0

/-- The check of MR_DEREGISTER: a live handle (R133). -/
def State.deregisterCheck (s : State) (c : Cmd) : Nat :=
  match c.par with
  | .mrDeregister h => if c.checked || (s.mr c.part h).live then 0 else 0x0202
  | _ => 0

/-- What a command that has passed its checks does at once: a deregistered handle is no longer live (R133). -/
def State.passed (s : State) (c : Cmd) : State :=
  match c.par with
  | .mrDeregister h => s.setMr c.part h { s.mr c.part h with live := false }
  | _ => s

/-- MR_DEREGISTER: the handle is no longer live from the checks on; the command ends after the handle's users (R133). -/
def execMrDeregister (r : Fin 128) (tag : Fin 512) (s : State) : Host.Outcome State Fault Refusal :=
  .next (s.begin r.val tag.val (fun | .mrDeregister .. => true | _ => false) State.deregisterCheck
    (fun c s => match c.par with
      | .mrDeregister h => State.mrGone h c (s.passed c)
      | _ => s)
    (fun c s => match c.par with
      | .mrDeregister h => State.mrGone h c s
      | _ => s))

/-- As much of a copy as the tags of both ends admit now (R130, R134). A read of a poisoned or lost frame moves no byte
and ends the command (R28, R284). -/
def State.copyMore (src dst : BufDesc) (c : Cmd) (s : State) : State :=
  let rt := State.ringTag c.ring c.tag
  let n := min (s.bufReady src c.moved false) (s.bufReady dst c.moved true)
  if n = 0 then s
  else
    match s.bufRead c.part rt 2 src c.moved n with
    | (st, bs, s1) =>
      if st = waiting then s
      else if st ≠ 0 then s1.finish c.ring c.tag st 0
      else
        match s1.bufWrite c.part rt dst c.moved bs with
        | (st2, s2) =>
          if st2 = waiting then s
          else if st2 ≠ 0 then s2.finish c.ring c.tag st2 0
          else if c.moved + n = src.count then s2.finish c.ring c.tag 0 src.count
          else s2.modCmd c.ring c.tag (fun c => { c with moved := c.moved + n })

/-- The check of DMA_COPY (R129, R134). -/
def State.copyCheck (s : State) (c : Cmd) : Nat :=
  match c.par with
  | .dmaCopy src dst => s.bufsOk c [(src, some false), (dst, some true)]
  | _ => 0

/-- The work of DMA_COPY (R134). -/
def State.copyGo (c : Cmd) (s : State) : State :=
  match c.par with
  | .dmaCopy src dst => State.copyMore src dst c s
  | _ => s

/-- DMA_COPY: bytes copied between buffers through the host DMA path; RESULT is the bytes moved (R134). -/
def execDmaCopy (r : Fin 128) (tag : Fin 512) (s : State) : Host.Outcome State Fault Refusal :=
  .next (s.gated (r.val / 16) (.dmaCopy r tag)
    (s.begin r.val tag.val (fun | .dmaCopy .. => true | _ => false) State.copyCheck State.copyGo State.copyGo))

end Sys2Proof.Machine
end

