-- ==== Sys2Proof/Machine/Trace.lean ====
section
/-! DEFINITION. Digest reads (R310), the trace's commands, triggers and events (R315-R319) and the event counters' registers
(R320, R321). -/

namespace Sys2Proof.Machine
namespace State

/-! Digest entries (R306, R308, R310) -/

/-- The key of a digest entry: 4,096 places a partition (R308). -/
def digestKey (p i : Nat) : Nat := 4096 * p + i % 4096

/-- The bytes of a digest entry (R306). -/
def digestBytes (d : Digest) : List Byte :=
  leBytes 4 d.index ++ leBytes 4 d.prog ++ leBytes 2 d.ringTag ++ leBytes 2 d.layer ++ leBytes 1 d.role ++ leBytes 1 d.tile ++
    leBytes 1 d.flags ++ leBytes 1 d.fmt ++ leBytes 2 d.instr ++ leBytes 2 d.cut ++ leBytes 4 d.nbytes ++ leBytes 8 d.digest.toNat

/-- The entry of INDEX `i` of partition `p` if it is still held. -/
def digestAt (s : State) (p i : Nat) : Option Digest :=
  let d := tabGet {} s.digests (digestKey p i)
  if d.prog ≠ 0 ∧ d.index = i then some d else none

/-- The entries of [start, start + n) still held, in order (R310). -/
def digestsHeld (s : State) (p start n : Nat) : List Digest :=
  (List.range n).filterMap (fun k => s.digestAt p ((start + k) % 2 ^ 32))

/-- Whether INDEX `i` had already been overwritten, 4,096 places or more before NEXT (R310). -/
def overwritten (next i : Nat) : Bool :=
  let d := (next + 2 ^ 32 - i) % 2 ^ 32
  decide (4096 < d) && decide (d < 2 ^ 31)

/-- What a DG_READ takes at its start: its status and the bytes of the entries still held (R310). -/
def dgTake (s : State) (p start n : Nat) : Nat × List Byte :=
  (if (List.range n).any (fun k => overwritten (s.fget F.DG_PART_NEXT p) ((start + k) % 2 ^ 32)) then 1 else 0,
    ((s.digestsHeld p start n).map digestBytes).flatten)

/-- The write of what a DG_READ took; it waits while no path to its buffer is there (R29, R310). -/
def dgWrite (dest : BufDesc) (c : Cmd) (took : Nat × List Byte) (s : State) : State :=
  let (st, s1) := if took.2 = [] then (0, s) else s.bufWrite c.part (ringTag c.ring c.tag) dest 0 took.2
  if st = waiting then s.modCmd c.ring c.tag (fun c => { c with took := some took })
  else if st ≠ 0 then s1.finish c.ring c.tag st 0
  else s1.finish c.ring c.tag took.1 (took.2.length / 32)

/-- The check of DG_READ: a confidential partition is not read from the physical function (R310). -/
def dgCheck (s : State) (c : Cmd) : Nat :=
  match c.par with
  | .dgRead _ _ d => if s.ringFn c.ring = 0 ∧ s.confid c.part then 0x0401 else s.bufsOk c [(d, some true)]
  | _ => 0

/-- DG_READ's copy (R310). -/
def dgGo (c : Cmd) (s : State) : State :=
  match c.par with
  | .dgRead a n d => dgWrite d c (c.took.getD (s.dgTake c.part a n)) s
  | _ => s

/-! The trace (R315-R319) -/

/-- The partition a record of the funnel itself names: the owner's, for a VF's trace (R314). -/
def tracePart (s : State) : Option Nat :=
  match s.fget F.TRC_STAT_OWNER 0 with
  | 0 => none
  | n + 1 => some n

/-- A record of the funnel itself, and the snapshot that EVC_CTRL.SNAP_ON_TRC asks for (R315, R320). -/
def traceMark (s : State) (ty trig : Nat) : State :=
  let s := (s.tracePut (s.traceRec 0x3F ty s.tracePart [(16, trig)])).fset F.TRC_STAT_LAST_TRIG 0 trig
  if s.flag F.EVC_CTRL_SNAP_ON_TRC 0 then s.snapshot else s

/-- The trace STOPPED, a STREAM's remainder written (R315, R318). -/
def traceStopped (s : State) : State :=
  let s := if s.flag F.TRC_STAT_MODE 0 then s.streamDrain else s
  s.fset F.TRC_STAT_STATE 0 4

/-- A stop trigger: acts in RUNNING, where POST × 4 further records follow, with POST = 0 none; one met while ARMED is kept for a
start on the same tick (R315, R316). -/
def traceStop (s : State) (trig : Nat) : State :=
  if s.fget F.TRC_STAT_STATE 0 = 2 then
    let s := (s.traceMark 2 trig).fset F.TRC_STAT_STATE 0 3
    let post := 4 * natBits (s.fget F.TRC_TRIG_TRIG 0) 48 16
    if post = 0 then s.traceStopped else { s with trace := { s.trace with post := post } }
  else if s.fget F.TRC_STAT_STATE 0 = 1 then { s with trace := { s.trace with stopSeen := some (s.ticks, trig) } }
  else s

/-- A start trigger: acts only in ARMED; a stop of the same tick acts after it (R315, R316). -/
def traceStart (s : State) (trig : Nat) : State :=
  if s.fget F.TRC_STAT_STATE 0 = 1 then
    let s1 := (s.traceMark 1 trig).fset F.TRC_STAT_STATE 0 2
    match s.trace.stopSeen with
    | some (t, n) => if t = s.ticks then s1.traceStop n else s1
    | none => s1
  else s

/-- A firing of an alarm slot of partition `p` with ACTION 0x5 or 0x6 and trigger number `arg` (R315, R316). -/
def traceAlarm (s : State) (start : Bool) (p arg : Nat) : State :=
  let own := s.fget F.TRC_STAT_OWNER 0
  if own ≠ 0 ∧ own ≠ p + 1 then s
  else if !(natBit (s.fget F.TRC_TRIG_TRIG 0) (arg + if start then 0 else 16)) then s
  else if start then s.traceStart arg else s.traceStop arg

/-- A debounced rising edge of trigger input `n`: a start in START_IN, then a stop in STOP_IN (R315, R316). -/
def traceInput (s : State) (n : Nat) : State :=
  let t := s.fget F.TRC_TRIG_TRIG 0
  let s := if natBit t (32 + n) then s.traceStart (0x10 + n) else s
  if natBit t (40 + n) then s.traceStop (0x10 + n) else s

/-- The sources a VF of `p` may name: 0x26, and those of its own tiles (R317). -/
def srcOwn (s : State) (p n : Nat) : Bool := n == 0x26 || (decide (n < 0x20) && s.owns p (n % 16))

/-- The conditions of R317 that need the state; the funnel has no path to another device's HBM (R20). -/
def trcStatus (p : TrcParams) (s : State) (c : Cmd) : Nat :=
  let fn := s.ringFn c.ring
  let st := s.fget F.TRC_STAT_STATE 0
  let own := s.fget F.TRC_STAT_OWNER 0
  if fn ≠ 0 ∧ !(s.flag F.KS_PART_ATT_SELF_TRACE c.part) then 0x0401
  else if fn ≠ 0 ∧ (p.charge ≠ c.part ∨ !((bitList p.srcEn.toNat 64).all (s.srcOwn c.part))) then 0x0400
  else if p.op = 2 then if fn ≠ 0 ∧ fn ≠ own then 0x0400 else 0
  else
    let b := if p.op = 1 ∧ p.buf.kind = 1 ∧ p.buf.addr / 2 ^ 36 ≠ s.node then 0x0201
      else if p.op = 1 ∨ p.mode = 1 then s.bufsOk c [(p.buf, some true)] else 0
    if b ≠ 0 then b
    else if p.op = 0 then if st ≠ 0 then 0x0602 else 0
    else if st ≠ 4 ∨ fn ≠ own then 0x0602 else 0

/-- The check of TRC_CFG (R317). -/
def trcCheck (s : State) (c : Cmd) : Nat :=
  match c.par with
  | .trcCfg p => trcStatus p s c
  | _ => 0

/-- CONFIGURE accepted (R317): its function becomes the owner, and the trace is ARMED. -/
def trcConfigure (p : TrcParams) (c : Cmd) (s : State) : State :=
  let s := (s.fset F.TRC_STAT_OWNER 0 (s.ringFn c.ring)).fset F.TRC_STAT_STATE 0 1
  let s := (s.fset F.TRC_STAT_MODE 0 p.mode).fset F.TRC_STAT_WRAPPED 0 0
  let s := (s.fset F.TRC_SRC_SRC_EN 0 p.srcEn.toNat).fset F.TRC_TRIG_TRIG 0 p.trig.toNat
  let s := s.fset F.TRC_CNT_WRITTEN 0 0
  ({ s with trace := { charge := p.charge, part := c.part, stream := p.buf } }).finish c.ring c.tag 0 0

/-- The records [first, first + n) still held, counted like WRITTEN (R317). -/
def traceHeld (s : State) (first n : Nat) : List TraceRec :=
  let w := s.fget F.TRC_CNT_WRITTEN 0
  let len := s.trace.buf.length
  (s.trace.buf.zipIdx.filter (fun e => decide ((w + 2 ^ 33 - len + e.2 - first) % 2 ^ 32 < n))).map (·.1)

/-- READOUT's copy, charged to CHARGE (R21, R317). -/
def trcCopy (p : TrcParams) (c : Cmd) (s : State) : State :=
  let rs := (s.traceHeld p.first p.nrec).take (p.buf.count / 16)
  let bs := (rs.map traceBytes).flatten
  if rs = [] then s.finish c.ring c.tag 0 0
  else if p.buf.kind = 0 then
    let s := { s with host := memWrite s.host ((s.mr c.part p.buf.mr).base + p.buf.addr) bs }
    (s.charge p.charge 4 bs.length).finish c.ring c.tag 0 rs.length
  else
    match s.hbmWrite p.charge (ringTag c.ring c.tag) p.buf.addr bs with
    | (st, s1) => s1.finish c.ring c.tag st rs.length

/-- READOUT of a command (R317). -/
def trcReadout (c : Cmd) (s : State) : State :=
  match c.par with
  | .trcCfg p => trcCopy p c s
  | _ => s

/-- CONFIGURE of a command (R317). -/
def trcSetup (c : Cmd) (s : State) : State :=
  match c.par with
  | .trcCfg p => trcConfigure p c s
  | _ => s

/-- The partitions that the READOUT of a command is charged to (R21, R317). -/
def readoutPays (s : State) (r t : Nat) : List Nat :=
  match s.findCmd r t with
  | none => []
  | some c => match c.par with
    | .trcCfg p => [p.charge]
    | _ => []

/-- The trace empty and IDLE (R315, R319). -/
def traceIdle (s : State) : State := { s.fset F.TRC_STAT_STATE 0 0 with trace := {} }

/-- A tenant switch of `p`: its records become PAD records, and its own VF's trace becomes IDLE (R319). -/
def traceTenant (s : State) (p : Nat) : State :=
  let s := { s with trace := { s.trace with buf := s.trace.buf.map (fun r =>
    if !r.noPart && r.part == p then { src := 0x3F, ty := 4, part := p } else r) } }
  if s.fget F.TRC_STAT_OWNER 0 = p + 1 then s.traceIdle else s

/-! Event counters -/

/-- The number of instances of an event code; an event without an instance takes any QUAL; `none` is reserved (R321). -/
def evcRange (code : Nat) : Option Nat :=
  if code ≤ 0x00F then some 16
  else if (0x020 ≤ code ∧ code ≤ 0x024) ∨ (0x028 ≤ code ∧ code ≤ 0x02C) ∨ (0x030 ≤ code ∧ code ≤ 0x034) then some 8
  else if 0x040 ≤ code ∧ code ≤ 0x11F then some 8192
  else if 0x120 ≤ code ∧ code ≤ 0x123 then some 128
  else if 0x130 ≤ code ∧ code ≤ 0x133 then some 256
  else if 0x140 ≤ code ∧ code ≤ 0x144 then some 112
  else if 0x150 ≤ code ∧ code ≤ 0x153 then some 128
  else if 0x160 ≤ code ∧ code ≤ 0x162 then some 8192
  else if code = 0x170 ∨ code = 0x171 ∨ code = 0x173 then some 8
  else if code = 0x172 ∨ code = 0x174 then some 8192
  else if 0x180 ≤ code ∧ code ≤ 0x182 then some 4
  else if code = 0x190 ∨ code = 0x191 then some 64
  else if (0x1A0 ≤ code ∧ code ≤ 0x1A1) ∨ (0x1B0 ≤ code ∧ code ≤ 0x1B2) ∨ (0x1C0 ≤ code ∧ code ≤ 0x1C7) then some 8192
  else none

/-- A write of EVC_CTRL: SNAP is taken before CLEAR (R320). -/
def evcCtrl (s : State) (v : W32) : State :=
  let s := (s.fset F.EVC_CTRL_RUN 0 (if v.getLsbD 31 then 1 else 0)).fset F.EVC_CTRL_SNAP_ON_TRC 0 (if v.getLsbD 28 then 1 else 0)
  let s := if v.getLsbD 30 then s.snapshot else s
  if v.getLsbD 29 then forEach (List.range 64) (fun k s => s.fset F.EVC_VAL_COUNT k 0) s else s

/-- A write of EVC_CFG; while EN is 1 only one that clears EN and nothing else is taken (R9, R320). -/
def evcCfg (s : State) (k : Nat) (v : W32) : State :=
  let v64 : W64 := v.setWidth 64
  let same := getBits v64 20 9 == s.fget F.EVC_CFG_EVENT k && getBits v64 0 13 == s.fget F.EVC_CFG_QUAL k &&
    getBits v64 30 1 == s.fget F.EVC_CFG_ANY k
  if s.flag F.EVC_CFG_EN k then
    if same && !(v.getLsbD 31) && !(v.getLsbD 29 && s.flag F.EVC_CFG_CFG_ERR k) then s.fset F.EVC_CFG_EN k 0
    else s.accessFault .pf 3 (0xB00100 + k * 0x10) v64
  else
    let ev := getBits v64 20 9
    let ok := match evcRange ev with
      | some n => v.getLsbD 30 || decide (getBits v64 0 13 < n)
      | none => false
    let s := (s.fset F.EVC_CFG_EVENT k ev).fset F.EVC_CFG_QUAL k (getBits v64 0 13)
    let s := s.fset F.EVC_CFG_ANY k (getBits v64 30 1)
    let s := if v.getLsbD 29 then s.fset F.EVC_CFG_CFG_ERR k 0 else s
    if !(v.getLsbD 31) then s else if ok then s.fset F.EVC_CFG_EN k 1 else s.fset F.EVC_CFG_CFG_ERR k 1

end State

open State

/-- DG_READ: held digest entries copied; from the physical function a confidential partition gives 0x0401 (R310). -/
def execDgRead (r : Fin 128) (tag : Fin 512) (s : State) : Host.Outcome State Fault Refusal :=
  .next (s.gated (r.val / 16) (.dgRead r tag)
    (s.begin r.val tag.val (fun | .dgRead .. => true | _ => false) dgCheck dgGo dgGo))

/-- CONFIGURE of TRC_CFG (R317). -/
def execTraceConfigure (r : Fin 128) (tag : Fin 512) (s : State) : Host.Outcome State Fault Refusal :=
  .next (s.begin r.val tag.val (fun | .trcCfg p => p.op == 0 | _ => false) trcCheck trcSetup (fun _ s => s))

/-- READOUT of TRC_CFG (R317). -/
def execTraceReadout (r : Fin 128) (tag : Fin 512) (s : State) : Host.Outcome State Fault Refusal :=
  .next (s.gatedAll (s.readoutPays r.val tag.val) (.traceReadout r tag)
    (s.begin r.val tag.val (fun | .trcCfg p => p.op == 1 | _ => false) trcCheck trcReadout (fun _ s => s)))

/-- TRACE_RELEASE: the buffer is emptied and the trace is IDLE, in any state (R317). -/
def execTraceRelease (r : Fin 128) (tag : Fin 512) (s : State) : Host.Outcome State Fault Refusal :=
  .next (s.begin r.val tag.val (fun | .trcCfg p => p.op == 2 | _ => false) trcCheck
    (fun c s => s.traceIdle.finish c.ring c.tag 0 0) (fun _ s => s))

/-- TRACE_POST_END: the POST count is reached; a STREAM's remainder is written, and the trace is STOPPED (R315, R318). -/
def execTracePostEnd (s : State) : Host.Outcome State Fault Refusal :=
  .next (
    if s.fget F.TRC_STAT_STATE 0 = 3 ∧ s.trace.post = 0 then s.gated s.trace.charge .tracePostEnd s.traceStopped else s)

/-- TRACE_LOST_RECORD: one LOST record for a source that lost records, with their count (R313). -/
def execTraceLostRecord (src : Fin 64) (s : State) : Host.Outcome State Fault Refusal :=
  .next (
    let n := tabGet 0 s.trace.fifoLost src.val
    let st := s.fget F.TRC_STAT_STATE 0
    if n ≠ 0 ∧ (st = 2 ∨ st = 3 ∧ 0 < s.trace.post) then
      let s := { s with trace := { s.trace with fifoLost := tabSet 0 s.trace.fifoLost src.val 0
                                                post := if st = 3 then s.trace.post - 1 else s.trace.post } }
      s.tracePut (s.traceRec 0x3F 3 s.tracePart [(16, src.val), (16, n)])
    else s)

/-- STREAM_FLUSH: the funnel has been idle for 10 µs, and the remainder is written (R318). -/
def execStreamFlush (s : State) : Host.Outcome State Fault Refusal :=
  .next (
    let st := s.fget F.TRC_STAT_STATE 0
    if s.flag F.TRC_STAT_MODE 0 ∧ (st = 2 ∨ st = 3) ∧ s.trace.buf ≠ [] then s.gated s.trace.charge .streamFlush s.streamDrain
    else s)

/-- HOST_WRITE_ERROR: a STREAM write answered with an error sets STOPPED; what is unwritten is kept (R318). -/
def execHostWriteError (err : HostErr) (s : State) : Host.Outcome State Fault Refusal :=
  .next (
    let st := s.fget F.TRC_STAT_STATE 0
    if s.flag F.TRC_STAT_MODE 0 ∧ (st = 2 ∨ st = 3) then
      let own := s.fget F.TRC_STAT_OWNER 0
      let cause := match err with
        | .unsupported => 1
        | .abort => 2
        | .poisoned => 3
      (s.fset F.TRC_STAT_STATE 0 4).fault
        { cls := 9, action := 0, part := if own = 0 then 0xFF else own - 1, unit := own, cause := cause
          info0 := BitVec.ofNat 64 (s.streamAddr (256 + s.trace.written % s.streamRecs * 16)) }
    else s)

/-- EVC SNAP: a write of EVC_CTRL with SNAP (R320). -/
def execEvcSnap (v : W32) (s : State) : Host.Outcome State Fault Refusal :=
  .next (s.bar (s.evcCtrl (v ||| 0x40000000#32)))

/-- EVC CLEAR: a write of EVC_CTRL with CLEAR (R320). -/
def execEvcClear (v : W32) (s : State) : Host.Outcome State Fault Refusal :=
  .next (s.bar (s.evcCtrl (v ||| 0x20000000#32)))

/-- EVC_CFG_WRITE (R320, R321). -/
def execEvcCfgWrite (k : Fin 64) (v : W32) (s : State) : Host.Outcome State Fault Refusal :=
  .next (s.bar (s.evcCfg k.val v))

end Sys2Proof.Machine
end

