-- ==== Sys2Proof/Machine/Runs.lean ====
section
/-! DEFINITION. Programs and runs: loading, queueing and starting (R135, R158-R160, R187), and the end of a run on every
path (R154, R169, R278). -/

namespace Sys2Proof.Machine
namespace State

/-- The loaded program of a handle (R187). -/
def prog (s : State) (h : Nat) : Option Prog := s.progs.find? (fun p => p.handle == h)

/-- A run by its number. -/
def runOf (s : State) (id : Nat) : Option Run := s.runs.find? (fun r => r.id == id)

/-- One run replaced. -/
def modRun (s : State) (id : Nat) (f : Run → Run) : State :=
  { s with runs := s.runs.map (fun r => if r.id == id then f r else r) }

/-- One tile's sequencer state changed. -/
def modTile (s : State) (t : Nat) (f : Tile → Tile) : State := s.setTile t (f (s.tile t))

/-- PT_STAT.STATE of a tile that is not retired (R186). -/
def setState (s : State) (t st : Nat) : State := if s.retired t then s else s.fset F.PT_STAT_STATE t st

/-- A start queue and its length in STARTQ (R159, R186). -/
def setStartQ (s : State) (t : Nat) (q : List Nat) : State :=
  (s.modTile t (fun x => { x with startQ := q })).fset F.PT_STAT_STARTQ t q.length

/-- Whether a program is pinned on tile `t` (R158). -/
def pinned (p : Prog) (t : Nat) : Bool := natBit p.pins t

/-- The instructions a tile's store has left: every pinned program reserves its longest role, and a run of a program
not pinned there its role (R158). -/
def freeStore (s : State) (t : Nat) : Nat :=
  let pins := ((s.progs.filter (fun p => pinned p t)).map (fun p => p.image.size)).sum
  let copy := match (s.tile t).run.bind s.runOf with
    | some r => match s.prog r.prog with
      | some p => if pinned p t then 0 else (p.image.role (s.tile t).role).instrs.length
      | none => 0
    | none => 0
  4096 - pins - copy

/-- RING_TAG of a run: of its PROG_RUN, or its alarm slot (R306). -/
def runTag (r : Run) : Nat :=
  match r.cmd with
  | some (q, t) => ringTag q t
  | none => r.slot.getD 0

/-- RING_TAG in a fault record: 0xFFFF when no command is concerned (R262). -/
def runRt (r : Run) : Nat :=
  match r.cmd with
  | some (q, t) => ringTag q t
  | none => 0xFFFF

/-! Stay cores -/

/-- BUSY and KERNEL of a Stay core (R186). -/
def setStayStat (s : State) (t c busy kernel : Nat) : State :=
  if c = 0 then (s.fset F.PT_STAY_BUSY0 t busy).fset F.PT_STAY_KERNEL0 t kernel
  else (s.fset F.PT_STAY_BUSY1 t busy).fset F.PT_STAY_KERNEL1 t kernel

/-- Whether a Stay core is running (R186). -/
def stayBusy (s : State) (t c : Nat) : Bool := if c = 0 then s.flag F.PT_STAY_BUSY0 t else s.flag F.PT_STAY_BUSY1 t

/-- A kernel stopped: its wait ends and its lock is released ABANDONED (R183, R277, R278). -/
def stayStop (s : State) (t c : Nat) : State :=
  let k := s.stay t c
  let s := s.dropWaiters (fun w => w == .stay t c)
  let s := s.abandonWhere (fun _ kind id => kind == 2 && id % 32 == t + 16 * c)
  (s.setStay t c { k with owner := none, lock := none, lockHeld := false, abandoned := false, waitSlot := none
                          params := [] }).setStayStat t c 0 0

/-- The kernels a run started, stopped (R277, R278). -/
def staysStop (s : State) (id : Nat) : State :=
  forEach (List.range 16) (fun t s => forEach (List.range 2) (fun c s =>
    if (s.stay t c).owner == some (.prog id) then s.stayStop t c else s) s) s

/-! The end of a run -/

/-- A role of the run leaves its tile: the tile is idle, its PT_RUN reads 0. -/
def tileFree (s : State) (t : Nat) : State :=
  let x := s.tile t
  ((s.setTile t { startQ := x.startQ, fails := 0 }).setState t 0).rset .PT_RUN t 0

/-- The run buffers that a run's DRAINs write: its outputs in HBM (R166, R281). -/
def runOutputs (s : State) (r : Run) : List BufDesc :=
  match s.prog r.prog with
  | none => []
  | some g =>
    ((g.image.roles.map (fun q => q.instrs.filterMap (fun i =>
      match r.bufs[natBits (iP8 i) 0 6]?, g.image.opd (iSrc0 i) with
      | some b, some o =>
        if iOp i = 0x11 ∧ !(natBit (iP8 i) 7) ∧ iImm i * 256 + o.nslots * 256 ≤ b.count then
          some { b with addr := b.addr + iImm i * 256, count := o.nslots * 256 }
        else none
      | _, _ => none))).flatten)

/-- The completion of a run's command, with its digests and REPLAY (R143, R309). -/
def finishRun (s : State) (r : Run) (status : Nat) : State :=
  let status := if status = 0 ∧ r.warn then 1 else status
  match r.cmd with
  | some (q, t) =>
    (s.modCmd q t (fun c => { c with replay := r.replay, digest := r.last.isSome })).finish q t status
      (r.last.getD 0xFFFFFFFF)
  | none => s

/-- A role stopped before its end: its waits end, its held digests go, its locks are released ABANDONED (R278, R307;
log entry 41). -/
def roleStop (id status t : Nat) (s : State) : State :=
  if (s.tile t).run == some id then
    let s := s.dropWaiters (fun w => w == .tile t)
    let s := s.abandonWhere (fun _ kind x => kind == 1 && x == t)
    let part := match s.runOf id with
      | some r => some r.part
      | none => none
    (s.traceEv t 0x18 part [(16, status)]).tileFree t
  else s

/-- A run that ends before its last role's END: every role stops, its queued starts go, and its command ends with
`status`; the outputs of a run ended by a fault or a reset are undefined (R154, R169, R235, R278, R281). -/
def runStop (s : State) (id status : Nat) : State :=
  match s.runOf id with
  | none => s
  | some r =>
    let s := if r.begun && [0x0501, 0x0503, 0x0601].contains status then
        forEach (s.runOutputs r) (undefBuf r.part) s
      else s
    let s := forEach (List.range 16) (roleStop id status) (s.staysStop id)
    let s := forEach (List.range 16) (fun t s =>
      if (s.tile t).startQ.contains id then s.setStartQ t ((s.tile t).startQ.filter (· != id)) else s) s
    { s with runs := s.runs.filter (fun x => x.id != id) }.finishRun r status

/-! Digests (R306-R309) -/

/-- One held digest entered in the partition's ring at a cut, or at the run's end (R306-R309). -/
def commitDigest (id p cut : Nat) (marked : Bool) (d : Digest) (s : State) : State :=
  let n := s.fget F.DG_PART_NEXT p
  let d := { d with index := n, cut := cut, flags := d.flags + if marked then 2 else 0 }
  let s := { s with digests := tabSet {} s.digests (digestKey p n) d }
  (s.fadd F.DG_PART_NEXT p 1).modRun id (fun r => { r with last := some n })

/-- The held digests of every role, of those that have ended too, enter the ring by role and then by layer (R307). -/
def commitDigests (s : State) (r : Run) (cut : Nat) : State :=
  let ds := r.held ++ (r.tiles.map (fun t => if (s.tile t).run == some r.id then (s.tile t).held else [])).flatten
  let s := forEach (sortBy (fun a b => decide (a.role < b.role ∨ (a.role = b.role ∧ a.layer ≤ b.layer))) ds)
    (commitDigest r.id r.part cut r.marked) s
  let s := forEach r.tiles (fun t s =>
    if (s.tile t).run == some r.id then s.modTile t (fun y => { y with held := [], spanHeld := 0 }) else s) s
  s.modRun r.id (fun r => { r with held := [] })

/-- The number of the run's END as a cut: the one after the last (R306). -/
def endCut (s : State) (r : Run) : Nat := ((s.prog r.prog).map (fun g => g.image.cuts.length)).getD 1

/-- A run that has ended by itself: the held digests enter the ring, tiles that still run a role of it are free, and its command
completes (R135, R208, R307, R309). -/
def endRun (s : State) (r : Run) : State :=
  let s := s.commitDigests r (s.endCut r)
  let s := forEach r.tiles (fun t s =>
    if (s.tile t).run == some r.id then
      (s.traceEv t 0x18 (some r.part) [(16, if r.warn then 1 else 0)]).tileFree t
    else s.setStartQ t ((s.tile t).startQ.filter (· != r.id))) s
  { s with runs := s.runs.filter (fun x => x.id != r.id) }.finishRun ((s.runOf r.id).getD r) 0

/-- A role's END: its tile is free and the run keeps its digests; the run ends when every role has ended (R135, R164, R307,
R309). -/
def roleEnd (s : State) (r : Run) (t : Nat) : State :=
  let held := (s.tile t).held
  let s := (s.traceEv t 0x18 (some r.part) [(16, if r.warn then 1 else 0)]).tileFree t
  let s := s.modRun r.id (fun r => { r with ended := r.ended ++ [t], held := r.held ++ held })
  match s.runOf r.id with
  | some r =>
    if r.tiles.all (fun t => r.ended.contains t) then s.endRun r else s
  | none => s

/-! Queueing -/

/-- A run put into a start queue: an alarm start goes before every command start (R159). -/
def enqueue (s : State) (r : Run) (t : Nat) : State :=
  let q := (s.tile t).startQ
  let alarm := fun id => ((s.runOf id).map (fun x => x.slot.isSome)).getD false
  if r.slot.isSome then s.setStartQ t (q.takeWhile alarm ++ [r.id] ++ q.dropWhile alarm) else s.setStartQ t (q ++ [r.id])

/-- A new run in every queue of its tiles. -/
def addRun (s : State) (r : Run) : State :=
  let r := { r with id := s.nextRun, lead := r.tiles.headD 0 }
  let s := { s with runs := s.runs ++ [r], nextRun := s.nextRun + 1 }
  forEach r.tiles (fun t s => s.enqueue r t) s

/-- Whether every tile's start queue has room (R159). -/
def queueRoom (s : State) (ts : List Nat) : Bool := ts.all (fun t => decide ((s.tile t).startQ.length < 8))

/-- The check of a named tile: 0x0400 outside the partition, 0x0300 fused off or retired (R135, R187). -/
def tileCheck (s : State) (p : Nat) (ts : List Nat) : Nat × Nat :=
  (if ts.any (fun t => s.fused t && s.tileOwner t != some p) then 0x0400 else 0,
   if ts.any (fun t => !(s.fused t) || s.retired t) then 0x0300 else 0)

/-- The run-time dimensions: a field not declared must be 0, a declared one from 1 to its maximum (R135). -/
def dimsCheck (im : Image) (ds : List Nat) : Nat :=
  let e := ds.zipIdx
  if e.any (fun (d, k) => Config.declaresDim im k && d == 0) then 0x0107
  else if e.any (fun (d, k) =>
      if Config.declaresDim im k then decide (im.dimMax.getD k 0 < d) else d != 0) then 0x0108
  else 0

/-- The checks of a run's parameters for partition `p`, in the order of R126 (R135). -/
def runCheck (s : State) (p : Nat) (q : RunParams) : Nat :=
  match s.prog q.prog with
  | none => 0x0108
  | some g =>
    let ts := bitList q.tiles 16
    let (sec, res) := s.tileCheck p ts
    firstBad [if g.part ≠ p then 0x0108 else 0, dimsCheck g.image q.dims,
      if ts.length ≠ g.image.roles.length then 0x0108 else 0, sec, s.bufsCheck p (q.bufs.map (fun b => (b, none))), res]

/-- An alarm's program start: dropped when a queue is full, otherwise queued before the command starts (R159). -/
def alarmStart (s : State) (k p : Nat) : State :=
  let q := tabGet {} s.entries k
  let ts := q.byRole
  if q.prog = 0 then s
  else if s.queueRoom ts then
    s.addRun { prog := q.prog, part := p, slot := some k, tiles := ts, bufs := q.bufs, dims := q.dims }
  else
    forEach (ts.filter (fun t => decide (8 ≤ (s.tile t).startQ.length))) (fun t s =>
      ((s.fadd F.PT_STAT_START_DROP t 1).fset F.PT_STAT_DROP_EV t 1).count 0x00E (some t) (some p) 1) s

/-! Starting -/

/-- Whether the regions in force on a tile equal a declared layout (R175). -/
def layoutInForce (s : State) (t : Nat) (l : List RegionDecl) : Bool :=
  (List.range 16).all (fun g => match layoutCfg l g with
    | some c => (s.rget .DK_RGN_CFG (rgnIdx t g)).setWidth 32 == c
    | none => !(s.flag F.DK_RGN_CFG_EN (rgnIdx t g)))

/-- The semaphores a role names, the locks of its kernels among them (R161, R164, R171, R180). -/
def roleSems (r : Role) : List Nat :=
  (r.instrs.map (fun i =>
    (if iWaitEn i || [0x18, 0x1A, 0x1B].contains (iOp i) then [iWsem i] else []) ++
      (if iSigEn i || iOp i == 0x19 then [iSsem i] else []) ++ (kernLock i).toList)).flatten

/-- The checks of a run before its first tile starts: its layout (0x0602) and its semaphores (0x0400) (R175, R180). -/
def beginCheck (s : State) (r : Run) (g : Prog) : Nat :=
  let roles := g.image.roles.zip r.tiles
  if roles.any (fun (q, t) => !(s.layoutInForce t q.layout)) then 0x0602
  else if roles.any (fun (q, _) => (roleSems q).any (fun n => !(s.semOk n r.part))) then 0x0400
  else 0

/-- The copy of a role's instructions into a tile's store, with the CRC of the image checked again (R158, R187). -/
def copyRole (s : State) (r : Run) (g : Prog) (t len : Nat) : Nat × State :=
  if s.freeStore t < len then (0x0302, s)
  else match s.hbmRead r.part 1 (runRt r) g.src.addr g.src.count with
    | (st, bs, s1) => if st ≠ 0 then (st, s1) else if crc32c bs = g.crc then (0, s1) else (0x0402, s1)

/-- Whether some slot of a tile's region is full. -/
def anyFull (s : State) (t g : Nat) : Bool :=
  let i := rgnIdx t g
  (List.range (s.fget F.DK_RGN_CFG_COUNT_M1 i + 1)).any (fun k => s.isFull t (s.fget F.DK_RGN_CFG_BASE i + k))

/-- Which TAGGED regions of a tile something outside the run that begins there has fed already (R277 step 3; log entry 42). -/
def feedStart (s : State) (t : Nat) : State :=
  forEach (List.range 16) (fun g s =>
    { s with fedOut := tabSet false s.fedOut (rgnIdx t g) (s.tagged t g && s.anyFull t g) }) s

/-- A tile begins its role of the run at the head of its queue (R159, R186). -/
def startRole (s : State) (r : Run) (t : Nat) : State :=
  let q := (s.tile t).startQ
  let s := s.feedStart t
  let s := (s.setTile t { run := some r.id, role := r.tiles.idxOf t }).setStartQ t (q.drop 1)
  let s := ((s.setState t 1).rset .PT_RUN t 0).fset F.PT_RUN_PROG t r.prog
  let s := s.modRun r.id (fun r => { r with begun := true })
  let s := if r.slot.isSome then s.count 0x00D (some t) (some r.part) 1 else s
  s.traceEv t 0x10 (some r.part) [(32, r.prog), (16, runTag r)]

/-- The start of the run at the head of a tile's queue (R158, R159, R175, R180, R187). -/
def startHead (s : State) (t : Nat) : State :=
  match ((s.tile t).startQ.head?).bind s.runOf with
  | none => s
  | some r =>
    match s.prog r.prog with
    | none => s.runStop r.id 0x0108
    | some g =>
      let st := if r.begun then 0 else s.beginCheck r g
      if st ≠ 0 then s.runStop r.id st
      else if pinned g t then s.startRole r t
      else match s.copyRole r g t (g.image.role (r.tiles.idxOf t)).instrs.length with
        | (st, s1) => if st = waiting then s else if st ≠ 0 then s1.runStop r.id st else s1.startRole r t

end State

open State

/-- RUN_START: a tile that is idle takes the head of its start queue (R159). -/
def execRunStart (t : Fin 16) (s : State) : Host.Outcome State Fault Refusal :=
  .next (s.gated ((s.tileOwner t.val).getD 8) (.runStart t) (
    if s.fget F.PT_STAT_STATE t.val ≠ 0 ∨ (s.tile t.val).run ≠ none ∨
        ((s.tileOwner t.val).map s.resetBusy).getD true then s
    else s.startHead t.val))

/-- The checks of PROG_LOAD that need no image: the pinned tiles and the image's bounds (R187). -/
def State.loadCheck (s : State) (c : Cmd) : Nat :=
  match c.par with
  | .progLoad d pin =>
    let (sec, res) := s.tileCheck c.part (bitList pin 16)
    firstBad [sec, s.bufsOk c [(d, some false)], res]
  | _ => 0

/-- The image read, checked and recorded, or refused (R163, R187). -/
def State.loadImage (d : BufDesc) (pin : Nat) (c : Cmd) (s : State) : State :=
  match s.bufRead c.part (State.ringTag c.ring c.tag) 2 d 0 d.count with
  | (st, bs, s1) =>
    if st = waiting then s
    else if st ≠ 0 then s1.finish c.ring c.tag st 0
    else match Config.parseImage bs with
      | none => s1.finish c.ring c.tag 0x0108 0
      | some im =>
        let chk := checkImage im
        if chk ≠ 0 then s1.finish c.ring c.tag chk 0
        else if 64 ≤ (s1.progs.filter (fun p => p.part == c.part)).length ∨
            (bitList pin 16).any (fun t => decide (s1.freeStore t < im.size)) then s1.finish c.ring c.tag 0x0302 0
        else
          let h := s1.nextProg
          let g : Prog := { handle := h, part := c.part, image := im, crc := crc32c bs, src := d, pins := pin }
          { s1 with progs := s1.progs ++ [g], nextProg := h + 1 }.finish c.ring c.tag 0 h

/-- The work of PROG_LOAD (R187). -/
def State.loadGo (c : Cmd) (s : State) : State :=
  match c.par with
  | .progLoad d pin => State.loadImage d pin c s
  | _ => s

/-- PROG_LOAD: an image checked, its CRC recorded, and its instructions pinned; RESULT is the handle (R187). -/
def execProgLoad (r : Fin 128) (tag : Fin 512) (s : State) : Host.Outcome State Fault Refusal :=
  .next (s.gated (r.val / 16) (.progLoad r tag)
    (s.begin r.val tag.val (fun | .progLoad .. => true | _ => false) State.loadCheck State.loadGo State.loadGo))

/-- The run of a command enters the queues once each has room; until then the command waits (R159). -/
def State.queueRun (c : Cmd) (s : State) : State :=
  match c.par with
  | .progRun q =>
    let ts := bitList q.tiles 16
    if s.runs.any (fun x => x.cmd == some (c.ring, c.tag)) || !(s.queueRoom ts) then s
    else s.addRun { prog := q.prog, part := c.part, cmd := some (c.ring, c.tag), tiles := ts, bufs := q.bufs, dims := q.dims }
  | _ => s

/-- The checks of PROG_RUN: all at fetch, the program and the tiles again where it starts (R126, R135). -/
def State.progRunCheck (s : State) (c : Cmd) : Nat :=
  match c.par with
  | .progRun q => s.runCheck c.part (if c.checked then { q with bufs := [] } else q)
  | _ => 0

/-- PROG_RUN: a loaded program queued on its tiles (R135, R159). -/
def execProgRun (r : Fin 128) (tag : Fin 512) (s : State) : Host.Outcome State Fault Refusal :=
  .next (s.begin r.val tag.val (fun | .progRun .. => true | _ => false) State.progRunCheck State.queueRun State.queueRun)

/-- Whether a program is in use: a run of it queued or running, or an armed alarm that names it (R187). -/
def State.progInUse (s : State) (h : Nat) : Bool :=
  s.runs.any (fun r => r.prog == h) ||
    s.entries.any (fun (k, q) => q.prog == h && s.flag F.BR_AL_STAT_ARMED k && s.fget F.BR_AL_CFG_ACTION k == 1)

/-- The check of PROG_UNLOAD: a program of the partition that is not in use (R187). -/
def State.unloadCheck (s : State) (c : Cmd) : Nat :=
  match c.par with
  | .progUnload h =>
    match s.prog h with
    | some g => if g.part ≠ c.part then 0x0108 else if s.progInUse h then 0x0602 else 0
    | none => 0x0108
  | _ => 0

/-- PROG_UNLOAD: a program unloaded, unless it is in use (R187). -/
def execProgUnload (r : Fin 128) (tag : Fin 512) (s : State) : Host.Outcome State Fault Refusal :=
  .next (s.begin r.val tag.val (fun | .progUnload .. => true | _ => false) State.unloadCheck
    (fun c s => match c.par with
      | .progUnload h => { s with progs := s.progs.filter (fun p => p.handle != h) }.finish c.ring c.tag 0 0
      | _ => s)
    (fun _ s => s))

end Sys2Proof.Machine
end

