-- ==== Sys2Proof/Machine/Sequencer.lean ====
section
/-! DEFINITION. The sequencer of a tile: waits, issue, spans, cut barriers, deferred tags and layer digests (R161,
R167-R169, R176, R273-R275, R304-R309). -/

namespace Sys2Proof.Machine

/-- What an instruction's own effect answers: done, with the codes of its output and their width; not yet; or the end of
the run with a status. -/
inductive Did where
  | ok (s : State) (bits : Nat) (out : List Nat)
  | wait (s : State)
  | stop (s : State) (status : Nat)

/-- An instruction in issue: its tile, its run, the program and role, and the instruction. -/
structure Issue where
  t : Nat
  r : Run
  g : Prog
  i : W128
  deriving Inhabited

namespace Issue

def im (x : Issue) : Image := x.g.image
def ring (x : Issue) : Bool := x.im.ring
def role (x : Issue) (s : State) : Role := x.im.role (s.tile x.t).role

/-- Descriptor `k` with the run's dimensions filled in (R135, R162). -/
def opd (x : Issue) (k : Nat) : Opd := ((x.im.opd k).getD {}).bind x.r.dims

/-- The operand of descriptor `k` on this tile. -/
def view (x : Issue) (s : State) (k : Nat) : View := s.view x.t x.ring (x.opd k)

end Issue

namespace State

/-- The instruction a tile would issue next: running, not restoring, not at a barrier, its partition not in reset. -/
def current (s : State) (t : Nat) : Option Issue :=
  match (s.tile t).run.bind s.runOf with
  | none => none
  | some r =>
    if r.restoring || (s.tile t).atBarrier || s.fget F.PT_STAT_STATE t != 1 || s.resetBusy r.part then none
    else match s.prog r.prog with
      | none => none
      | some g => ((g.image.role (s.tile t).role).ins (s.fget F.PT_RUN_INDEX t)).map (fun i => { t := t, r := r, g := g, i := i })

/-! Tags (R168, R176) -/

/-- Whether an instruction's DST lies in another Deck or in HBM: an XFER's, and a reduction's whose target is not its own Deck
(R164, R176; log entry 13). -/
def dstAway (i : W128) : Bool := iOp i == 0x12 || ((iOp i == 0x0C || iOp i == 0x0D) && Config.reduceTarget i % 4 != 0)

/-- The operands that a Girder program reads or writes in its own Deck under their TAGMODE. -/
def tagOpds (x : Issue) : List Opd :=
  let dst := if dstAway x.i then [] else [iDst x.i]
  let fin := if isFinal x.i then [iDst x.i + 1] else []
  ((dst ++ fin ++ [iSrc0 x.i, iSrc1 x.i, iAux x.i]).filter (fun k => (x.im.opd k).isSome)).map x.opd

/-- The first slot that is not as an operand needs it: its number and the tag waited for (R176). -/
def tagNeed (s : State) (x : Issue) : Option (Nat × Nat × Bool) :=
  ((tagOpds x).filterMap (fun o =>
    if o.tagmode = 0 then none
    else
      let want := o.tagmode != 3
      ((s.opdSlots x.t o).find? (fun k => s.isFull x.t k != want)).map (fun k => (o.region, k, want)))).head?

/-- The tag changes an instruction defers to the end of its span: a slot consumed becomes empty, one produced full. A DRAIN
empties what it reads, under PEEK too; a FILL has set its slots full when they landed (R168, R176). -/
def tagDefer (s : State) (x : Issue) : List (Nat × Bool) :=
  ((tagOpds x).map (fun o =>
    if o.tagmode = 1 ∨ (o.tagmode = 2 ∧ iOp x.i = 0x11) then (s.opdSlots x.t o).map (fun k => (k, false))
    else if o.tagmode = 3 ∧ iOp x.i ≠ 0x10 then (s.opdSlots x.t o).map (fun k => (k, true))
    else [])).flatten

/-- A wait on a tag: WAIT_TAG and its trace record (R176, R186, R311). -/
def waitTag (s : State) (t part deck region slot : Nat) (want : Bool) : State :=
  let s := s.modTile t (fun y => { y with waitSlot := some (slotKey deck slot, want) })
  (s.setState t 2).traceEv t 0x13 (some part) [(16, region), (16, slot)]

/-- A wait on a semaphore: WAIT_SEM and its trace record (R181, R186, R311). -/
def waitSem (s : State) (t part n : Nat) : State := (s.setState t 3).traceEv t 0x14 (some part) [(16, n)]

/-! Digests (R304-R309) -/

/-- The digest of a LAYER_END instruction, held by its tile; that of a cut span replayed after its cut's release has entered the
ring already (R304-R307; log entry 42). -/
def holdDigest (s : State) (x : Issue) (bits : Nat) (out : List Nat) : State :=
  let y := s.tile x.t
  let n := s.fget F.PT_RUN_INDEX x.t
  let bs := packCodes bits out
  let d : Digest :=
    { prog := x.r.prog, ringTag := runTag x.r, layer := (x.role s).layerOf n, role := y.role, tile := x.t
      flags := (if markedOp (iOp x.i) then 1 else 0) + (if y.replayed || x.r.rolled then 4 else 0) +
        (if x.r.slot.isSome then 8 else 0)
      fmt := iFmtOut x.i, instr := n, nbytes := bs.length, digest := digestOf bs }
  let s := if y.passed then s else s.modTile x.t (fun y => { y with held := y.held ++ [d] })
  (s.count 0x008 (some x.t) (some x.r.part) 1).traceEv x.t 0x16 (some x.r.part) [(16, d.layer), (32, d.digest.toNat % 2 ^ 32)]

/-! Spans -/

/-- A span retires: its deferred tags take effect together, and the next span begins; behind a cut span, nothing taken or
locked before the cut is given back any more (R167, R168, R268, R277). -/
def retireSpan (s : State) (r : Run) (t : Nat) : State :=
  let y := s.tile t
  let s := forEach y.deferred (fun (k, v) s => s.setFull t k v) s
  let s := (s.count 0x005 (some t) (some r.part) 1).traceEv t 0x11 (some r.part)
    [(16, s.fget F.PT_RUN_SPAN t), (32, s.fget F.PT_RUN_INDEX t)]
  let s := s.fadd F.PT_RUN_SPAN t 1
  let taken := if y.passed then [] else y.taken
  let locks := if y.passed then [] else y.locks
  s.modTile t (fun y => { y with deferred := [], filled := [], spanFrom := s.fget F.PT_RUN_INDEX t, spanLoop := y.loop
                                 fails := 0, inTail := false, passed := false, spanDone := false, replayed := false
                                 spanHeld := y.held.length, taken := taken, locks := locks
                                 spanTaken := taken.length, spanLocks := locks.length })

/-- A signal of a tile program; one aimed at a lock ends the run with 0x0501 (R180, R182). -/
def tileSignal (s : State) (x : Issue) (n k : Nat) : Did :=
  if !(s.semOk n x.r.part) then .stop s 0x0400
  else if s.semLock n then .stop s 0x0501
  else .ok (s.semAdd n k) 0 []

/-- An instruction has taken effect: it is counted, its tags are deferred, its digest held, its signal given, and the
index moves on; SPAN_END retires the span, or waits at the barrier when it ends a cut span with no tail (R161, R168,
R269, R275, R304). -/
def retire (s : State) (x : Issue) (bits : Nat) (out : List Nat) : State :=
  let t := x.t
  let n := s.fget F.PT_RUN_INDEX t
  let s := s.count 0x004 (some t) (some x.r.part) 1
  let s := if markedOp (iOp x.i) then
      (s.count 0x007 (some t) (some x.r.part) 1).modRun x.r.id (fun r => { r with marked := true })
    else s
  let s := if iLayerEnd x.i then s.holdDigest x bits out else s
  let ds := s.tagDefer x
  let y := s.tile t
  let (m, l) := nextIns y.loop x.i n
  let cut := x.im.cutSpan y.role (s.fget F.PT_RUN_SPAN t)
  let s := s.setTile t { y with loop := l, deferred := y.deferred ++ ds, granted := false, reqDone := false, moved := 0, onPath := false }
  let s := s.fset F.PT_RUN_INDEX t m
  if iOp x.i = 0x2F then (s.retireSpan x.r t).roleEnd x.r t
  else if iSpanEnd x.i then
    if cut && !y.passed then s.modTile t (fun y => { y with atBarrier := true, spanDone := true }) else s.retireSpan x.r t
  else s

/-! Issue -/

/-- Whether a WAIT_EN is still to be met (R161). -/
def waitFirst (s : State) (x : Issue) : Bool := iWaitEn x.i && !((s.tile x.t).granted)

/-- A taken count or lock remembered, for a replay or a rollback that gives it back (R277; log entry 42). -/
def rememberTake (s : State) (t n k : Nat) : State := s.modTile t (fun y => { y with taken := y.taken ++ [(n, k)] })

/-- The WAIT_EN of an instruction: a count of 1 taken, or a wait (R161). -/
def issueWait (s : State) (x : Issue) : State :=
  let n := iWsem x.i
  if !(s.semOk n x.r.part) then s.runStop x.r.id 0x0400
  else if s.semLock n then s.runStop x.r.id 0x0501
  else match s.semRequest n { who := .tile x.t, n := 1 } with
    | (true, s) => (s.rememberTake x.t n 1).modTile x.t (fun y => { y with granted := true })
    | (false, s) => s.waitSem x.t x.r.part n

/-- An instruction's effect, its signal and its retirement, or the wait or the end of the run it answers. -/
def issueDo (s : State) (x : Issue) (f : Issue → State → Did) : State :=
  match f x s with
  | .wait s => s
  | .stop s st => s.runStop x.r.id st
  | .ok s bits out =>
    if iSigEn x.i then
      match s.tileSignal x (iSsem x.i) 1 with
      | .ok s _ _ => s.retire x bits out
      | .wait s => s
      | .stop s st => s.runStop x.r.id st
    else s.retire x bits out

/-- The first instruction of a commit tail issues: its span is not repeated any more (R169). -/
def enterTail (s : State) (x : Issue) : State := if commitClass x.i then s.modTile x.t (fun y => { y with inTail := true }) else s

/-- Whether an instruction stands at a cut barrier that its role has not passed (R275). -/
def barred (s : State) (x : Issue) : Bool :=
  let y := s.tile x.t
  commitClass x.i && !y.inTail && !y.passed && x.im.cutSpan y.role (s.fget F.PT_RUN_SPAN x.t)

/-- The issue of the next instruction of tile `t`, when its opcode is `op`: the cut barrier before a commit tail (R275),
then WAIT_EN, then the tags of its operands (R176), then its effect. -/
def issue (s : State) (t op : Nat) (f : Issue → State → Did) : State :=
  match s.current t with
  | none => s
  | some x =>
    if iOp x.i ≠ op then s
    else if s.barred x then s.modTile t (fun y => { y with atBarrier := true })
    else
      let s := if s.waitFirst x then s.issueWait x else s
      match s.current t with
      | none => s
      | some x =>
        if s.waitFirst x then s
        else match s.tagNeed x with
          | some (g, k, want) => s.waitTag t x.r.part t g k want
          | none => (s.enterTail x).issueDo x f

/-- The partition whose run a tile has, or 8 for none. -/
def tilePart (s : State) (t : Nat) : Nat := (((s.tile t).run.bind s.runOf).map (fun r => r.part)).getD 8

/-- The issue of an instruction that moves bytes through Tollgates, under their waits (R241). -/
def issueMove (s : State) (c : Instr) (t op : Nat) (f : Issue → State → Did) : State := s.gated (s.tilePart t) c (s.issue t op f)

/-! Cut barriers -/

/-- The span number of role `k` at cut `c` (R273). -/
def cutAt (im : Image) (c k : Nat) : Nat := (im.cuts.getD c {}).spans.getD k 0

/-- Whether role `k` of a run has reached cut `c`: it has ended, waits at the barrier of its cut span, or is past it (R275). -/
def atCut (s : State) (r : Run) (im : Image) (c k t : Nat) : Bool :=
  r.ended.contains t || cutAt im c k == 0 || ((s.tile t).run == some r.id &&
    (decide (cutAt im c k ≤ s.fget F.PT_RUN_SPAN t) || ((s.tile t).atBarrier && s.fget F.PT_RUN_SPAN t + 1 == cutAt im c k)))

/-- Whether every role of a run has reached its next cut (R275). -/
def barrierMet (s : State) (r : Run) (im : Image) : Bool :=
  decide (r.cut + 1 < im.cuts.length) && r.tiles.zipIdx.all (fun (t, k) => s.atCut r im (r.cut + 1) k t)

/-- One role let past the barrier; an empty tail retires its span at once (R275). -/
def passCut (r : Run) (im : Image) (cut : Nat) (t k : Nat) (s : State) : State :=
  if (s.tile t).run != some r.id then s
  else
    let y := s.tile t
    let s := s.traceEv t 0x17 (some r.part) [(16, cut)]
    if y.atBarrier && s.fget F.PT_RUN_SPAN t + 1 == cutAt im cut k then
      let s := s.modTile t (fun y => { y with atBarrier := false, passed := true })
      if y.spanDone then s.retireSpan r t else s
    else s

/-- The digests held at a cut enter the ring; at a cut that has entered its digests before a rollback, they are the same layers
again and go (R307; log entry 42). -/
def cutDigests (s : State) (r : Run) (cut : Nat) : State :=
  if r.top < cut then (s.commitDigests r cut).modRun r.id (fun r => { r with top := cut })
  else forEach r.tiles (fun t s =>
    if (s.tile t).run == some r.id then s.modTile t (fun y => { y with held := [], spanHeld := 0 }) else s) s

/-- The release of a cut: the held digests enter the ring and the tails go on (R275, R307). -/
def releaseCut (s : State) (r : Run) (im : Image) : State :=
  let cut := r.cut + 1
  let s := (s.cutDigests r cut).modRun r.id (fun r => { r with cut := cut, rolled := false })
  forEach r.tiles.zipIdx (fun (t, k) s => passCut r im cut t k s) s

end State

open State

/-- CUT_BARRIER_RELEASE: once every role has reached its cut span's tail or ended, the tails are released and the held
digests enter the digest ring (R275, R307). -/
def execCutBarrierRelease (run : Nat) (s : State) : Host.Outcome State Fault Refusal :=
  .next (match s.runOf run with
    | some r =>
      match s.prog r.prog with
      | some g => if s.barrierMet r g.image && !r.restoring && !(s.resetBusy r.part) then s.releaseCut r g.image else s
      | none => s
    | none => s)

/-- Whether the waited-for slot now has the tag it waits for (R176). -/
def State.slotReady (s : State) (w : Option (Nat × Bool)) : Bool :=
  match w with
  | some (k, want) => s.isFull 0 k == want
  | none => false

/-- The next grant of a host DMA that waits on a tag: as much of it as the tags allow now (R130, R176). -/
def State.dmaResume (s : State) (r t : Nat) : State :=
  s.withCmd r t (fun | .dmaCopy .. => true | _ => false) (fun s c =>
    match c.started, c.par with
    | true, .dmaCopy src dst => State.copyMore src dst c s
    | _, _ => s)

/-- TAG_WAIT_RESUME: a requester that waits on a slot resumes after its tag has changed (R176). -/
def execTagWaitResume (w : TagWaiter) (s : State) : Host.Outcome State Fault Refusal :=
  .next (match w with
    | .tile t =>
      if s.fget F.PT_STAT_STATE t.val = 2 ∧ s.slotReady (s.tile t.val).waitSlot then
        (s.modTile t.val (fun y => { y with waitSlot := none })).setState t.val 1
      else s
    | .stay t c =>
      if s.slotReady (s.stay t.val c.val).waitSlot then
        s.setStay t.val c.val { s.stay t.val c.val with waitSlot := none }
      else s
    | .cmd r tag => s.gated (r.val / 16) (.tagWaitResume w) (s.dmaResume r.val tag.val))

end Sys2Proof.Machine
end

