-- ==== Sys2Proof/Machine/Flags.lean ====
section
/-! DEFINITION. Numeric status: PT_NUM and the run's warning (R199, R226, R234), and outputs that raise it. -/

namespace Sys2Proof.Machine
namespace State

/-- The run carries a warning, so its completion carries 0x0001 (R199, R234). -/
def warnRun (s : State) (id : Nat) : State := s.modRun id (fun r => { r with warn := true })

/-- An instruction converted at least one NaN to 0 (R217, R234). -/
def warnNan (s : State) (x : Issue) : State :=
  ((s.fset F.PT_NUM_NAN_EV x.t 1).fadd F.PT_NUM_NAN_CNT x.t 1).warnRun x.r.id

/-- A side list held more entries than escapes (R226, R234). -/
def warnSurplus (s : State) (x : Issue) : State := (s.fset F.PT_NUM_ESC_SURPLUS_EV x.t 1).warnRun x.r.id

/-- An optimiser step was skipped (R234, R236). -/
def warnSkip (s : State) (x : Issue) : State :=
  ((s.fset F.PT_NUM_SKIP_EV x.t 1).fadd F.PT_NUM_SKIP_CNT x.t 1).warnRun x.r.id

/-- Converted elements written to an operand, with the warning for a NaN that became 0. -/
def writeOut (s : State) (x : Issue) (v : View) (cs : List (Nat × Bool)) : Did :=
  let s := s.putElems v (cs.map (·.1))
  .ok (if cs.any (·.2) then s.warnNan x else s) v.bits (cs.map (·.1))

/-- Elements that hold undefined values: one draw each (R235; log entry 7). -/
def writeUndef (s : State) (v : View) : State :=
  (List.range v.count).foldl (fun s n => let (c, s) := s.draw; s.putElem v (v.index n) c.toNat) s

end State
end Sys2Proof.Machine
end

