-- ==== Sys2Proof/Machine/TileMem.lean ====
section
/-! DEFINITION. The fill DMA and the reduction port of a tile: FILL, DRAIN, XFER, SCALE_LOAD, REDUCE_XT and ATOMIC_ADD
(R20, R164, R166, R176, R222, R297). -/

namespace Sys2Proof.Machine
namespace State

/-- A transfer that waits for a path to its node: it has passed its check, which is not made again (R29, R166). -/
def waitPath (s : State) (x : Issue) : Did := .wait (s.modTile x.t (fun y => { y with onPath := true }))

/-- The check of a device address range where an instruction issues (R129, R166, R289). -/
def pathCheck (s : State) (x : Issue) (a n : Nat) : Nat := if (s.tile x.t).onPath then 0 else s.hbmCheck x.r.part a n

/-- The HBM address of a FILL or DRAIN of `n` bytes, or the status that ends the run (R166). -/
def dmaAddr (s : State) (x : Issue) (n : Nat) : Nat × Nat :=
  let ofs := iImm x.i * 256
  let (st, a) :=
    if natBit (iP8 x.i) 7 then (0, leNat (s.deckGet x.t (x.view s (iAux x.i)).base 8) + ofs)
    else match x.r.bufs[natBits (iP8 x.i) 0 6]? with
      | some b => (if b.kind = 1 ∧ ofs + n ≤ b.count then 0 else 0x0200, b.addr + ofs)
      | none => (0x0200, 0)
  (if st ≠ 0 then st else if a % 256 ≠ 0 then 0x0201 else s.pathCheck x a n, a)

/-- The bytes a fill DMA operand spans, and its first byte. -/
def dmaBytes (x : Issue) (k : Nat) : Nat := (x.opd k).nslots * 256

/-- What has landed in a TAGGED region is full at once; the tile keeps which slots, so that a replay finds them empty again (R168,
R176; log entry 73). -/
def landFill (s : State) (t : Nat) (o : Opd) : State :=
  if s.tagged t o.region then
    (s.setFulls t (s.opdBase t o / 256) o.nslots true).modTile t (fun y =>
      { y with filled := y.filled ++ (s.opdSlots t o).map (slotKey t) })
  else s

/-- FILL: HBM into DST's slots, charged to HBM or the Causeway and to the fill port (R21, R166, R176, R239). -/
def doFill (x : Issue) (s : State) : Did :=
  let n := dmaBytes x (iDst x.i)
  match s.dmaAddr x n with
  | (st, a) =>
    if st ≠ 0 then .stop s st
    else match s.hbmRead x.r.part 1 (runRt x.r) a n with
      | (st, bs, s1) =>
        if st = waiting then s.waitPath x
        else if st ≠ 0 then .stop s1 st
        else .ok (((s1.deckPut x.t (x.view s (iDst x.i)).base bs).charge x.r.part 2 n).landFill x.t (x.opd (iDst x.i))) 0 []

/-- DRAIN: SRC0's slots into HBM (R21, R166, R176). -/
def doDrain (x : Issue) (s : State) : Did :=
  let n := dmaBytes x (iSrc0 x.i)
  match s.dmaAddr x n with
  | (st, a) =>
    if st ≠ 0 then .stop s st
    else match s.hbmWrite x.r.part (runRt x.r) a (s.deckGet x.t (x.view s (iSrc0 x.i)).base n) with
      | (st, s1) => if st = waiting then s.waitPath x else if st ≠ 0 then .stop s1 st else .ok s1 0 []

/-- The slots of a transfer into another Deck that can be written now: all of a PLAIN region, the leading empty ones of
a TAGGED one (R176). -/
def xferReady (s : State) (t region slot n : Nat) : Nat :=
  if s.tagged t region then ((List.range n).takeWhile (fun k => !(s.isFull t (slot + k)))).length else n

/-- XFER: SRC0's slots into DST's slots in the Deck of the role in P8, each as soon as it is empty, and full at once
(R164, R176). A retired destination ends the run (R169, R185). -/
def doXfer (x : Issue) (s : State) : Did :=
  let t := x.r.tiles.getD (iP8 x.i) 0
  let d := x.opd (iDst x.i)
  let src := x.view s (iSrc0 x.i)
  let total := min (x.opd (iSrc0 x.i)).nslots d.nslots
  let done := (s.tile x.t).moved
  let slot := s.opdBase t d / 256
  let n := s.xferReady t d.region (slot + done) (total - done)
  if s.retired t then .stop s 0x0501
  else
    let s := (s.deckPut t ((slot + done) * 256) (s.deckGet x.t (src.base + done * 256) (n * 256))).charge x.r.part 2 (n * 256)
    let s := if s.tagged t d.region then s.setFulls t (slot + done) n true else s
    let s := s.modTile x.t (fun y => { y with moved := done + n })
    if done + n < total then .wait (s.waitTag x.t x.r.part t d.region (slot + done + n) false) else .ok s 0 []

/-- SCALE_LOAD: DIM0 entries of SRC0 into the scale register file from entry SCALE (R222). -/
def doScaleLoad (x : Issue) (s : State) : Did :=
  let o := x.opd (iSrc0 x.i)
  let n := o.dims.getD 0 0
  let v := x.view s (iSrc0 x.i)
  if s.tagged x.t o.region ∨ n = 0 ∨ 4096 < n ∨ 4096 < iScale x.i + n then .stop s 0x0108
  else
    .ok ((List.range n).foldl (fun s k =>
      { s with scales := tabSet 0#128 s.scales (4096 * x.t + iScale x.i + k)
                 (BitVec.ofNat 128 (leNat (s.deckGet x.t (v.base + 16 * k) 16))) }) s) 0 []

/-! Reductions (R20, R297, R371) -/

/-- A contribution added to an element: floating in F32 and rounded back, integers modulo the element's width (R297,
R371). -/
def addElem (bits fmt a b : Nat) : Nat :=
  if isFloat fmt && bits != 64 then (convert fmt .rne false 0 (f32Val (f32Add (elemF32 fmt a) (elemF32 fmt b)))).1
  else (a + b) % 2 ^ bits

/-- Contributions added into a view of some Deck (R20). -/
def addView (s : State) (v : View) (cs : List Nat) : State :=
  s.putElems v (List.zipWith (addElem v.bits v.fmt) (s.elems v) cs)

/-- The XT_IN records of the 256 B blocks added into a Deck by tile `src` (R311). -/
def traceXt (s : State) (t src part slot n : Nat) : State :=
  forEach (List.range n) (fun k s => s.traceEv t 0x19 (some part) [(16, src), (16, slot + k)]) s

/-- A reduction into a Deck: this tile's own, or another role's, whose TAGGED slots must be empty and become full (R20,
R176, R185). -/
def reduceDeck (x : Issue) (t : Nat) (s : State) : Did :=
  let d := x.opd (iDst x.i)
  let cs := s.elems (x.view s (iSrc0 x.i))
  let slot := s.opdBase t d / 256
  let own := t == x.t
  if s.retired t then .stop s 0x0501
  else if !own && decide (s.xferReady t d.region slot d.nslots < d.nslots) then
    .wait (s.waitTag x.t x.r.part t d.region (slot + s.xferReady t d.region slot d.nslots) false)
  else
    let s := (s.addView (s.view t x.ring d) cs).charge x.r.part 2 (d.nslots * 256)
    let s := if !own && s.tagged t d.region then s.setFulls t slot d.nslots true else s
    .ok (s.traceXt t x.t x.r.part slot d.nslots) 0 []

/-- Bytes seen as packed elements, each with a contribution added (R214). -/
def addPacked (bits fmt : Nat) (old : List Byte) (cs : List Nat) : List Byte :=
  packCodes bits (cs.zipIdx.map (fun (c, k) => addElem bits fmt (leNat old / 2 ^ (bits * k) % 2 ^ bits) c))

/-- A reduction into HBM: local, or as remote atomics, applied by the member that holds it (R20, R297, R298). -/
def reduceHbm (x : Issue) (a : Nat) (s : State) : Did :=
  let v := x.view s (iSrc0 x.i)
  let cs := s.elems v
  let n := ceilDiv (v.bits * cs.length) 8
  let nd := a / 2 ^ 36
  let chk := s.pathCheck x a n
  if chk ≠ 0 then .stop s chk
  else if nd = s.node then
    match s.hbmRead x.r.part 1 (runRt x.r) a n with
    | (st, bs, s1) =>
      if st ≠ 0 then .stop s1 st
      else match s1.hbmWrite x.r.part (runRt x.r) a (addPacked v.bits v.fmt bs cs) with
        | (st, s2) => if st ≠ 0 then .stop s2 st else .ok s2 0 []
  else
    let (q, s1) := s.nextSeq
    match s1.remotely x.r.part (runRt x.r) nd Prod.mk (fun s =>
      s.remoteWrite x.r.part nd n (.addHbm q v.fmt x.ring a (packCodes v.bits cs))) with
    | (st, s2) => if st = waiting then s.waitPath x else if st ≠ 0 then .stop s2 st else .ok s2 0 []

/-- Contributions into a Deck of another pool member, one remote atomic a slot, applied there (R20, R297, R298). -/
def sendDeck (x : Issue) (nd t fmt : Nat) : Nat → Nat → List Byte → State → Nat × State
  | 0, _, _, s => (0, s)
  | n + 1, slot, bs, s =>
    let (q, s1) := s.nextSeq
    let m := PoolMsg.addDeck q fmt x.ring t slot (bs.take 256)
    match s1.remotely x.r.part (runRt x.r) nd Prod.mk (fun s => s.remoteWrite x.r.part nd (bs.take 256).length m) with
    | (0, s2) => sendDeck x nd t fmt n (slot + 1) (bs.drop 256) s2
    | (st, s2) => (st, s2)

/-- A reduction into the Deck of a tile of another pool member: the target's number gives node, tile and slot (R20, R297; log
entry 13). -/
def reduceAway (x : Issue) (a : Nat) (s : State) : Did :=
  let nd := a % 8
  let v := x.view s (iSrc0 x.i)
  if nd = s.node ∨ !(natBit (s.fget F.CW_NODE_MEMBERS 0) nd || (s.tile x.t).onPath) then .stop s 0x0201
  else
    let bs := packCodes v.bits (s.elems v)
    match sendDeck x nd (a / 8 % 16) v.fmt (ceilDiv bs.length 256) (a / 128 % 32768) bs s with
    | (st, s1) => if st = waiting then s.waitPath x else if st ≠ 0 then .stop s1 st else .ok s1 0 []

/-- The target of a REDUCE_XT or ATOMIC_ADD, which the manual's fields do not name (R164, R297; log entry 13). -/
def doReduce (x : Issue) (s : State) : Did :=
  let aux := s.deckGet x.t (x.view s (iAux x.i)).base 8
  let a := Config.reduceAddr x.i aux
  match Config.reduceTarget x.i % 4 with
  | 0 => reduceDeck x x.t s
  | 1 => reduceDeck x (x.r.tiles.getD (a % x.r.tiles.length) x.t) s
  | 2 => reduceHbm x a s
  | _ => reduceAway x a s

end State

open State

/-- FILL (R166). -/
def execFill (t : Fin 16) (s : State) : Host.Outcome State Fault Refusal := .next (s.issueMove (.fill t) t.val 0x10 State.doFill)

/-- DRAIN (R166). -/
def execDrain (t : Fin 16) (s : State) : Host.Outcome State Fault Refusal := .next (s.issueMove (.drain t) t.val 0x11 State.doDrain)

/-- XFER (R164, R176). -/
def execXfer (t : Fin 16) (s : State) : Host.Outcome State Fault Refusal := .next (s.issueMove (.xfer t) t.val 0x12 State.doXfer)

/-- SCALE_LOAD (R222). -/
def execScaleLoad (t : Fin 16) (s : State) : Host.Outcome State Fault Refusal := .next (s.issue t.val 0x14 State.doScaleLoad)

/-- REDUCE_XT: a cross-tile or cross-device reduction (R297, R371). -/
def execReduceXt (t : Fin 16) (s : State) : Host.Outcome State Fault Refusal := .next (s.issueMove (.reduceXt t) t.val 0x0C State.doReduce)

/-- ATOMIC_ADD: an atomic add into a Deck or HBM (R297). -/
def execAtomicAdd (t : Fin 16) (s : State) : Host.Outcome State Fault Refusal :=
  .next (s.issueMove (.atomicAdd t) t.val 0x0D (fun x s => State.doReduce x s))

end Sys2Proof.Machine
end

