-- ==== Sys2Proof/Machine/Attention.lean ====
section
/-! DEFINITION. The paged key-value cache: KV_RETRIEVE and ATTN (R200-R206). -/

namespace Sys2Proof.Machine

/-- A page table entry; `resv` is bits 47:45 (R200). -/
structure PageEntry where
  addr : Nat
  lpg : Nat
  valid : Bool
  resv : Nat
  fill : Nat
  deriving DecidableEq, Repr

/-- The 8 bytes of an entry. -/
def parsePage (b : List Byte) : PageEntry :=
  let v := leNat b
  { addr := natBits v 0 40, lpg := natBits v 40 4, valid := natBit v 44, resv := natBits v 45 3, fill := natBits v 48 16 }

/-- Bytes of a page (R200). -/
def pageBytes (lpg : Nat) : Nat := 2 ^ (12 + lpg)

/-- P: the positions a page holds, of `pos` bytes each (R201). -/
def pagePositions (lpg pos : Nat) : Nat := pageBytes lpg / pos

/-- Whether a page table meets R200 and R201: one LPG of 0-9, reserved bits 0, pages aligned to their size, P of 1-32,768, FILL
of at most P. -/
def tableOk (es : List PageEntry) (lpg p : Nat) : Bool :=
  decide (lpg ≤ 9) && decide (1 ≤ p) && decide (p ≤ 32768) &&
    es.all (fun e => e.lpg == lpg && e.resv == 0 && e.addr % pageBytes lpg == 0 && decide (e.fill ≤ p))

/-- A summary record (R203). -/
structure Summary where
  key : List Int
  scale : W32
  page : Nat
  valid : Bool

/-- The 128 bytes of a record. -/
def parseSummary (b : List Byte) : Summary :=
  { key := (b.take 64).map (fun c => toSigned 8 c.toNat), scale := BitVec.ofNat 32 (leField b 64 4)
    page := leField b 68 4, valid := leField b 72 1 == 1 }

/-- The score of a page: an exact dot product and two F32 multiplications in the order shown (R204). -/
def pageScore (q p : Summary) : W32 :=
  f32Mul (f32Mul q.scale p.scale) (toF32 (numOfInt ((List.zipWith (· * ·) q.key p.key).sum) 0))

/-- The pages chosen from the usable ones in ascending index, each with its score: the sink, the most recent, then by
descending score with ties to the lower index; the answer is in ascending index (R204; log entry 44). -/
def choosePages (k recent : Nat) (sink : Bool) (us : List (Nat × W32)) : List (Nat × W32) :=
  let first := us.filter (fun u => sink && u.1 == 0)
  let last := ((us.reverse.take recent).filter (fun u => !(first.contains u)))
  let head := first ++ last
  let rest := (us.filter (fun u => !(head.contains u))).mergeSort (fun a b => !(f32Lt a.2 b.2))
  sortBy (fun a b => decide (a.1 ≤ b.1)) ((head ++ rest).take k)

/-- The entry block of a retrieval: index and score of each chosen page; an unused entry holds index 0xFFFF_FFFF and a
score the manual does not give (R205; log entry 44). -/
def entryBlock (i : W128) (chosen : List (Nat × W32)) : List Byte :=
  ((List.range 64).map (fun j => match chosen[j]? with
    | some (p, sc) => leBytes 4 p ++ leBytes 4 sc.toNat
    | none => leBytes 4 0xFFFFFFFF ++ leBytes 4 ((Config.openElem i j).toNat % 2 ^ 32))).flatten

namespace State

/-- The `n` entries of a page table in the Deck at byte `base`. -/
def pagesAt (s : State) (t base n : Nat) : List PageEntry :=
  (List.range n).map (fun k => parsePage (s.deckGet t (base + 8 * k) 8))

/-- LPG of a page table: its first entry's. -/
def tableLpg (es : List PageEntry) : Nat := ((es.head?).map (fun p => p.lpg)).getD 0

/-- A page table that breaks R200 or R201: in a step of a serving run the row fails, DST is left open and the run goes on, else the
run ends with 0x0108 (R206, R208; log entry 19). -/
def tableFails (s : State) (x : Issue) : Did :=
  if x.r.stepping then
    let d := x.view s (iDst x.i)
    let cs := (List.range d.count).map (fun n => (Config.openElem x.i n).toNat % 2 ^ d.bits)
    .ok ((s.modRun x.r.id (fun r => { r with failed := r.failed ++ [Config.stepRow x.i r.steps] })).putElems d cs) d.bits cs
  else .stop s 0x0108

/-- One page after another fetched into the output block; a page that cannot be read ends the fetch (R205, R211). -/
def fetchPages (x : Issue) (base size : Nat) : Nat → List Nat → State → Nat × State
  | _, [], s => (0, s)
  | j, a :: as, s =>
    match s.hbmRead x.r.part 1 (runRt x.r) a size with
    | (st, bs, s1) =>
      if st ≠ 0 then (st, s1)
      else fetchPages x base size (j + 1) as ((s1.deckPut x.t (base + 512 + j * size) bs).charge x.r.part 2 size)

/-- The usable pages with their scores, in ascending index: a record of VALID 1 whose page's table entry is VALID (R203, R204). -/
def usablePages (s : State) (x : Issue) (es : List PageEntry) : List (Nat × W32) :=
  let sums := x.view s (iSrc1 x.i)
  let q := parseSummary (s.deckGet x.t (x.view s (iSrc0 x.i)).base 128)
  let rs := (List.range (sums.dim 0)).map (fun k => parseSummary (s.deckGet x.t (sums.base + 128 * k) 128))
  ((rs.filter (fun r => r.valid && (es[r.page]?).any (fun e => e.valid))).map (fun r => (r.page, pageScore q r))).mergeSort
    (fun a b => decide (a.1 ≤ b.1))

/-- KV_RETRIEVE: scores the page summaries, selects pages, and fetches them into DST (R203-R206, R208, R211). -/
def doRetrieve (x : Issue) (s : State) : Did :=
  let k := natBits (iImm x.i) 0 7
  let recent := natBits (iImm x.i) 7 5
  let sink := natBit (iImm x.i) 12
  let sums := x.view s (iSrc1 x.i)
  let tab := x.view s (iAux x.i)
  let d := x.opd (iDst x.i)
  let base := (x.view s (iDst x.i)).base
  let es := s.pagesAt x.t tab.base (tab.dim 0)
  let lpg := tableLpg es
  let size := pageBytes lpg
  if k = 0 ∨ 64 < k ∨ 16 < recent ∨ k < recent + (if sink then 1 else 0) ∨ sums.dim 0 = 0 ∨ 65536 < sums.dim 0 ∨
      tab.dim 0 < sums.dim 0 ∨ s.tagged x.t d.region ∨ d.nslots * 256 < 512 + k * size then .stop s 0x0108
  else if !(tableOk es lpg (pagePositions lpg (Config.kvBytes x.i))) then s.tableFails x
  else
    let chosen := choosePages k recent sink (s.usablePages x es)
    let addrs := chosen.filterMap (fun c => (es[c.1]?).map (fun e => e.addr))
    match (addrs.map (fun a => s.pathCheck x a size)).find? (· != 0) with
    | some st => .stop s st
    | none =>
      match fetchPages x base size 0 addrs s with
      | (st, s1) =>
        if st = waiting then s.waitPath x
        else if st ≠ 0 then .stop s1 st
        else
          let s3 := s1.deckPut x.t base (entryBlock x.i chosen)
          .ok s3 (x.view s3 (iDst x.i)).bits (s3.elems (x.view s3 (iDst x.i)))

/-! ATTN (R201, R202) -/

/-- A page an ATTN visits: its number in the sequence, the byte of its keys in the Deck, and its positions. -/
structure AttnPage where
  num : Nat
  base : Nat
  fill : Nat

/-- The pages of an ATTN in ascending position order, with their LPG (R202). -/
def attnPages (s : State) (x : Issue) : Nat × List AttnPage :=
  let kv := x.view s (iSrc1 x.i)
  if natBit (iP8 x.i) 1 then
    let lpg := Config.listLpg x.i
    let bs := s.deckGet x.t kv.base 512
    (lpg, ((List.range 64).filter (fun j => leField bs (8 * j) 4 != 0xFFFFFFFF)).map (fun j =>
      let p := leField bs (8 * j) 4
      { num := p, base := kv.base + 512 + j * pageBytes lpg, fill := Config.listFill x.i bs p }))
  else
    let tab := x.view s (iAux x.i)
    let es := s.pagesAt x.t tab.base (tab.dim 0)
    let lpg := tableLpg es
    (lpg, es.zipIdx.map (fun (e, k) =>
      { num := k, base := kv.base + k * pageBytes lpg, fill := if e.valid then e.fill else 0 }))

/-- The bytes an ATTN's own positions may depend on: its page list. -/
def attnList (s : State) (x : Issue) : List Byte :=
  if natBit (iP8 x.i) 1 then s.deckGet x.t (x.view s (iSrc1 x.i)).base 512
  else s.deckGet x.t (x.view s (iAux x.i)).base (8 * (x.view s (iAux x.i)).dim 0)

/-- The softmax of R202 as it runs: the largest logit so far, and the sum of weights and of weighted values under it. -/
structure Soft where
  top : W32
  sum : W32
  acc : W32

/-- e^d for a difference of logits, 1 for none (R165, R202; log entry 34). -/
def softExp (d : W32) : W32 := if natBits d.toNat 0 31 = 0 then 0x3F800000#32 else eltApprox 0x16 d

/-- One visible position, its logit and its value, taken into the running maximum and sums, all in F32 (R202; log entry 34). -/
def softStep (o : Option Soft) (p : W32 × W32) : Option Soft :=
  match o with
  | none => some ⟨p.1, 0x3F800000#32, p.2⟩
  | some m =>
    if f32Lt m.top p.1 then
      let w := softExp (f32Sub m.top p.1)
      some ⟨p.1, f32Add (f32Mul m.sum w) 0x3F800000#32, f32Add (f32Mul m.acc w) p.2⟩
    else
      let w := softExp (f32Sub p.1 m.top)
      some ⟨m.top, f32Add m.sum w, f32Add m.acc (f32Mul w p.2)⟩

/-- The output of one query head and row at element `d`: the keys of the visible positions give the logits, and the
values their softmax-weighted mean, position after position; no visible position gives `none` (R202; log entry 34). -/
def attnOut (s : State) (x : Issue) (ps : List AttnPage) (p : Nat) (n : Nat × Nat × Nat × Nat) : Option W32 :=
  let q := x.view s (iSrc0 x.i)
  let kv := x.view s (iSrc1 x.i)
  let dim := natBits (iImm x.i) 0 9
  let hkv := natBits (iImm x.i) 9 5 + 1
  let e := kv.bits / 8
  let h := n.2.1 / (q.dim 1 / hkv)
  let own := Config.queryPos x.i (s.attnList x) n.2.2.1
  let seen := (ps.map (fun g => ((List.range p).filter (fun o =>
      decide (o < g.fill) && (!(natBit (iP8 x.i) 0) || decide (g.num * p + o ≤ own)))).map (fun o => (g.base, o)))).flatten
  let el := fun (b o k : Nat) => elemF32 kv.fmt (leNat (s.deckGet x.t (b + ((o * hkv + h) * dim + k) * e) e))
  let sc := entScale (s.scaleEntry x.t (iScale x.i))
  let logit := fun (g : Nat × Nat) =>
    f32Mul (f32Sum x.i 0 ((List.range dim).map (fun k =>
      f32Mul (elemF32 q.fmt (s.elem q (k, n.2.1, n.2.2.1, n.2.2.2))) (el g.1 g.2 k)))) sc
  let val := fun (g : Nat × Nat) => el (g.1 + p * hkv * dim * e) g.2 n.1
  ((seen.map (fun g => (logit g, val g))).foldl softStep none).map (fun m => f32Div m.acc m.sum)

/-- ATTN: attention over the pages of its list with masking; a fully masked row writes zeros and warns (R202). -/
def doAttn (x : Issue) (s : State) : Did :=
  let q := x.view s (iSrc0 x.i)
  let d := x.view s (iDst x.i)
  let dim := natBits (iImm x.i) 0 9
  let hkv := natBits (iImm x.i) 9 5 + 1
  let kv := x.view s (iSrc1 x.i)
  let tab := x.view s (iAux x.i)
  let es := if natBit (iP8 x.i) 1 then [] else s.pagesAt x.t tab.base (tab.dim 0)
  if dim = 0 ∨ 256 < dim ∨ q.dim 0 ≠ dim ∨ q.dim 1 = 0 ∨ 64 < q.dim 1 ∨ q.dim 1 % hkv ≠ 0 ∨ q.dim 2 = 0 ∨ 4096 < q.dim 2 ∨
      !([1, 2, 3, 4].contains kv.fmt) then .stop s 0x0108
  else
    let (lpg, ps) := s.attnPages x
    let p := pagePositions lpg (2 * hkv * dim * (kv.bits / 8))
    if !(tableOk es lpg p) then s.tableFails x
    else
      let outs := (List.range d.count).map (fun n => s.attnOut x ps p (d.index n))
      let s := if outs.any (·.isNone) then s.warnRun x.r.id else s
      s.writeOut x d (outs.map (fun o => match o with
        | some v => convert (iFmtOut x.i) .rne true 0 (f32Val v)
        | none => (0, false)))

end State

open State

/-- KV_RETRIEVE (R204-R206). -/
def execKvRetrieve (t : Fin 16) (s : State) : Host.Outcome State Fault Refusal := 
  .next (s.issueMove (.kvRetrieve t) t.val 0x05 State.doRetrieve)

/-- ATTN (R202). -/
def execAttn (t : Fin 16) (s : State) : Host.Outcome State Fault Refusal := .next (s.issue t.val 0x06 State.doAttn)

end Sys2Proof.Machine
end

