-- ==== Sys2Proof/Machine/Caisson.lean ====
section
/-! DEFINITION. Caisson: contexts, residue chains, the Vault and the operations on it (R355-R374). -/

namespace Sys2Proof.Machine

/-! Residue arithmetic (R355, R357, R358, R364) -/

/-- q = 2^K - 2^J + 1 (R355). -/
def Prime.q (p : Prime) : Nat := 2 ^ p.k - 2 ^ p.j + 1

/-- x^(2^n) modulo q, by repeated squaring. -/
def squareMod (q x : Nat) : Nat → Nat
  | 0 => x % q
  | n + 1 => squareMod q (x * x % q) n

/-- x^e modulo q over the `n` lowest bits of e. -/
def powMod (q x e : Nat) : Nat → Nat
  | 0 => 1 % q
  | n + 1 =>
    let h := powMod q (x * x % q) (e / 2) n
    if e % 2 = 1 then h * x % q else h

/-- Whether q is prime; a limb of a composite one has undefined values (R355). -/
def isPrime (q : Nat) : Bool := decide (2 ≤ q) && (List.range q).all (fun d => decide (d < 2) || q % d != 0)

/-- One pass of the shift-add reduction: x' = hi × (2^J - 1) + lo (R357). -/
def foldOnce (k j x : Nat) : Nat :=
  let hi := x / 2 ^ k
  hi * 2 ^ j - hi + x % 2 ^ k

/-- The shift-add reduction of R357, with `n` passes at most; its last step subtracts q once. -/
def shiftAdd (k j : Nat) : Nat → Nat → Nat
  | 0, x => x
  | n + 1, x => if x / 2 ^ k = 0 then (if x < 2 ^ k - 2 ^ j + 1 then x else x - (2 ^ k - 2 ^ j + 1)) else shiftAdd k j n (foldOnce k j x)

/-- A number's lowest `n` bits in reverse order. -/
def bitRev : Nat → Nat → Nat
  | 0, _ => 0
  | n + 1, x => x % 2 * 2 ^ n + bitRev n (x / 2)

/-- The negacyclic transform of a limb: coefficient t times PSI^t, root PSI^2, outputs in bit-reversed order (R358). -/
def ntt (q psi logn : Nat) (a : List Nat) : List Nat :=
  (List.range (2 ^ logn)).map (fun o =>
    let k := bitRev logn o
    (a.zipIdx.foldl (fun acc (x, t) => (acc + x * powMod q psi ((2 * k + 1) * t) 64) % q) 0))

/-- The inverse transform: bit-reversed input, natural order, and the factor N^-1 modulo q (R358). -/
def intt (q psi logn : Nat) (a : List Nat) : List Nat :=
  let inv := fun x => powMod q x (q - 2) 64
  let n := 2 ^ logn
  (List.range n).map (fun t =>
    (a.zipIdx.foldl (fun acc (x, i) =>
      (acc + x * powMod q (inv psi) ((2 * bitRev logn i + 1) * t) 64) % q) 0) * inv n % q)

/-- D(X) = A(X^G) modulo X^N + 1 (R364). -/
def automorph (q n g : Nat) (a : List Nat) : List Nat :=
  (List.range n).map (fun o => a.zipIdx.foldl (fun acc (x, t) =>
    let e := t * g % (2 * n)
    if e % n = o then (if e < n then (acc + x) % q else (acc + q - x % q) % q) else acc) 0)

/-- The prime of chain index `i`. -/
def CsCtx.prime (c : CsCtx) (i : Nat) : Prime := c.chain.getD i {}

/-- Whether a chain meets R355 and PSI^N = -1 modulo each prime (R355, R356). -/
def chainOk (logn : Nat) (ps : List Prime) : Bool :=
  ps.all (fun p => decide (logn + 1 ≤ p.j) && decide (p.j + 4 ≤ p.k) && decide (p.k ≤ 60) && decide (0 < p.psi) &&
    decide (p.psi < p.q) && squareMod p.q p.psi logn == p.q - 1) &&
  ps.Pairwise (fun a b => a.q ≠ b.q)

/-- One 16 B chain entry; `none` where its zero bytes are not 0 (R355). -/
def chainEntry (b : List Byte) : Option Prime :=
  if allZero b 2 6 then some { k := leField b 0 1, j := leField b 1 1, psi := leField b 8 8 } else none

/-- The chain of a buffer's bytes. -/
def chainOf (b : List Byte) (n : Nat) : Option (List Prime) := (List.range n).mapM (fun i => chainEntry ((b.drop (16 * i)).take 16))

namespace State

/-! The Vault (R359, R360, R373) -/

/-- The Vault byte address of offset `a` (4 KiB units) of partition `p`'s share. -/
def vaultAddr (s : State) (p a : Nat) : Nat := s.fget F.CS_PART_VAULT_BASE p * 0x100000 + a * 4096

/-- Bytes of an object of `nl` limbs (R360). -/
def objBytes (logn nl : Nat) : Nat := nl * 2 ^ logn * 8

/-- The `n` 64-bit words from Vault byte `a`. -/
def vaultWords (s : State) (a n : Nat) : List Nat := (List.range n).map (fun i => memNat s.vault (a + 8 * i) 8)

/-- The first byte of a range of Vault bytes in a poisoned 4 KiB block, if any (R373). -/
def vaultPoisoned (s : State) (a n : Nat) : Option Nat :=
  (s.vaultBad.find? (fun b => decide (b * 4096 < a + n) && decide (a < (b + 1) * 4096))).map (fun b => max a (b * 4096))

/-- Bytes written to the Vault; a block written whole loses its poison (R373). -/
def vaultWrite (s : State) (a : Nat) (bs : List Byte) : State :=
  { s with vault := memWrite s.vault a bs
           vaultBad := s.vaultBad.filter (fun b => !(decide (a ≤ b * 4096) && decide ((b + 1) * 4096 ≤ a + bs.length))) }

/-- A range of Vault bytes cleared with its poison (R343, R359). -/
def vaultClear (s : State) (a n : Nat) : State :=
  { s with vault := memClear s.vault a n
           vaultBad := s.vaultBad.filter (fun b => !(decide (a ≤ b * 4096) && decide (b * 4096 < a + n))) }

/-- The words of a limb, or free ones where the spec leaves it undefined (R355, R360). -/
def limbWrite (s : State) (a n : Nat) (v : Option (List Nat)) : State :=
  match v with
  | some ws => s.vaultWrite a (ws.map (leBytes 8)).flatten
  | none =>
    let (bs, s) := s.freeBytes (8 * n)
    s.vaultWrite a bs

/-! Contexts and the pipeline (R361, R366, R367) -/

/-- Whether a context has work for the pipeline: an operation other than LOAD and STORE is current (R367, R368). -/
def pipeWork (s : State) (c : Nat) : Bool :=
  match (s.ctx c).jobs with
  | j :: _ => decide (2 ≤ j.p.op)
  | [] => false

/-- The next context with pipeline work, in rotation after `c` (R367). -/
def nextCtx (s : State) (c : Nat) : Option Nat := ((List.range 4).map (fun i => (c + 1 + i) % 4)).find? s.pipeWork

/-- The pipeline passes to context `n`: a switch when it comes from another one (R361, R367). -/
def pipeTo (s : State) (n : Nat) : State :=
  let c := s.fget F.CS_STAT_CUR 0
  let s := (s.fset F.CS_STAT_CUR 0 n).fset F.CS_STAT_IDLE 0 0
  if n = c then s
  else ((s.fadd F.CS_STAT_SWITCHES 0 1).traceEv 0x28 0xA0 none [(16, c), (16, n)]).count 0x181 (some n)
    (some (s.fget F.CS_CTX_PART n)) 1

/-- The CS_CTX registers of a context as its work and the pipeline stand (R361). -/
def ctxShow (c : Nat) (s : State) : State :=
  let js := (s.ctx c).jobs
  if s.fget F.CS_CTX_STATE c = 0 then s
  else
    let s := s.fset F.CS_CTX_QUEUED c (js.length - 1)
    match js with
    | [] => ((s.fset F.CS_CTX_OP c 0xFF).fset F.CS_CTX_STEPS c 0).fset F.CS_CTX_STATE c 1
    | j :: _ =>
      let s := (s.fset F.CS_CTX_OP c j.p.op).fset F.CS_CTX_STEPS c j.step
      s.fset F.CS_CTX_STATE c (if s.fget F.CS_STAT_IDLE 0 = 0 ∧ s.fget F.CS_STAT_CUR 0 = c then 2 else 3)

/-- The pipeline and the registers after work came or went: an idle pipeline takes the next context that has work, which
is no switch; one whose context has no more work passes on or idles (R361, R367). -/
def ctxSettle (s : State) : State :=
  let c := s.fget F.CS_STAT_CUR 0
  let s :=
    if s.flag F.CS_STAT_IDLE 0 then
      match s.nextCtx c with
      | some n => (s.fset F.CS_STAT_CUR 0 n).fset F.CS_STAT_IDLE 0 0
      | none => s
    else if s.pipeWork c then s
    else match s.nextCtx c with
      | some n => s.pipeTo n
      | none => s.fset F.CS_STAT_IDLE 0 1
  forEach (List.range 4) ctxShow s

/-- A context's jobs replaced. -/
def setJobs (s : State) (c : Nat) (js : List CsJob) : State := s.setCtx c { s.ctx c with jobs := js }

/-- A context freed (R343, R362). -/
def ctxFree (s : State) (c : Nat) : State := (s.rreset .CS_CTX c).setCtx c {}

/-- The end of the current operation of a context with a status. -/
def jobEnd (s : State) (c status : Nat) : State :=
  match (s.ctx c).jobs with
  | [] => s
  | j :: js => ((s.setJobs c js).finish j.ring j.tag status 0).ctxSettle

/-- The destination of an operation: its Vault address and words (R363, R364). -/
def jobDest (s : State) (c : Nat) (p : CsParams) : Nat × Nat :=
  (s.vaultAddr (s.fget F.CS_CTX_PART c) p.d,
   (if p.op = 1 then 0 else if p.op = 10 then p.onl else p.nl) * 2 ^ s.fget F.CS_CTX_LOGN c)

/-- The destination of an operation left undefined: its Vault extent, whose poisoned blocks stay so, or the HBM range of a STORE
(R372, R373). -/
def jobSpoil (s : State) (c : Nat) (p : CsParams) : State :=
  if p.op = 1 then s.undefBuf (s.fget F.CS_CTX_PART c) p.hbm
  else
    let (a, n) := s.jobDest c p
    let (bs, s) := s.freeBytes (8 * n)
    { s with vault := memWrite s.vault a bs }

/-- The operations whose command meets `f` end at their limb step, without a completion; the destination of a current one is
undefined (R372). -/
def jobsDrop (s : State) (f : Nat → Nat → Bool) : State :=
  let s := forEach (List.range 4) (fun c s =>
    let js := (s.ctx c).jobs
    let s := match js with
      | j :: _ => if f j.ring j.tag then s.jobSpoil c j.p else s
      | [] => s
    s.setJobs c (js.filter (fun j => !(f j.ring j.tag)))) s
  s.ctxSettle

/-- The current operation of a context ends because it read Vault byte `a`, which cannot be corrected: 0x0500, a CAISSON
record, and an undefined destination (R373). -/
def vaultFail (s : State) (c a : Nat) : State :=
  match (s.ctx c).jobs with
  | [] => s
  | j :: _ =>
    let part := s.fget F.CS_CTX_PART c
    let limb := if j.p.op = 10 then j.step % j.p.nl
      else if j.p.op = 1 then (a - s.vaultAddr part j.p.a) / (2 ^ s.fget F.CS_CTX_LOGN c * 8) else j.step
    let s := s.fault { cls := 0xC, part := part, unit := c, cause := 1, info0 := BitVec.ofNat 64 a
                       info1 := BitVec.ofNat 32 limb, ringTag := ringTag j.ring j.tag }
    (s.jobSpoil c j.p).jobEnd c 0x0500

/-! CS_OP (R363-R365) -/

/-- The sources of an operation: Vault offset and bytes (R364). -/
def jobSources (logn : Nat) (p : CsParams) : List (Nat × Nat) :=
  let n := objBytes logn p.nl
  if p.op = 0 then []
  else if p.op = 4 ∨ p.op = 5 ∨ p.op = 6 ∨ p.op = 7 then [(p.a, n), (p.b, n)]
  else if p.op = 10 then [(p.a, n), (p.b, p.nl * p.onl * 8)]
  else [(p.a, n)]

/-- Whether two Vault extents overlap. -/
def extentsMeet (a n b m : Nat) : Bool := decide (a * 4096 < b * 4096 + m) && decide (b * 4096 < a * 4096 + n)

/-- Whether an overlap of the destination is forbidden (R364). -/
def overlapBad (logn : Nat) (p : CsParams) : Bool :=
  let dn := objBytes logn (if p.op = 10 then p.onl else p.nl)
  let same := p.op != 7 && p.op != 9 && p.op != 10
  p.op != 1 && (jobSources logn p).any (fun (a, n) => extentsMeet p.d dn a n && !(same && a == p.d))

/-- The checks of CS_OP (R362, R365). -/
def csCheck (s : State) (c : Cmd) : Nat :=
  match c.par with
  | .csOp p =>
    let x := s.ctx p.ctx
    let logn := s.fget F.CS_CTX_LOGN p.ctx
    let np := x.chain.length
    let size := s.fget F.CS_PART_VAULT_SIZE c.part * 0x100000
    let ext := jobSources logn p ++ (if p.op = 1 then [] else [(p.d, objBytes logn (if p.op = 10 then p.onl else p.nl))])
    if s.fget F.CS_CTX_STATE p.ctx = 0 then 0x0602
    else if s.fget F.CS_CTX_PART p.ctx ≠ c.part then 0x0400
    else if np < p.first + p.nl ∨ (p.op = 10 ∧ np < p.ofirst + p.onl) ∨ (p.op = 9 ∧ 2 * 2 ^ logn ≤ p.g) ∨
        (p.op ≤ 1 ∧ p.hbm.count ≠ objBytes logn p.nl) ∨ overlapBad logn p ∨
        (p.op = 8 ∧ p.consts.zipIdx.any (fun (v, l) => decide ((x.prime (p.first + l)).q ≤ v))) then 0x0108
    else if ext.any (fun (a, n) => decide (size < a * 4096 + n)) then 0x0200
    else if p.op ≤ 1 ∧ !c.checked then
      (if p.hbm.addr / 2 ^ 36 ≠ s.node then 0x0201 else s.hbmCheck c.part p.hbm.addr p.hbm.count)
    else 0
  | _ => 0

/-- The context a command of R362 or R363 names. -/
def csNames : TCmd → Option Nat
  | .csOp p => some p.ctx
  | .csCtxClose k => some k
  | _ => none

/-- Whether a command opens or closes a context. -/
def csTurns : TCmd → Bool
  | .csCtxOpen .. | .csCtxClose _ => true
  | _ => false

/-- Whether an earlier fetched command that has not started must come first: one on the same context, or an open or close
before an open or close (R362, R366, R372; log entry 108). -/
def csAhead (s : State) (c : Cmd) : Bool :=
  (s.cmds.takeWhile (fun x => x != c)).any (fun x => !x.started && x.done == none &&
    ((csNames x.par == csNames c.par && (csNames c.par).isSome) || (csTurns x.par && csTurns c.par)))

/-- A Caisson row: the command starts once those it must follow have (R366). -/
def csBegin (s : State) (r t : Nat) (want : TCmd → Bool) (check : State → Cmd → Nat)
    (effect : Cmd → State → State) (again : Cmd → State → State) : State :=
  if (s.findCmd r t).any s.csAhead then s else s.begin r t want check effect again

/-- The check of CS_CTX_OPEN at fetch; 0x0301 is its start's (R356, R365). -/
def csCtxOpenCheck (s : State) (c : Cmd) : Nat :=
  match c.par with
  | .csCtxOpen _ _ d =>
    if d.kind = 1 ∧ d.addr / 2 ^ 36 ≠ s.node then 0x0201
    else if s.bufsOk c [(d, some false)] ≠ 0 then s.bufsOk c [(d, some false)]
    else if s.fget F.CS_PART_VAULT_SIZE c.part = 0 then 0x0302
    else 0
  | _ => 0

/-- CS_CTX_OPEN: the lowest free context opened with its chain, or none (R355, R356, R374). -/
def csCtxOpenGo (c : Cmd) (s : State) : State :=
  match c.par with
  | .csCtxOpen logn np d =>
    match (List.range 4).find? (fun k => s.fget F.CS_CTX_STATE k == 0) with
    | none => (s.finish c.ring c.tag 0x0301 0).count 0x182 none (some c.part) 1
    | some k =>
      match s.bufRead c.part (ringTag c.ring c.tag) 2 d 0 d.count with
      | (st, bs, s1) =>
        if st ≠ 0 then s1.finish c.ring c.tag st 0
        else match chainOf bs np with
          | none => s1.finish c.ring c.tag 0x0108 0
          | some ps =>
            if chainOk logn ps then
              let s1 := (s1.rreset .CS_CTX k).setCtx k { chain := ps }
              let s1 := (s1.fset F.CS_CTX_LOGN k logn).fset F.CS_CTX_NPRIMES k np
              ((s1.fset F.CS_CTX_PART k c.part).fset F.CS_CTX_STATE k 1).finish c.ring c.tag 0 k
            else s1.finish c.ring c.tag 0x0108 0
  | _ => s

/-- The check of CS_CTX_CLOSE: an open context of the partition with no operation in flight (R362). -/
def csCtxCloseCheck (s : State) (c : Cmd) : Nat :=
  match c.par with
  | .csCtxClose k =>
    if s.fget F.CS_CTX_STATE k = 0 then 0x0602
    else if s.fget F.CS_CTX_PART k ≠ c.part then 0x0400
    else if (s.ctx k).jobs ≠ [] ∨ (s.cmds.takeWhile (fun x => x != c)).any (fun x => x.done == none &&
        csNames x.par == some k && !(csTurns x.par)) then 0x0602
    else 0
  | _ => 0

/-- CS_CTX_CLOSE: the context freed; the Vault is kept (R362). -/
def csCtxCloseGo (c : Cmd) (s : State) : State :=
  match c.par with
  | .csCtxClose k => (s.ctxFree k).finish c.ring c.tag 0 0
  | _ => s

/-- A LOAD or STORE that is its context's current operation runs on the transfer engine (R364, R368, R372). -/
def csTransfer (s : State) (ring tag : Nat) : State :=
  match s.findCmd ring tag with
  | none => s
  | some c =>
    match c.par with
    | .csOp p =>
      match (s.ctx p.ctx).jobs with
      | j :: _ =>
        if j.ring ≠ ring ∨ j.tag ≠ tag ∨ 2 ≤ p.op then s
        else
          let n := p.hbm.count
          if p.op = 0 then
            match s.hbmRead c.part 3 (State.ringTag ring tag) p.hbm.addr n with
            | (st, bs, s1) =>
              if st ≠ 0 then s1.jobEnd p.ctx st
              else (s1.vaultWrite (s1.vaultAddr c.part p.d) bs).jobEnd p.ctx 0
          else
            let a := s.vaultAddr c.part p.a
            match s.vaultPoisoned a n with
            | some b => s.vaultFail p.ctx b
            | none => match s.hbmWrite c.part (State.ringTag ring tag) p.hbm.addr (memRead s.vault a n) with
              | (st, s1) => s1.jobEnd p.ctx st
      | [] => s
    | _ => s

/-- CS_OP accepted: it joins its context's operations in fetch order; a LOAD or STORE with nothing before it runs
(R366, R368). -/
def csQueue (c : Cmd) (s : State) : State :=
  match c.par with
  | .csOp p =>
    let s := (s.setJobs p.ctx ((s.ctx p.ctx).jobs ++ [{ ring := c.ring, tag := c.tag, p := p }])).ctxSettle
    s.csTransfer c.ring c.tag
  | _ => s

/-- A CS_OP row: operation `op` of a fetched command. A LOAD or STORE that waited behind others runs on a later one. -/
def csRow (s : State) (op r t : Nat) : State :=
  s.csBegin r t (fun | .csOp p => p.op == op | _ => false) csCheck csQueue (fun c s => s.csTransfer c.ring c.tag)

/-! Limb steps (R358, R367) -/

/-- The words of limb `l` of the object at Vault offset `a`. -/
def limb (s : State) (p a logn l : Nat) : List Nat := s.vaultWords (s.vaultAddr p a + l * 2 ^ logn * 8) (2 ^ logn)

/-- The result of one limb of an operation that works limb by limb, or `none` where it is undefined: a composite q, or an
input coefficient at or above its prime (R355, R360, R364). -/
def limbValue (s : State) (part logn l : Nat) (pr : Prime) (p : CsParams) : Option (List Nat) :=
  let q := pr.q
  let a := s.limb part p.a logn l
  let b := if p.op = 4 ∨ p.op = 5 ∨ p.op = 6 ∨ p.op = 7 then s.limb part p.b logn l else []
  let d := if p.op = 7 then s.limb part p.d logn l else []
  if !(isPrime q) || (a ++ b ++ d).any (fun x => decide (q ≤ x)) then none
  else some (match p.op with
    | 2 => ntt q pr.psi logn a
    | 3 => intt q pr.psi logn a
    | 4 => a.zipWith (fun x y => (x + y) % q) b
    | 5 => a.zipWith (fun x y => (x + q - y) % q) b
    | 6 => a.zipWith (fun x y => x * y % q) b
    | 7 => d.zipWith (fun z xy => (z + xy) % q) (a.zipWith (fun x y => x * y % q) b)
    | 8 => a.map (fun x => x * p.consts.getD l 0 % q)
    | _ => automorph q (2 ^ logn) p.g a)

/-- Output limb `j` of a BCONV after input limbs 0 to `i` (R364). -/
def bconvValue (s : State) (part logn i j : Nat) (x : CsCtx) (p : CsParams) : Option (List Nat) :=
  let q := (x.prime (p.ofirst + j)).q
  let t := fun k => memNat s.vault (s.vaultAddr part p.b + (k * p.onl + j) * 8) 8
  let ins := (List.range (i + 1)).map (fun k => (s.limb part p.a logn k, (x.prime (p.first + k)).q, t k))
  if !(isPrime q) || ins.any (fun (a, qi, tk) => decide (q ≤ tk) || a.any (fun v => decide (qi ≤ v))) then none
  else some ((List.range (2 ^ logn)).map (fun o => (ins.foldl (fun acc (a, _, tk) => (acc + a.getD o 0 % q * tk) % q) 0)))

/-- The number of limb steps of an operation (R358). -/
def jobSteps (p : CsParams) : Nat := if p.op = 10 then p.nl * p.onl else p.nl

/-- The Vault bytes that step `k` of an operation reads (R373). -/
def stepReads (s : State) (part logn k : Nat) (p : CsParams) : List (Nat × Nat) :=
  let n := 2 ^ logn * 8
  let at_ := fun o l => (s.vaultAddr part o + l * n, n)
  if p.op = 10 then [at_ p.a (k % p.nl), (s.vaultAddr part p.b + (k % p.nl * p.onl + k / p.nl) * 8, 8)]
  else if p.op = 7 then [at_ p.a k, at_ p.b k, at_ p.d k]
  else if p.op = 4 ∨ p.op = 5 ∨ p.op = 6 then [at_ p.a k, at_ p.b k]
  else [at_ p.a k]

/-- One limb step of the current operation of context `c` (R358, R364, R373). -/
def limbStep (s : State) (c : Nat) : State :=
  match (s.ctx c).jobs with
  | [] => s
  | j :: js =>
    let p := j.p
    let x := s.ctx c
    let part := s.fget F.CS_CTX_PART c
    let logn := s.fget F.CS_CTX_LOGN c
    match (s.stepReads part logn j.step p).findSome? (fun (a, n) => s.vaultPoisoned a n) with
    | some a => s.vaultFail c a
    | none =>
      let out := if p.op = 10 then j.step / p.nl else j.step
      let v := if p.op = 10 then s.bconvValue part logn (j.step % p.nl) out x p
        else s.limbValue part logn out (x.prime (p.first + out)) p
      let s := s.limbWrite (s.vaultAddr part p.d + out * 2 ^ logn * 8) (2 ^ logn) v
      let s := if p.op = 2 ∨ p.op = 3 then s.count 0x180 (some c) (some part) 1 else s
      if j.step + 1 = jobSteps p then (s.setJobs c js).finish j.ring j.tag 0 0
      else s.setJobs c ({ j with step := j.step + 1 } :: js)

/-- A write of CS_PART_VAULT: a share changed with both extents zeroed, or the write discarded and recorded (R359). -/
def shareWrite (s : State) (p : Nat) (w : W64) : State :=
  let base := getBits w 0 7
  let size := getBits w 8 7
  let meets := (List.range 8).any (fun k => k != p && size != 0 && s.fget F.CS_PART_VAULT_SIZE k != 0 &&
    decide (base < s.fget F.CS_PART_VAULT_BASE k + s.fget F.CS_PART_VAULT_SIZE k) &&
    decide (s.fget F.CS_PART_VAULT_BASE k < base + size))
  let open_ := (List.range 4).any (fun c => s.fget F.CS_CTX_STATE c != 0 && s.fget F.CS_CTX_PART c == p)
  let off := regOffset .CS_PART_VAULT p
  if s.tdiLocked p then s.accessFault .pf 2 off w
  else if 96 < base + size ∨ meets ∨ open_ ∨ s.resetBusy p then s.accessFault .pf 3 off w
  else
    let ob := s.fget F.CS_PART_VAULT_BASE p
    let os := s.fget F.CS_PART_VAULT_SIZE p
    let s := if ob = base ∧ os = size then s
      else (s.vaultClear (ob * 0x100000) (os * 0x100000)).vaultClear (base * 0x100000) (size * 0x100000)
    (s.fset F.CS_PART_VAULT_BASE p base).fset F.CS_PART_VAULT_SIZE p size

end State

open State

/-- CS_CTX_OPEN: a context opened with a checked chain, or refused (R355, R356, R374). -/
def execCsCtxOpen (r : Fin 128) (tag : Fin 512) (s : State) : Host.Outcome State Fault Refusal :=
  .next (s.gated (r.val / 16) (.csCtxOpen r tag)
    (s.csBegin r.val tag.val (fun | .csCtxOpen .. => true | _ => false) csCtxOpenCheck csCtxOpenGo (fun _ s => s)))

/-- CS_CTX_CLOSE: a context freed; the Vault is kept (R362). -/
def execCsCtxClose (r : Fin 128) (tag : Fin 512) (s : State) : Host.Outcome State Fault Refusal :=
  .next (s.csBegin r.val tag.val (fun | .csCtxClose .. => true | _ => false) csCtxCloseCheck csCtxCloseGo (fun _ s => s))

/-- LOAD: D ← HBM (R364, R368). -/
def execCsLoad (r : Fin 128) (tag : Fin 512) (s : State) : Host.Outcome State Fault Refusal :=
  .next (s.gated (r.val / 16) (.csLoad r tag) (s.csRow 0 r.val tag.val))
/-- STORE: HBM ← A (R364, R368). -/
def execCsStore (r : Fin 128) (tag : Fin 512) (s : State) : Host.Outcome State Fault Refusal :=
  .next (s.gated (r.val / 16) (.csStore r tag) (s.csRow 1 r.val tag.val))
/-- NTT: D = NTT(A) (R358, R364). -/
def execCsNtt (r : Fin 128) (tag : Fin 512) (s : State) : Host.Outcome State Fault Refusal := .next (s.csRow 2 r.val tag.val)
/-- INTT: D = INTT(A) (R358, R364). -/
def execCsIntt (r : Fin 128) (tag : Fin 512) (s : State) : Host.Outcome State Fault Refusal := .next (s.csRow 3 r.val tag.val)
/-- ADD: D = A + B modulo q_l (R364). -/
def execCsAdd (r : Fin 128) (tag : Fin 512) (s : State) : Host.Outcome State Fault Refusal := .next (s.csRow 4 r.val tag.val)
/-- SUB: D = A - B modulo q_l (R364). -/
def execCsSub (r : Fin 128) (tag : Fin 512) (s : State) : Host.Outcome State Fault Refusal := .next (s.csRow 5 r.val tag.val)
/-- MUL: D = A ⊙ B (R364). -/
def execCsMul (r : Fin 128) (tag : Fin 512) (s : State) : Host.Outcome State Fault Refusal := .next (s.csRow 6 r.val tag.val)
/-- MAC: D = D + A ⊙ B (R364). -/
def execCsMac (r : Fin 128) (tag : Fin 512) (s : State) : Host.Outcome State Fault Refusal := .next (s.csRow 7 r.val tag.val)
/-- MULC: D = A × c_l (R364). -/
def execCsMulc (r : Fin 128) (tag : Fin 512) (s : State) : Host.Outcome State Fault Refusal := .next (s.csRow 8 r.val tag.val)
/-- AUTO: D(X) = A(X^G) (R364). -/
def execCsAuto (r : Fin 128) (tag : Fin 512) (s : State) : Host.Outcome State Fault Refusal := .next (s.csRow 9 r.val tag.val)
/-- BCONV: limbs converted to another set of primes (R364). -/
def execCsBconv (r : Fin 128) (tag : Fin 512) (s : State) : Host.Outcome State Fault Refusal := .next (s.csRow 10 r.val tag.val)

/-- LIMB_STEP_END: a limb step of the context in the pipeline ends, and the pipeline passes to the next context in
rotation that has work (R358, R366, R367). -/
def execLimbStepEnd (s : State) : Host.Outcome State Fault Refusal :=
  .next (
    let c := s.fget F.CS_STAT_CUR 0
    if s.flag F.CS_STAT_IDLE 0 || !(s.pipeWork c) then s
    else
      let s := s.limbStep c
      match s.nextCtx c with
      | some n => (s.pipeTo n).ctxSettle
      | none => s.ctxSettle)

/-- VAULT_SHARE_WRITE (R359). -/
def execVaultShareWrite (p : Fin 8) (v : W32) (s : State) : Host.Outcome State Fault Refusal :=
  .next (s.bar (s.shareWrite p.val (v.setWidth 64)))

/-- VAULT_UNCORRECTABLE: the operation of a context that read the word ends with 0x0500, and its 4 KiB block is poisoned
(R373). -/
def execVaultUncorrectable (ctx : Fin 4) (addr : BitVec 27) (s : State) : Host.Outcome State Fault Refusal :=
  .next (
    let c := ctx.val
    match (s.ctx c).jobs with
    | [] => s
    | j :: _ =>
      if j.p.op = 0 then s
      else
        let b := addr.toNat / 4096
        { s with vaultBad := if s.vaultBad.contains b then s.vaultBad else s.vaultBad ++ [b] }.vaultFail c addr.toNat)

end Sys2Proof.Machine
end

