-- ==== Sys2Proof/Machine/Ingress.lean ====
section
/-! DEFINITION. Stream descriptors: matching, gating, landing, records (R62-R88), and the capture windows that gate them
(R53-R59). -/

namespace Sys2Proof.Machine
namespace State

/-- Whether source `n` is a frame class (R62). -/
def frameSrc (n : Nat) : Bool := decide (n ≤ 0x0D)

/-- Whether a source number is listed in R62. -/
def srcListed (n : Nat) : Bool :=
  frameSrc n || (decide (0x10 ≤ n) && decide (n ≤ 0x2A)) || (decide (0x30 ≤ n) && decide (n ≤ 0x37))

/-- Whether the port of source `n` receives: the hub is released and OFF is 0 (R63, R64). -/
def rxOn (s : State) (n : Nat) : Bool := s.power.hubs && !(s.flag F.ING_PORT_CFG_OFF n)

/-- A unit discarded by a port: ERRORS and ERR (R63). -/
def portError (s : State) (n : Nat) : State := (s.fadd F.ING_PORT_CNT_ERRORS n 1).fset F.ING_PORT_STAT_ERR n 1

/-- A unit that matched no descriptor (R63). -/
def unmatched (s : State) (n : Nat) : State := s.fadd F.ING_PORT_CNT_UNMATCHED n 1

/-- The phase of Bearing channel `c`, if valid. -/
def phaseOf (s : State) (c : Nat) : Option W32 :=
  if s.flag F.BR_CH_STAT_VALID c then some (BitVec.ofNat 32 (s.fget F.BR_CH_PHASE_PHASE c)) else none

/-! Drops (R71, R77-R79) -/

/-- A unit dropped or truncated with a cause (R71, R79, R86). -/
def dropUnit (s : State) (n cause : Nat) : State :=
  let p := s.fget F.ING_D_CFG_PART n
  let d := s.desc n
  let s := s.setDesc n { d with dropped := min (d.dropped + 1) 0xFFFF }
  let s := (s.fadd F.ING_D_CNT0_DROPS n 1).count 0x121 (some n) (some p) 1
  let s := if cause = 0 then s else s.fset F.ING_D_CTRL_LAST_DROP n cause
  s.traceEv 0x20 0x31 (some p) [(16, n), (16, cause)]

/-- The size of the data ring in bytes (R71). -/
def ringBytes (s : State) (n : Nat) : Nat := s.fget F.ING_D_DATA_SIZE n * 256

/-- Whether units of descriptor `n` start on a 256 B boundary (R71). -/
def aligned (s : State) (n : Nat) : Bool := s.flag F.ING_D_CFG_ALIGN n || frameSrc (s.fget F.ING_D_CFG_SRC n)

/-- PROD where the front unit's first byte lies (R76). -/
def unitOfs (s : State) (n : Nat) : Nat :=
  let p := s.fget F.ING_D_PTR_PROD n
  if s.aligned n then ceilDiv p 256 * 256 else p

/-- The free space of the data ring beyond byte `a` of its free-running count (R77). -/
def ringFree (s : State) (n a : Nat) : Nat :=
  s.ringBytes n - (a + 2 ^ 32 - s.fget F.ING_D_PTR_CONS n) % 2 ^ 32

/-- The Deck slot that holds byte `a` of the free-running count, for DEST 1 (R71, R78). -/
def ringSlot (s : State) (n a : Nat) : Nat :=
  natBits (s.fget F.ING_D_DATA_LOC n) 0 15 + a % s.ringBytes n / 256

/-- The tile of a DEST 1 descriptor. -/
def ringTile (s : State) (n : Nat) : Nat := natBits (s.fget F.ING_D_DATA_LOC n) 16 4

/-- Whether a unit start finds the space for `want` bytes after a ring ran full (R77, R78). -/
def spaceBack (s : State) (n want : Nat) : Bool :=
  if s.flag F.ING_D_CFG_DEST n then !(s.isFull (s.ringTile n) (s.ringSlot n (s.unitOfs n)))
  else decide ((if s.aligned n then ceilDiv want 256 * 256 else want) ≤ s.ringFree n (s.unitOfs n))

/-- Whether a record slot is free (R77). -/
def recordFree (s : State) (n : Nat) : Bool :=
  decide ((s.fget F.ING_D_RPTR_REC_PROD n + 2 ^ 16 - s.fget F.ING_D_RPTR_REC_CONS n) % 2 ^ 16 < 2 ^ s.fget F.ING_D_REC_LOG2_RECS n)

/-! Gating (R53-R56) -/

/-- The windows that gate descriptor `n`: those of its partition set up for it, whether armed or not (R53, R54, R56; log entry
104). -/
def gating (s : State) (n : Nat) : List Nat :=
  (List.range 32).filter (fun w => s.flag F.BR_WIN_CFG_GATE_EN w && s.fget F.BR_WIN_CFG_GATE_DESC w == n &&
    s.fget F.BR_WIN_OWN_PART w == s.fget F.ING_D_CFG_PART n)

/-- Whether window `w` is armed and admits data stamped now (R56). -/
def admits (s : State) (w : Nat) : Bool :=
  let v := s.win w
  let stamp := if s.flag F.BR_WIN_CFG_DOMAIN w then s.phaseOf (s.fget F.BR_WIN_CFG_CHANNEL w) else some s.now
  s.flag F.BR_WIN_STAT_ARMED w && match stamp, v.start with
  | some x, some (a, _) =>
    decide (0 ≤ sdiff x a) && (match v.stop with | some (b, _) => decide (sdiff x b < 0) | none => true)
  | _, _ => false

/-- What the windows say of data of descriptor `n` stamped now; several windows pass what any of them admits (R56; log entry
104). -/
def gateNow (s : State) (n : Nat) : Gating :=
  let ws := (s.gating n).filter s.admits
  { wins := ws.map (fun w => (w, s.fget F.BR_WIN_STAT_COUNT w)), shut := !(s.gating n).isEmpty && ws.isEmpty }

/-! Units (R72, R73) -/

/-- A unit counted and discarded (R73). -/
def unitQuiet (s : State) (n : Nat) : State :=
  (s.fadd F.ING_D_CNT1_QUIET n 1).count 0x122 (some n) (some (s.fget F.ING_D_CFG_PART n)) 1

/-- The stamp of a unit that begins now, with the flags and INFO it starts with (R73, R80, R81). -/
def unitStamp (s : State) (n flags info : Nat) : UnitRec :=
  let ph := s.phaseOf (s.fget F.ING_D_CFG_BR_CH n)
  let en := s.flag F.ING_D_CFG_PH_EN n
  { ts := s.now, wrap := s.wrap, phase := if en then ph.getD 0 else 0, info := info
    flags := flags + (if en && ph.isNone then 1 else 0) + (if s.flag F.TB_STATUS_TB_LOCKED 0 then 0 else 512) }

/-- A unit taken under its number, or dropped whole for want of a record slot or of space (R73, R77-R80). -/
def unitTake (s : State) (n : Nat) (u : UnitRec) (want : Nat) : State :=
  let s := s.fset F.ING_D_CTRL_STATE n 2
  let d := s.desc n
  let s := s.setDesc n { d with seq := d.seq + 1 }
  if !(s.recordFree n) then s.dropUnit n 4
  else if d.skipping && !(s.spaceBack n want) then s.dropUnit n (if s.flag F.ING_D_CFG_DEST n then 2 else 1)
  else s.setDesc n { s.desc n with cur := some { u with seq := d.seq }, skipping := false }

/-- A unit of descriptor `n` begins now: counted while QUIET, else taken (R73). -/
def unitStart (s : State) (n flags info want : Nat) (gate : Option Gating) : State :=
  if s.fget F.ING_D_CTRL_STATE n = 0 then s.unitQuiet n
  else s.unitTake n { s.unitStamp n flags info with gate := gate } want

/-- The bytes of a unit that are in the hub. -/
def unitData (u : UnitRec) : List Byte := (u.data.map (·.data)).flatten

/-- The bytes of the hub's backlog of descriptor `n` (R79). -/
def backlogBytes (d : Desc) : Nat :=
  ((d.backlog.map (fun u => (unitData u).length)).sum) + (match d.cur with | some u => (unitData u).length | none => 0)

/-- A unit cut short (R75, R77-R79). -/
def cutShort (u : UnitRec) : UnitRec := { u with cut := true, flags := u.flags ||| 2 }

/-- A unit is cut short with a cause: one drop, however often it is cut (R79; log entry 105). -/
def dropOnce (s : State) (n cause : Nat) (u : UnitRec) : State := if u.cut then s else s.dropUnit n cause

/-- One grain of the unit in progress: gated out, or taken into the backlog as far as its 32 KiB last (R56, R79, R82). -/
def grain (s : State) (n : Nat) (bs : List Byte) (line : Bool) : State :=
  let d := s.desc n
  match d.cur with
  | none => s
  | some u =>
    let g := u.gate.getD (s.gateNow n)
    if g.shut then
      let s := (s.fadd F.ING_D_CNT1_GATED n 1).count 0x123 (some n) (some (s.fget F.ING_D_CFG_PART n)) 1
      s.setDesc n { d with cur := some { u with outside := u.outside + 1 } }
    else if u.cut then s.setDesc n { d with need := d.need + bs.length, cur := some { u with inside := u.inside + 1 } }
    else
      let room := 32768 - backlogBytes d
      let fits := decide (bs.length ≤ room)
      let u := { u with data := u.data ++ [{ data := bs.take room, wins := g.wins, line := line && fits }], inside := u.inside + 1 }
      if fits then s.setDesc n { d with cur := some u } else (s.setDesc n { d with cur := some (cutShort u) }).dropUnit n 3

/-- A unit as its end leaves it (R80, R82). -/
def unitClosed (s : State) (u : UnitRec) : UnitRec :=
  { u with complete := true, tsEnd := s.now, flags := if u.outside ≠ 0 then u.flags ||| 8 else u.flags }

/-- A unit ends: into the backlog, or away without a record when no grain was inside its window (R76, R82). -/
def unitEnd (s : State) (n : Nat) : State :=
  let d := s.desc n
  match d.cur with
  | none => s
  | some u =>
    if u.inside = 0 then s.setDesc n { d with cur := none }
    else s.setDesc n { d with cur := none, backlog := d.backlog ++ [s.unitClosed u] }

/-- The unit in progress is cut short by its port and ends (R71; log entry 105). -/
def unitCut (s : State) (n : Nat) : State :=
  match (s.desc n).cur with
  | none => s
  | some u => ((s.setDesc n { s.desc n with cur := some (cutShort u) }).dropOnce n 5 u).unitEnd n

/-- A unit of one grain, whole: a frame or a sample (R72). -/
def unitWhole (s : State) (n flags info : Nat) (bs : List Byte) : State :=
  ((s.unitStart n flags info bs.length none).grain n bs false).unitEnd n

/-! Landing (R76-R80) -/

/-- A local HBM write of the hub; a retired pseudo-channel discards it (R284). -/
def hubWrite (s : State) (p a : Nat) (bs : List Byte) : State := (s.hbmWrite p 0xFFFF (s.node * 2 ^ 36 + a % 2 ^ 36) bs).2

/-- Bytes at byte `a` of the data ring in HBM, wrapping at its end (R76). -/
def ringWrite (s : State) (n a : Nat) (bs : List Byte) : State :=
  let p := s.fget F.ING_D_CFG_PART n
  let loc := s.fget F.ING_D_DATA_LOC n
  let pos := a % s.ringBytes n
  let k := s.ringBytes n - pos
  let s := s.hubWrite p (loc + pos) (bs.take k)
  if bs.drop k = [] then s else s.hubWrite p loc (bs.drop k)

/-- Bytes into the slots of a Deck ring while the slot to be written is empty; a completed slot is tagged full. Answers
what did not land (R78). -/
def deckLand (s : State) (n : Nat) : Nat → Nat → List Byte → List Byte × State
  | 0, _, bs => (bs, s)
  | _ + 1, _, [] => ([], s)
  | fuel + 1, a, bs =>
    let t := s.ringTile n
    let slot := s.ringSlot n a
    if s.isFull t slot then (bs, s)
    else
      let o := a % 256
      let k := min (256 - o) bs.length
      let s := s.deckWrite t slot o (bs.take k)
      let s := if o + k = 256 then s.setFull t slot true else s
      s.deckLand n fuel (a + k) (bs.drop k)

/-- Bytes into a Deck ring, charged to the Deck-fill Tollgate, the ring's region fed from outside the programs; answers how
many landed (R21, R78, R277). -/
def slotPut (s : State) (n a : Nat) (bs : List Byte) : Nat × State :=
  let (left, s) := s.deckLand n (bs.length / 256 + 2) a bs
  let k := bs.length - left.length
  (k, (s.charge (s.fget F.ING_D_CFG_PART n) 2 k).feedOut (s.ringTile n) (natBits (s.fget F.ING_D_DATA_LOC n) 20 4))

/-- The room that a unit whose first byte is `a` finds in a data ring in HBM: whole 256 B blocks where units are aligned
(R77). -/
def ringRoom (s : State) (n a : Nat) : Nat :=
  if s.aligned n then s.ringFree n a / 256 * 256 else s.ringFree n a

/-- Bytes of a unit of which `len` have landed, from byte `a`: how many land now (R77, R78). -/
def landBytes (s : State) (n a len : Nat) (bs : List Byte) : Nat × State :=
  if s.flag F.ING_D_CFG_DEST n then s.slotPut n (a + len) bs
  else
    let k := min bs.length (s.ringRoom n a - len)
    (k, s.ringWrite n (a + len) (bs.take k))

/-- The key of a window and its COUNT of completed windows in a descriptor's tally. -/
def runKey (e : Nat × Nat) : Nat := 256 * e.1 + e.2

/-- The first `k` bytes of some grains landed: added to the tally of the windows that admitted them, and the lines that
landed whole (R80). -/
def landTally (k : Nat) : List Grain → Tab Nat → Nat → Tab Nat × Nat
  | [], t, lines => (t, lines)
  | g :: gs, t, lines =>
    let j := min k g.data.length
    landTally (k - j) gs (g.wins.foldl (fun t e => tabSet 0 t (runKey e) (tabGet 0 t (runKey e) + j)) t)
      (if g.line && j == g.data.length then lines + 1 else lines)

/-- What is in the hub of unit `u` lands at byte `a` of the ring; where room runs out the unit is cut short (R77, R78, R80). -/
def landUnit (s : State) (n a : Nat) (u : UnitRec) : UnitRec × State :=
  let bs := unitData u
  let (k, s) := s.landBytes n a u.len bs
  let d := s.desc n
  let (tally, lines) := landTally k u.data d.tally 0
  let v := { u with len := u.len + k, data := [], info := u.info + lines }
  if k = bs.length then (v, s.setDesc n { d with tally := tally })
  else
    (cutShort v, (s.setDesc n { d with tally := tally, skipping := true, need := u.len + bs.length }).dropOnce n
      (if s.flag F.ING_D_CFG_DEST n then 2 else 1) u)

/-- The bytes of a record (R80). -/
def recordBytes (u : UnitRec) (ofs len dropped : Nat) : List Byte :=
  leBytes 4 u.seq.toNat ++ leBytes 4 u.ts.toNat ++ leBytes 4 u.tsEnd.toNat ++ leBytes 4 u.phase.toNat ++ leBytes 4 ofs ++
    leBytes 4 len ++ leBytes 1 (if u.isWindow then 2 else 1) ++ [u.wrap] ++ leBytes 2 u.flags ++ leBytes 2 u.info ++
    leBytes 2 dropped

/-- A record written, and REC_PROD advanced (R76, R80, R139). -/
def recordPost (s : State) (n : Nat) (u : UnitRec) (ofs len : Nat) : State :=
  let p := s.fget F.ING_D_CFG_PART n
  let i := s.fget F.ING_D_RPTR_REC_PROD n % 2 ^ s.fget F.ING_D_REC_LOG2_RECS n
  let d := s.desc n
  let s := s.hubWrite p (s.fget F.ING_D_REC_ADDR n + 32 * i) (recordBytes u ofs len d.dropped)
  let s := s.setDesc n { d with dropped := 0, lastSeq := some u.seq }
  s.fadd F.ING_D_RPTR_REC_PROD n 1

/-- SEM signalled once for a record (R71, R76, R180). -/
def recordSem (s : State) (n : Nat) : State :=
  if s.flag F.ING_D_CFG_SEM_EN n then
    s.signalFree 5 (s.fget F.ING_D_CFG_PART n) (s.fget F.ING_D_CFG_SEM n) (s.fget F.ING_D_CFG_PART n)
  else s

/-- The padding that follows the last byte of a unit (R76). -/
def padding (s : State) (n len : Nat) : Nat := if s.aligned n then (256 - len % 256) % 256 else 0

/-- Zeros that pad a unit's last slot (R76). -/
def padWrite (s : State) (n a pad : Nat) : State :=
  if pad = 0 then s
  else if s.flag F.ING_D_CFG_DEST n then (s.slotPut n a (List.replicate pad 0#8)).2
  else s.ringWrite n a (List.replicate pad 0#8)

/-- The end of a unit whose bytes have landed: padding, record, PROD and REC_PROD, SEM, in that order (R76); without a record
slot the unit is dropped (R77; log entry 105). -/
def unitDone (s : State) (n a : Nat) (u : UnitRec) : State :=
  if !(s.recordFree n) then s.dropOnce n 4 u
  else
    let p := s.fget F.ING_D_CFG_PART n
    let pad := s.padding n u.len
    let s := (s.padWrite n (a + u.len) pad).recordPost n u a u.len
    let s := s.fset F.ING_D_PTR_PROD n (a + u.len + pad)
    let s := (s.fadd F.ING_D_CNT0_UNITS n 1).count 0x120 (some n) (some p) 1
    (s.recordSem n).traceEv 0x20 0x30 (some p) [(16, n), (16, u.seq.toNat)]

/-- A window record: the next SEQ, the window's PROD, and the bytes landed inside it (R80). -/
def windowPost (s : State) (n : Nat) (u : UnitRec) : State :=
  if !(s.recordFree n) then s.dropUnit n 4
  else
    let d := s.desc n
    let k := runKey (u.info, u.run)
    let s := s.setDesc n { d with tally := tabSet 0 d.tally k 0 }
    (s.recordPost n { u with seq := d.seq } u.ofs (tabGet 0 d.tally k)).recordSem n

/-- The bytes in the hub of the first unit behind a window record land, so that the record counts them (R80). -/
def landNext (s : State) (n : Nat) : State :=
  let d := s.desc n
  let a := s.unitOfs n
  match d.backlog.find? (fun u => !u.isWindow), d.cur with
  | some u, _ =>
    let (v, s) := s.landUnit n a u
    s.setDesc n { s.desc n with backlog := d.backlog.replace u v }
  | none, some u =>
    let (v, s) := s.landUnit n a u
    s.setDesc n { s.desc n with cur := some v }
  | none, none => s

/-- One landing: the data in the hub of the front unit, and its end when it is complete; a window record in its turn
(R76-R80). -/
def land (s : State) (n : Nat) : State :=
  let d := s.desc n
  let a := s.unitOfs n
  match d.backlog, d.cur with
  | u :: rest, _ =>
    if u.isWindow then
      let s := s.landNext n
      (s.setDesc n { s.desc n with backlog := (s.desc n).backlog.tail }).windowPost n u
    else
      let (v, s) := s.landUnit n a u
      (s.setDesc n { s.desc n with backlog := rest }).unitDone n a v
  | [], some u =>
    let (v, s) := s.landUnit n a u
    s.setDesc n { s.desc n with cur := some v }
  | [], none => s

/-! Windows (R53-R59) -/

/-- What a window that delivers no data leaves of a unit in the hub (R56). -/
def voidUnit (k : Nat × Nat) (u : UnitRec) : UnitRec :=
  let gone := (u.data.filter (fun g => g.wins == [k])).length
  { u with data := (u.data.filter (fun g => g.wins != [k])).map (fun g => { g with wins := g.wins.filter (· != k) })
           inside := u.inside - gone, outside := u.outside + gone
           flags := if gone = 0 ∨ u.complete = false then u.flags else u.flags ||| 8
           gate := u.gate.map (fun g => { wins := g.wins.filter (· != k), shut := g.shut || g.wins == [k] }) }

/-- The data in the hub that only window `k` admitted is not delivered (R56, R82); what has landed stays (log entry 104). -/
def windowVoid (s : State) (n : Nat) (k : Nat × Nat) : State :=
  let d := s.desc n
  let us := d.backlog ++ d.cur.toList
  let gone := (us.map (fun u => (u.data.filter (fun g => g.wins == [k])).length)).sum
  let s := s.setDesc n { d with cur := d.cur.map (voidUnit k)
                                backlog := (d.backlog.map (voidUnit k)).filter (fun u => u.isWindow || u.inside != 0 || u.len != 0) }
  if gone = 0 then s
  else (s.fadd F.ING_D_CNT1_GATED n gone).count 0x123 (some n) (some (s.fget F.ING_D_CFG_PART n)) gone

/-- A window record waiting in the gated descriptor's hub, when the descriptor is ARMED or RUNNING; data of a window that is
not normal is not delivered (R56, R80). -/
def windowRecord (s : State) (w : Nat) (start stop len : W32) (inv sub inc : Bool) : State :=
  let n := s.fget F.BR_WIN_CFG_GATE_DESC w
  if !(s.flag F.BR_WIN_CFG_GATE_EN w) || s.fget F.ING_D_CTRL_STATE n == 0 then s
  else
    let v := s.win w
    let run := s.fget F.BR_WIN_STAT_COUNT w
    let unlocked := if v.start.isSome then v.unlocked else !(s.flag F.TB_STATUS_TB_LOCKED 0)
    let fl := (if inv then 16 else 0) + (if sub then 32 else 0) + (if inc then 64 else 0) +
      (if s.flag F.BR_WIN_CFG_DOMAIN w then 128 else 0) + (if unlocked then 512 else 0)
    let u : UnitRec := { ts := start, tsEnd := stop, wrap := if v.start.isSome then v.wrap else s.wrap, phase := len, flags := fl,
                         info := w, isWindow := true, ofs := s.fget F.ING_D_PTR_PROD n, run := run, complete := true }
    let s := if inv || sub || inc then s.windowVoid n (w, run) else s
    s.setDesc n { s.desc n with backlog := (s.desc n).backlog ++ [u] }

/-- A window completes with the stamps it holds, a missing one standing as 0 (R53, R55, R56, R58, R59; log entry 104);
`byStart`: the start event closed it; `again`: whether REPEAT may re-arm it. -/
def windowDone (s : State) (w : Nat) (byStart again : Bool) : State :=
  let v := s.win w
  let inc := v.start.isNone || v.stop.isNone
  let (a, ta) := v.start.getD (0, 0)
  let (b, tb) := v.stop.getD (0, 0)
  let d := sdiff b a
  let sub := !inc && (if s.flag F.BR_WIN_CFG_DOMAIN w then
      decide (d.natAbs < s.fget F.BR_CH_QUANT_QUANT (s.fget F.BR_WIN_CFG_CHANNEL w)) else ta == tb)
  let inv := !inc && !sub && decide (d < 0)
  let len : W32 := if inc || sub || inv then 0 else b - a
  let s := s.windowRecord w a b len inv sub inc
  let s := (s.fset F.BR_WIN_START_STAMP w a.toNat).fset F.BR_WIN_STOP_STAMP w b.toNat
  let s := (s.fset F.BR_WIN_LEN_LEN w len.toNat).fadd F.BR_WIN_STAT_COUNT w 1
  let s := (s.fset F.BR_WIN_STAT_INCOMPLETE w (if inc then 1 else 0)).fset F.BR_WIN_STAT_SUB_RESOLUTION w (if sub then 1 else 0)
  let s := (s.fset F.BR_WIN_STAT_ORDER_INVERTED w (if inv then 1 else 0)).fset F.BR_WIN_STAT_DONE w 1
  if again && s.flag F.BR_WIN_CFG_REPEAT w then
    s.setWin w (if inv && byStart then { v with stop := none } else {})
  else (s.fset F.BR_WIN_STAT_ARMED w 0).setWin w {}

/-- One window's view of an event: its stamps, its completion, or its INCOMPLETE closure (R55, R59). -/
def windowOne (src : Nat) (w : Nat) (s : State) : State :=
  let isA := s.fget F.BR_WIN_CFG_START_SRC w == src
  let isB := s.fget F.BR_WIN_CFG_STOP_SRC w == src
  if !(s.flag F.BR_WIN_STAT_ARMED w) || !(isA || isB) then s
  else
    let stamp := if s.flag F.BR_WIN_CFG_DOMAIN w then s.phaseOf (s.fget F.BR_WIN_CFG_CHANNEL w) else some s.now
    match stamp with
    | none => s.windowDone w false true
    | some x =>
      let v := s.win w
      let opens := isA && v.start.isNone
      let v' : Window :=
        { start := if opens then some (x, s.ticks) else v.start
          stop := if isB && v.stop.isNone then some (x, s.ticks) else v.stop
          wrap := if opens then s.wrap else v.wrap
          unlocked := if opens then !(s.flag F.TB_STATUS_TB_LOCKED 0) else v.unlocked }
      let s := s.setWin w v'
      if v'.start.isSome && v'.stop.isSome then s.windowDone w opens true else s

/-- A start or stop event: a firing of alarm slot `src`, or a trigger edge at 0x100 + n or 0x108 + n (R53). -/
def windowEvent (s : State) (src : Nat) : State := forEach (List.range 32) (windowOne src) s

/-- A window disarmed: INCOMPLETE when it holds one stamp (R59). -/
def windowDisarm (s : State) (w : Nat) : State :=
  if !(s.flag F.BR_WIN_STAT_ARMED w) then s
  else if (s.win w).start.isSome || (s.win w).stop.isSome then s.windowDone w false false
  else (s.fset F.BR_WIN_STAT_ARMED w 0).setWin w {}

/-- An armed window of a partition that is reset closes INCOMPLETE, whatever it holds (R59). -/
def windowClose (s : State) (w : Nat) : State := if s.flag F.BR_WIN_STAT_ARMED w then s.windowDone w false false else s

/-- The armed phase windows on a channel that loses its source close INCOMPLETE (R60). -/
def windowsLost (s : State) (c : Nat) : State :=
  forEach ((List.range 32).filter (fun w =>
    s.flag F.BR_WIN_STAT_ARMED w && s.flag F.BR_WIN_CFG_DOMAIN w && s.fget F.BR_WIN_CFG_CHANNEL w == c))
    (fun w s => s.windowDone w false true) s

/-- Whether a window source is reserved, or an alarm slot of another partition (R53, R54). -/
def winSrcBad (s : State) (p src : Nat) : Bool :=
  if src < 0x100 then s.fget F.BR_AL_CFG_PART src != p else decide (0x110 ≤ src)

/-- An arm of window `w`: refused with CFG_ERR under R54; of a window that is armed it is ignored (log entry 104). -/
def windowArm (s : State) (w : Nat) : State :=
  let p := s.fget F.BR_WIN_OWN_PART w
  if s.flag F.BR_WIN_STAT_ARMED w then s
  else if s.winSrcBad p (s.fget F.BR_WIN_CFG_START_SRC w) || s.winSrcBad p (s.fget F.BR_WIN_CFG_STOP_SRC w) ||
      (s.flag F.BR_WIN_CFG_GATE_EN w && s.fget F.ING_D_CFG_PART (s.fget F.BR_WIN_CFG_GATE_DESC w) != p) ||
      (s.flag F.BR_WIN_CFG_DOMAIN w && !(s.flag F.BR_CH_CFG_EN (s.fget F.BR_WIN_CFG_CHANNEL w))) then
    s.fset F.BR_WIN_STAT_CFG_ERR w 1
  else (s.fset F.BR_WIN_STAT_ARMED w 1).setWin w {}

/-! Arming descriptors (R73-R75, R137, R139) -/

/-- The CSI-2 data types of R65. -/
def dtOk (d : Nat) : Bool :=
  d == 0x12 || d == 0x1E || d == 0x24 || (decide (0x2A ≤ d) && decide (d ≤ 0x2E)) || (decide (0x30 ≤ d) && decide (d ≤ 0x37))

/-- Whether SEL is in the ranges of its class (R71, R74; log entry 32). -/
def selOk (src sample sel : Nat) : Bool :=
  if src ≤ 7 then dtOk (natBits sel 4 6)
  else if frameSrc src then true
  else sample != 1 || (decide (1000 ≤ sel) && decide (sel < 2 ^ 31))

/-- Whether a local HBM range is available and granted to `p` (R74, R245). -/
def ringGranted (s : State) (p a n : Nat) : Bool :=
  a / 2 ^ 36 == s.node && decide (a % 2 ^ 36 + n ≤ 2 ^ 36) &&
    (framesOf (a % 2 ^ 36) n).all (fun f => s.granted p f && s.frameIn f)

/-- Whether a descriptor image names the Deck of another partition's tile (R74). -/
def deckForeign (s : State) (cfg : W32) (data : W64) : Bool :=
  let c : W64 := cfg.setWidth 64
  getBits c 31 1 == 1 && (s.tileOwner (getBits data 16 4)).any (· != getBits c 28 3)

/-- The refusals of an arm: 0, 0x0108 or, for a Deck of another partition and nothing else, 0x0400 (R74). -/
def descCheck (s : State) (cfg sel : W32) (data rcd : W64) : Nat :=
  let c : W64 := cfg.setWidth 64
  let part := getBits c 28 3
  let src := getBits c 22 6
  let sample := getBits c 15 2
  let size := getBits data 40 24
  let loc := getBits data 0 40
  let recs := getBits rcd 40 4
  let addr := getBits rcd 0 40
  let t := natBits loc 16 4
  if !(srcListed src) || sample == 3 || (frameSrc src && sample != 0) ||
      (decide (0x20 ≤ src) && decide (src ≤ 0x27) && sample == 0) || !(selOk src sample sel.toNat) || size == 0 ||
      (if getBits c 31 1 = 1 then
        natBits loc 24 16 != 0 || natBits loc 15 1 != 0 || !(s.deckForeign cfg data) &&
          (!(s.fused t) || s.retired t || !(s.owns part t) || !(s.inRegion t (natBits loc 20 4) (natBits loc 0 15) size) ||
            !(s.tagged t (natBits loc 20 4)))
       else loc % 256 != 0 || !(s.ringGranted part loc (size * 256))) ||
      addr % 32 != 0 || decide (recs < 3) || !(s.ringGranted part addr (32 * 2 ^ recs)) ||
      (getBits c 21 1 == 1 && !(s.flag F.BR_CH_CFG_EN (getBits c 17 4))) then 0x0108
  else if s.deckForeign cfg data then 0x0400
  else 0

/-- The images of descriptor `n` as its registers hold them. -/
def descRefused (s : State) (n : Nat) : Nat :=
  s.descCheck ((s.rget .ING_D_CFG n).setWidth 32) ((s.rget .ING_D_SEL n).setWidth 32) (s.rget .ING_D_DATA n) (s.rget .ING_D_REC n)

/-- A QUIET descriptor becomes ARMED (R73). -/
def descArmed (s : State) (n : Nat) : State := (s.fset F.ING_D_CTRL_STATE n 1).setDesc n {}

/-- What the ARM bit of ING_D_CTRL does: a QUIET descriptor is armed, or the arm is refused with CFG_ERR (R73, R74). -/
def descArmBit (s : State) (n : Nat) : State :=
  if s.fget F.ING_D_CTRL_STATE n ≠ 0 then s
  else if s.descRefused n ≠ 0 then s.fset F.ING_D_CTRL_CFG_ERR n 1
  else s.descArmed n

/-- What a DISARM leaves of what is in the hub: window records are posted, and a unit with TRUNCATED and the bytes already
landed; of a gated unit without a grain inside there is no record (R75, R82; log entry 105). -/
def disarmOne (n : Nat) (u : UnitRec) (s : State) : State :=
  if u.isWindow then s.windowPost n u
  else if u.inside = 0 ∧ (u.outside ≠ 0 ∨ u.gate.any (·.shut)) then s
  else (s.dropOnce n 0 u).unitDone n (s.unitOfs n) (cutShort (if u.complete then u else s.unitClosed u))

/-- The hub emptied of descriptor `n`. -/
def hubClear (s : State) (n : Nat) : State := s.setDesc n { s.desc n with pend := none, cur := none, backlog := [] }

/-- A DISARM ends any unit in progress at once, and the descriptor is QUIET (R75). -/
def descDisarm (s : State) (n : Nat) : State :=
  if s.fget F.ING_D_CTRL_STATE n = 0 then s
  else
    let d := s.desc n
    (forEach (d.backlog ++ d.cur.toList) (disarmOne n) (s.hubClear n)).fset F.ING_D_CTRL_STATE n 0

/-- QUIET at once: units are discarded without a record, window records posted (R59, R75, R87). -/
def descQuiet (s : State) (n : Nat) : State :=
  (forEach ((s.desc n).backlog.filter (·.isWindow)) (disarmOne n) (s.hubClear n)).fset F.ING_D_CTRL_STATE n 0

/-! Samples (R70, R72, R83) -/

/-- Descriptors of source `src` whose SAMPLE is natural, ascending (R72). -/
def naturals (s : State) (src : Nat) : List Nat :=
  (List.range 128).filter (fun n => s.fget F.ING_D_CFG_SRC n == src && s.fget F.ING_D_CFG_SAMPLE n == 0)

/-- The payload of an encoder sample (R70): ABZ count and status. -/
def abzPayload (s : State) (src : Nat) : List Byte :=
  let p := s.port src
  leBytes 4 p.count.toNat ++ leBytes 2 p.zCount.toNat ++ leBytes 2 ((if p.broken then 1 else 0) + if p.fast then 2 else 0)

/-- The payload of a source that is sampled at once: ABZ, mains, trigger (R70). -/
def payload (s : State) (src : Nat) : List Byte :=
  let p := s.port src
  if src < 0x20 then s.abzPayload src
  else if src < 0x30 then leBytes 4 p.period.toNat ++ leBytes 4 p.freq.toNat
  else leBytes 4 (if p.level then 1 else 0)

/-- Whether a source's samples are serial transactions: SPI, or an encoder in SSI mode (R70, R83). -/
def serial (s : State) (src : Nat) : Bool :=
  (decide (0x20 ≤ src) && decide (src ≤ 0x27)) ||
    (decide (0x10 ≤ src) && decide (src ≤ 0x1F) && natBit (s.fget F.ING_PORT_CFG_PARAM src) 0)

/-- The bytes of one sample of a serial source (R70). -/
def serialBytes (s : State) (src : Nat) : Nat := if src < 0x20 then 8 else 4 * (natBits (s.fget F.ING_PORT_CFG_PARAM src) 13 3 + 1)

/-- The next waiting transaction of a serial port starts: its units' TS is now, and the windows judge them now (R56, R81,
R83). -/
def serialStart (s : State) (src : Nat) : State :=
  let p := s.port src
  match p.waiting with
  | [] => s
  | q :: rest =>
    if p.busy then s
    else
      let s := s.setPort src { p with waiting := rest, busy := true, serving := q.descs, began := s.ticks }
      forEach q.descs (fun n s =>
        s.unitStart n (if q.latched.contains n then 256 else 0) 0 (s.serialBytes src) (some (s.gateNow n))) s

/-- A request among those that wait: after all earlier ones, and among those of its tick in ascending descriptor number
(R83). -/
def askInsert (a : Ask) (l : List Ask) : List Ask :=
  let before := fun x : Ask => !(x.tick == a.tick && decide (a.descs.headD 0 < x.descs.headD 0))
  l.takeWhile before ++ a :: l.dropWhile before

/-- A sample flagged LATCHED although a latch did not ask for it first (R83). -/
def latchUnit (u : UnitRec) : UnitRec := { u with flags := u.flags ||| 256 }

/-- A serial port asked for a sample of descriptor `n`; a latch and another request of one tick make one sample, which is
LATCHED (R83). -/
def ask (s : State) (src n : Nat) (latched : Bool) : State :=
  let p := s.port src
  let mine := fun a : Ask => a.tick == s.ticks && a.descs.contains n && a.latched.contains n != latched
  if p.busy && p.began == s.ticks && p.serving.contains n && latched then
    s.setDesc n { s.desc n with cur := (s.desc n).cur.map latchUnit }
  else if p.waiting.any mine then
    s.setPort src { p with waiting := p.waiting.map (fun a => if mine a then { a with latched := n :: a.latched.erase n } else a) }
  else
    s.setPort src { p with waiting := askInsert { tick := s.ticks, descs := [n], latched := if latched then [n] else [] } p.waiting }

/-- The SSI poll asked of an encoder for its natural descriptors; a latch asked for on the same tick joins it (R72, R83). -/
def pollAsk (s : State) (src : Nat) : State :=
  let p := s.port src
  let ns := s.naturals src
  let joins := fun a : Ask => a.tick == s.ticks && a.descs.all ns.contains
  let a : Ask := { tick := s.ticks, descs := ns, latched := (p.waiting.filter joins).flatMap (·.latched), poll := true }
  s.setPort src { p with waiting := askInsert a (p.waiting.filter (fun a => !(joins a))) }

/-- A sample taken at once; a latch and another sample of one tick make one, which is LATCHED (R83). -/
def sampleAt (s : State) (n : Nat) (latched : Bool) : State :=
  let d := s.desc n
  if d.sampled = some (s.ticks, !latched) then
    if latched then
      s.setDesc n { d with backlog := d.backlog.map (fun u => if !u.isWindow && u.ts == s.now && u.wrap == s.wrap then latchUnit u else u) }
    else s
  else
    let s := s.unitWhole n (if latched then 256 else 0) 0 (s.payload (s.fget F.ING_D_CFG_SRC n))
    s.setDesc n { s.desc n with sampled := some (s.ticks, latched) }

/-- A sample of descriptor `n` asked for now: taken at once, or queued for its port (R70, R83). -/
def sampleAsk (s : State) (n : Nat) (latched : Bool) : State :=
  let src := s.fget F.ING_D_CFG_SRC n
  if !(s.rxOn src) then s
  else if s.serial src then s.ask src n latched
  else s.sampleAt n latched

/-- The SSI encoders that are free start what waits; an SPI port has SPI_TRANSACTION_START for it (R70, R83). -/
def ssiStarts (s : State) : State := forEach ((List.range 16).map (0x10 + ·)) (fun src s => s.serialStart src) s

/-- A natural event of a source sampled at once; one that no descriptor names counts in UNMATCHED. The overspeed bit of an ABZ
payload stands until a natural sample has carried it (R64, R70, R72; log entry 105). -/
def naturalSample (s : State) (src : Nat) : State :=
  if !(s.rxOn src) then s
  else match s.naturals src with
    | [] => s.unmatched src
    | ns =>
      let s := forEach ns (fun n s => s.sampleAt n false) s
      s.setPort src { s.port src with fast := false }

/-- A capture latch on descriptor `n`: ignored while QUIET and for a frame class (R83). -/
def captureLatch (s : State) (n : Nat) : State :=
  if s.fget F.ING_D_CTRL_STATE n = 0 ∨ frameSrc (s.fget F.ING_D_CFG_SRC n) then s else s.sampleAsk n true

/-- A transaction ends with its payload (R70, R76). -/
def serialEnd (s : State) (src : Nat) (bs : List Byte) : State :=
  let p := s.port src
  let s := s.setPort src { p with busy := false, serving := [] }
  forEach p.serving (fun n s => (s.grain n bs false).unitEnd n) s

/-- A port's receiver held off: what waits or is in progress there ends, and its units are cut short (R63; log entry 105). -/
def portHeld (s : State) (src : Nat) : State :=
  let s := s.setPort src { s.port src with waiting := [], busy := false, serving := [] }
  forEach ((List.range 128).filter (fun n => s.fget F.ING_D_CFG_SRC n == src))
    (fun n s => let s := s.unitCut n; s.setDesc n { s.desc n with pend := none }) s

/-! Frames (R65-R68, R72) -/

/-- The lowest-numbered descriptor that takes a CSI-2 unit (R72). -/
def csiDesc (s : State) (port vc dt : Nat) : Option Nat :=
  (List.range 128).find? (fun n => s.fget F.ING_D_CFG_SRC n == port && natBits (s.fget F.ING_D_SEL_SEL n) 0 4 == vc &&
    natBits (s.fget F.ING_D_SEL_SEL n) 4 6 == dt)

/-- The descriptors whose unit is a frame on `vc` of `port`: the lowest for each data type that is accepted (R65, R72). -/
def csiDescs (s : State) (port vc : Nat) : List Nat :=
  sortBy (fun a b => decide (a ≤ b)) (((List.range 64).filter dtOk).filterMap (s.csiDesc port vc))

/-- Whether virtual channel `vc` is accepted (R65). -/
def vcOk (s : State) (port vc : Nat) : Bool := decide (vc < 4) || natBit (s.fget F.ING_PORT_CFG_PARAM port) 14

/-- The 16-bit samples of one packed group (CSI-2's RAW packing; log entry 33). -/
def rawGroup (dt : Nat) (g : List Byte) : List Nat :=
  let b := fun i => (g.getD i 0).toNat
  if dt = 0x2B then (List.range 4).map (fun i => b i * 4 + natBits (b 4) (2 * i) 2)
  else if dt = 0x2C then [b 0 * 16 + natBits (b 2) 0 4, b 1 * 16 + natBits (b 2) 4 4]
  else
    let low := b 4 + 256 * b 5 + 65536 * b 6
    (List.range 4).map (fun i => b i * 64 + natBits low (6 * i) 6)

/-- The bytes of a group of a packed data type. -/
def rawBytes (dt : Nat) : Nat := if dt = 0x2B then 5 else if dt = 0x2C then 3 else 7

/-- A RAW10-RAW14 line as 16-bit little-endian samples, right-aligned (R65). -/
def unpackLine (dt : Nat) (bs : List Byte) : List Byte :=
  ((List.range (bs.length / rawBytes dt)).map (fun i =>
    ((rawGroup dt ((bs.drop (i * rawBytes dt)).take (rawBytes dt))).map (leBytes 2)).flatten)).flatten

/-- A line as it lands: unpacked when UNPACK is set on a RAW10-RAW14 type (R65). -/
def lineBytes (s : State) (n dt : Nat) (bs : List Byte) : List Byte :=
  if natBit (s.fget F.ING_D_SEL_SEL n) 10 && decide (0x2B ≤ dt) && decide (dt ≤ 0x2D) then unpackLine dt bs else bs

/-- EtherType, VLAN ID and PCP of a frame from its destination MAC on (network byte order, IEEE 802.1Q). -/
def frameTag (bs : List Byte) : Nat × Nat × Nat :=
  let be := fun o => (bs.getD o 0).toNat * 256 + (bs.getD (o + 1) 0).toNat
  if be 12 = 0x8100 then (be 16, natBits (be 14) 0 12, natBits (be 14) 13 3) else (be 12, 0, 0)

/-- The lowest-numbered descriptor that takes a network frame (R71, R72). -/
def netDesc (s : State) (src ety vid : Nat) : Option Nat :=
  (List.range 128).find? (fun n =>
    let sel := s.fget F.ING_D_SEL_SEL n
    s.fget F.ING_D_CFG_SRC n == src && (natBit sel 28 || natBits sel 0 16 == ety) && (natBit sel 29 || natBits sel 16 12 == vid))

/-- A network frame matched to its descriptor: one unit (R72, R80). -/
def netFrame (s : State) (src : Nat) (bs : List Byte) : State :=
  let (ety, vid, pcp) := frameTag bs
  match s.netDesc src ety vid with
  | none => s.unmatched src
  | some n => s.unitWhole n 0 (vid + pcp * 4096) bs

/-- The destination MAC of a frame as QCI_LOAD's DMAC holds it: the first octet in its most significant byte (R140). -/
def dmac (bs : List Byte) : Nat := (bs.take 6).foldl (fun a b => a * 256 + b.toNat) 0

/-- Whether a stream filter entry matches (R140). -/
def filterHit (e : W128) (mac vid : Nat) : Bool :=
  natBit e.toNat 80 && natBits e.toNat 0 48 == mac && (natBit e.toNat 60 || natBits e.toNat 48 12 == vid)

/-- Ingress filtering under 802.1Qci: whether the frame passes, with the meter's tokens taken (R67, R140). Meter tokens are
in 1/2,000 byte, so that CIR Mb/s is CIR of them in one 4 ns tick. -/
def qci (s : State) (port : Nat) (bs : List Byte) : Bool × State :=
  let (_, vid, _) := frameTag bs
  match ((List.range 32).map (fun i => tabGet 0#128 s.filters (32 * port + i))).find? (fun e => filterHit e (dmac bs) vid) with
  | none => (true, s)
  | some e =>
    let v := e.toNat
    let gate := s.gate (17 * port + natBits v 64 4)
    let mi := 32 * port + natBits v 72 5
    let m := (tabGet 0#128 s.meters mi).toNat
    let need := 2000 * (bs.length + 4)
    let used := tabGet 0 s.tokens mi
    if natBit v 83 then (false, s)
    else if natBit v 81 && !(natBit gate.states 0) then (false, s)
    else if natBit v 82 && natBit m 64 then
      if used + need ≤ 2000 * natBits m 32 32 then (true, { s with tokens := tabSet 0 s.tokens mi (used + need) }) else (false, s)
    else (true, s)

/-- One tick's refill of the flow meters at CIR (R140). -/
def meterRefill (s : State) : State :=
  { s with tokens := (s.tokens.map (fun e => (e.1, e.2 - natBits (tabGet 0#128 s.meters e.1).toNat 0 32))).filter (fun e => e.2 ≠ 0) }

end State

open State

/-- FRAME_START: each matching descriptor that is armed runs and keeps the frame's stamp; a unit still open on it ends
truncated (R73, R76, R81). A frame is a unit of a descriptor from the first packet of its data type on (R72; log entry 105).
The line counter's Bearing side is in TimeAlarm. -/
def State.csiFrameStart (s : State) (port vc : Nat) : State :=
  let s := s.setPort port { s.port port with line := 0, counted := (s.port port).counted.filter (fun k => k / 64 != vc) }
  forEach (s.csiDescs port vc) (fun n s =>
    let s := s.unitCut n
    if s.fget F.ING_D_CTRL_STATE n = 0 then s
    else (s.fset F.ING_D_CTRL_STATE n 2).setDesc n { s.desc n with pend := some (s.unitStamp n 0 0) }) s

/-- The first packet of a frame with descriptor `n`'s data type: its unit, or one counted in QUIET, as a frame that was in
progress at the arm is too (R72, R73). -/
def State.csiUnit (s : State) (n : Nat) : State :=
  match (s.desc n).pend with
  | some u =>
    if s.fget F.ING_D_CTRL_STATE n = 0 then s.unitQuiet n
    else (s.setDesc n { s.desc n with pend := none }).unitTake n u (s.desc n).need
  | none => s.unitQuiet n

/-- A line packet's landing side: a packet of a type or a virtual channel that is not accepted counts by itself, a frame that
matches no descriptor once for its VC and DT (R64, R65, R72, R84; log entry 105). -/
def State.csiLine (s : State) (port vc dt : Nat) (data : List Byte) (crcOk : Bool) : State :=
  if !(dtOk dt) || !(s.vcOk port vc) then s.unmatched port
  else
    let p := s.port port
    let first := !(p.counted.contains (vc * 64 + dt))
    let s := if first then s.setPort port { p with counted := p.counted ++ [vc * 64 + dt] } else s
    match s.csiDesc port vc dt with
    | none => if first then s.unmatched port else s
    | some n =>
      let s := if first then s.csiUnit n else s
      let s := if crcOk then s
        else s.setDesc n { s.desc n with cur := (s.desc n).cur.map (fun u => { u with flags := u.flags ||| 4 }) }
      s.grain n (s.lineBytes n dt data) true

/-- FRAME_END: the units of the frame complete (R76). -/
def execFrameEnd (port : Fin 8) (vc : Fin 16) (s : State) : Host.Outcome State Fault Refusal :=
  .next (if s.rxOn port.val && s.vcOk port.val vc.val then
    forEach (s.csiDescs port.val vc.val) (fun n s => let s := s.unitEnd n; s.setDesc n { s.desc n with pend := none }) s else s)

/-- ETH_FRAME: port errors, PTP consumed by a started servo or unmatched, Qci, then matching (R66, R67, R72, R85, R396). -/
def execEthFrame (port : Fin 4) (data : List Byte) (fcsOk : Bool) (s : State) : Host.Outcome State Fault Refusal :=
  .next (
    let src := 8 + port.val
    if !(s.rxOn src) then s
    else if !fcsOk || decide (9216 < data.length + 4) then s.portError src
    else if (frameTag data).1 = 0x88F7 then
      let o := if (frameTag data).2.1 = 0 ∧ (data.getD 12 0).toNat * 256 + (data.getD 13 0).toNat ≠ 0x8100 then 14 else 18
      let oneStep := natBits (data.getD o 0).toNat 0 4 == 0 && !(natBit (data.getD (o + 6) 0).toNat 1)
      if s.power.servo ∧ s.fget F.TB_CTRL_PTP_PORT 0 = port.val ∧ !oneStep then s else s.unmatched src
    else if natBit (s.fget F.ING_PORT_CFG_PARAM src) 3 then
      match s.qci port.val data with
      | (true, s) => s.netFrame src data
      | (false, s) => s.portError src
    else s.netFrame src data)

/-- TAP_FRAME: receive-only; no PTP and no Qci (R68). -/
def execTapFrame (tap : Fin 2) (data : List Byte) (fcsOk : Bool) (s : State) : Host.Outcome State Fault Refusal :=
  .next (
    let src := 12 + tap.val
    if !(s.rxOn src) then s
    else if !fcsOk || decide (9216 < data.length + 4) then s.portError src
    else s.netFrame src data)

/-- PERIODIC_SAMPLE: a SAMPLE 1 descriptor that is ARMED or RUNNING takes a sample; a free SSI encoder starts at once
(R70, R73). -/
def execPeriodicSample (n : Fin 128) (s : State) : Host.Outcome State Fault Refusal :=
  .next (if s.fget F.ING_D_CTRL_STATE n.val ≠ 0 ∧ s.fget F.ING_D_CFG_SAMPLE n.val = 1 then
    let src := s.fget F.ING_D_CFG_SRC n.val
    let s := s.sampleAsk n.val false
    if 0x10 ≤ src ∧ src < 0x20 ∧ s.serial src then s.serialStart src else s
  else s)

/-- SPI_TRANSACTION_START: a waiting request raises CNV once the port is free (R70, R83). -/
def execSpiTransactionStart (port : Fin 8) (s : State) : Host.Outcome State Fault Refusal :=
  .next (if s.rxOn (0x20 + port.val) then s.serialStart (0x20 + port.val) else s)

/-- SPI_TRANSFER_END: WORDS words clocked in, each right-aligned in 4 bytes (R70). -/
def execSpiTransferEnd (port : Fin 8) (words : List W32) (s : State) : Host.Outcome State Fault Refusal :=
  .next (
    let src := 0x20 + port.val
    let par := s.fget F.ING_PORT_CFG_PARAM src
    let n := natBits par 13 3 + 1
    let bits := natBits par 8 5 + 1
    if s.rxOn src ∧ (s.port src).busy then
      s.serialEnd src (((words.take n).map (fun w => leBytes 4 (w.toNat % 2 ^ bits))).flatten)
    else s)

/-- LANDING: the front unit's data has passed the Tollgate and lands (R76, R79). -/
def execLanding (n : Fin 128) (s : State) : Host.Outcome State Fault Refusal := .next (s.gated (s.fget F.ING_D_CFG_PART n.val) (.landing n) (s.land n.val))

/-- D_ARM: a write of ARM to ING_D_CTRL; DEST 1 is armed only by a Trehar command (R73, R74). -/
def execDArm (n : Fin 128) (s : State) : Host.Outcome State Fault Refusal :=
  .next (s.bar (
    if s.flag F.ING_D_CFG_DEST n.val then s.accessFault .pf 2 (0x301018 + n.val * 0x40) 0x80000000#64
    else if s.tdiLocked (s.fget F.ING_D_CFG_PART n.val) then s.accessFault .pf 2 (0x301018 + n.val * 0x40) 0x80000000#64
    else s.descArmBit n.val))

/-- D_DISARM: a write of DISARM to ING_D_CTRL (R75). -/
def execDDisarm (n : Fin 128) (s : State) : Host.Outcome State Fault Refusal :=
  .next (s.bar (
    if s.tdiLocked (s.fget F.ING_D_CFG_PART n.val) then s.accessFault .pf 2 (0x301018 + n.val * 0x40) 0x40000000#64
    else s.descDisarm n.val))

/-- The check of DESC_ARM: R74's refusals, then the partition of the image, of the descriptor and of the Deck, then the state
(R73, R74, R126, R137). -/
def State.descArmCheck (s : State) (c : Cmd) : Nat :=
  match c.par with
  | .descArm n cfg sel data rcd =>
    let st := s.descCheck cfg sel data rcd
    firstBad [if st = 0x0108 then st else 0,
      if getBits (cfg.setWidth 64) 28 3 ≠ c.part ∨ s.fget F.ING_D_CFG_PART n ≠ c.part then 0x0400 else 0, st,
      if s.fget F.ING_D_CTRL_STATE n ≠ 0 then 0x0602 else 0]
  | _ => 0

/-- A command arm refused under R74 sets CFG_ERR of a QUIET descriptor of its own partition (R74; log entry 105). -/
def State.descMark (s : State) (c : Cmd) : State :=
  match c.par with
  | .descArm n cfg sel data rcd =>
    if s.descCheck cfg sel data rcd ≠ 0 ∧ s.fget F.ING_D_CTRL_STATE n = 0 ∧ s.fget F.ING_D_CFG_PART n = c.part then
      s.fset F.ING_D_CTRL_CFG_ERR n 1
    else s
  | _ => s

/-- The work of DESC_ARM: the images are written and the descriptor is armed (R137). -/
def State.descArmGo (c : Cmd) (s : State) : State :=
  match c.par with
  | .descArm n cfg sel data rcd =>
    let s := (s.rset .ING_D_CFG n (cfg.setWidth 64)).rset .ING_D_SEL n (sel.setWidth 64)
    let s := (s.rset .ING_D_DATA n data).rset .ING_D_REC n (rcd &&& 0x00000FFFFFFFFFFF#64)
    (s.descArmed n).finish c.ring c.tag 0 0
  | _ => s

/-- DESC_ARM: the images are written and the descriptor is armed, or the arm is refused (R74, R137). -/
def execDescArm (r : Fin 128) (tag : Fin 512) (s : State) : Host.Outcome State Fault Refusal :=
  .next (s.withCmd r.val tag.val (fun | .descArm .. => true | _ => false) (fun s c =>
    let st := s.descArmCheck c
    (if s.fenceMet c && st != 0 then s.descMark c else s).enter c st (State.descArmGo c)))

/-- The check of DESC_DISARM: the partition (R139). -/
def State.descDisarmCheck (s : State) (c : Cmd) : Nat :=
  match c.par with
  | .descDisarm n => if s.fget F.ING_D_CFG_PART n ≠ c.part then 0x0400 else 0
  | _ => 0

/-- DESC_DISARM: RESULT is the SEQ of the last record since the arm, or 0xFFFFFFFF (R139). -/
def execDescDisarm (r : Fin 128) (tag : Fin 512) (s : State) : Host.Outcome State Fault Refusal :=
  .next (s.begin r.val tag.val (fun | .descDisarm .. => true | _ => false) State.descDisarmCheck
    (fun c s => match c.par with
      | .descDisarm n =>
        if s.fget F.ING_D_CTRL_STATE n = 0 then s.finish c.ring c.tag 0 0xFFFFFFFF
        else
          let s := s.descDisarm n
          s.finish c.ring c.tag 0 (match (s.desc n).lastSeq with | some q => q.toNat | none => 0xFFFFFFFF)
      | _ => s)
    (fun _ s => s))

/-- WIN_ARM: a write of ARM to BR_WIN_STAT (R54). -/
def execWinArm (w : Fin 32) (s : State) : Host.Outcome State Fault Refusal :=
  .next (s.bar (if s.tdiLocked (s.fget F.BR_WIN_OWN_PART w.val) then
    s.accessFault .pf 2 (0x203010 + w.val * 0x20) 0x80000000#64 else s.windowArm w.val))

/-- WIN_DISARM: a write of DISARM to BR_WIN_STAT (R59). -/
def execWinDisarm (w : Fin 32) (s : State) : Host.Outcome State Fault Refusal :=
  .next (s.bar (if s.tdiLocked (s.fget F.BR_WIN_OWN_PART w.val) then
    s.accessFault .pf 2 (0x203010 + w.val * 0x20) 0x40000000#64 else s.windowDisarm w.val))

/-- PORT_LINK_CHANGE: a port gains or loses its footing in the stream (R63). A plant tap or SSI port alike; trigger
inputs always read 1. -/
def execPortLinkChange (src : Fin 64) (up : Bool) (s : State) : Host.Outcome State Fault Refusal :=
  .next (
    if !(srcListed src.val) || decide (0x30 ≤ src.val) then s
    else
      let s := s.fset F.ING_PORT_STAT_LINK src.val (if up then 1 else 0)
      if 0x10 ≤ src.val ∧ src.val ≤ 0x1F ∧ up then s.setPort src.val { s.port src.val with broken := false } else s)

end Sys2Proof.Machine
end

