-- ==== Sys2Proof/Machine/Tick.lean ====
section
/-! DEFINITION. One tick of the 250 MHz timebase clock. -/

namespace Sys2Proof.Machine

/-- Ticks of a clock of `num` / `den` cycles per timebase tick that fall in tick `n` (R320, R321). -/
def cyclesIn (n num den : Nat) : Nat := (n + 1) * num / den - n * num / den

/-- The tile cycles of a tick that tile `t` spends RUNNING, in WAIT_TAG or in WAIT_SEM (R321). -/
def State.tileCycles (s : State) (n t : Nat) : State :=
  let c := fun code => s.count code (some t) (s.tileOwner t) n
  match s.fget F.PT_STAT_STATE t with
  | 1 => c 0x000
  | 2 => c 0x002
  | 3 => c 0x003
  | _ => s

/-- The Truss cycles of a tick in which a RUNNING ring's fetch is paused by the bank switch window (R321, R331). -/
def State.pausedCycles (s : State) (n : Nat) : State :=
  if s.switching then
    forEach ((List.range 128).filter (fun r => s.ringState r == 1)) (fun r s => s.count 0x153 (some r) (some (r / 16)) n) s
  else s

/-- What the counters of cycles take from tick `n`; none while RUN is 0 (R320, R321). -/
def State.cycleCounts (s : State) (n : Nat) : State :=
  if s.flag F.EVC_CTRL_RUN 0 then
    let s := (s.count 0x1B0 none none 1).count 0x1B1 none none (cyclesIn n 24 5)
    let s := s.count 0x1B2 none none (cyclesIn n 32 5)
    (forEach (List.range 16) (fun t s => s.tileCycles (cyclesIn n 32 5) t) s).pausedCycles (cyclesIn n 24 5)
  else s

/-- One tick: TB_INC is added to the counter once the timebase PLL has locked, and a carry out of bit 55 advances the
wrap count (R30, R31, R391); waits at the Tollgates count in TG_WAIT, their buckets and the flow meters refill, and the
commands that may go on come to the queue (R140, R241-R243, R292); the counters of cycles count (R321). -/
def State.tick (s : State) : State :=
  if !s.power.pll then s
  else
    let sum := s.tb.toNat + s.fget F.TB_INC_INC 0
    let n := s.ticks
    let s := { s with tb := BitVec.ofNat 56 sum, wrap := s.wrap + BitVec.ofNat 8 (sum / 2 ^ 56), ticks := n + 1 }
    (((s.tollCycles (cyclesIn n 24 5)).refill.meterRefill).serveHeld).cycleCounts n

end Sys2Proof.Machine
end

