-- ==== Sys2Proof/Machine/Causeway.lean ====
section
/-! DEFINITION. The Causeway: nodes and membership (R287, R293), grants (R289), link states (R290, R291), link errors (R285,
R299) and the inbound path (R20, R240, R288, R297, R298). -/

namespace Sys2Proof.Machine
namespace State

/-- CW_LINK_STAT.STATE: 0 DOWN, 1 TRAINING, 2 HELD, 3 ACTIVE, 4 RETRAIN, 5 RETIRED (R290). -/
def linkState (s : State) (l : Nat) : Nat := s.fget F.CW_LINK_STAT_STATE l

/-- A link enters a state, with its LINK_STATE record (R290, R311). -/
def setLink (s : State) (l st : Nat) : State :=
  (s.fset F.CW_LINK_STAT_STATE l st).traceEv 0x25 0x80 none [(16, l), (16, st)]

/-- A LINK record: node and consecutive failures (R262). -/
def linkFault (s : State) (l cause action : Nat) : State :=
  s.fault { cls := 5, action := action, unit := l, cause := cause
            info0 := BitVec.ofNat 64 (s.fget F.CW_LINK_STAT_PEER_NODE l), info1 := BitVec.ofNat 32 (s.fget F.CW_LINK_STAT_FAILS l) }

/-- Whether a path of at most two hops to node `nd` exists: a link in ACTIVE or RETRAIN to it or to its transit device (R291,
R293, R294; log entry 20). -/
def hasPath (s : State) (nd : Nat) : Bool :=
  (List.range 8).any (fun l => (s.linkState l == 3 || s.linkState l == 4) &&
    (s.fget F.CW_LINK_STAT_PEER_NODE l == nd || s.fget F.CW_LINK_STAT_PEER_NODE l == Config.routeOf nd))

/-- MEMBERS as the links stand: this device, and every peer with a path (R287). -/
def membersNow (s : State) : Nat :=
  ((List.range 8).map (fun nd => if nd = s.node ∨ s.hasPath nd then 2 ^ nd else 0)).sum

/-- MEMBERS after link `l` came or went, with PEER_JOINED and PEER_LEFT (R293). -/
def members (s : State) (l : Nat) : State :=
  let old := s.fget F.CW_NODE_MEMBERS 0
  let new := s.membersNow
  let s := s.fset F.CW_NODE_MEMBERS 0 new
  forEach ((List.range 8).filter (fun nd => nd != s.node)) (fun nd s =>
    if natBit new nd && !(natBit old nd) then s.event 0x0300 0xFF nd l 0
    else if natBit old nd && !(natBit new nd) then s.event 0x0301 0xFF nd l 0
    else s) s

/-- A link goes to ACTIVE: FAILS 0, membership, and LINK_RESTORED after a RESTORE (R265, R291, R293). -/
def linkActive (s : State) (l : Nat) : State :=
  let s := ((s.setLink l 3).fset F.CW_LINK_STAT_FAILS l 0).members l
  if natBit s.restores l then
    { s with restores := s.restores - 2 ^ l }.event 0x0031 0xFF l (s.fget F.CW_LINK_STAT_PEER_NODE l) 0
  else s

/-- Whether HELD links may enter ACTIVE: memory-ready, in the pool, not in RECOVERY (R287, R291, R394, R395). -/
def linksReady (s : State) : Bool := s.power.memReady && !s.power.recovery && s.flag F.CW_NODE_POOL_EN 0

/-- Every HELD link enters ACTIVE once the device is ready (R394). -/
def heldActive (s : State) : State :=
  if s.linksReady then forEach ((List.range 8).filter (fun l => s.linkState l == 2)) (fun l s => s.linkActive l) s else s

/-- A failed training or retraining: the third in a row retires the link (R285, R291). -/
def linkFailed (s : State) (l : Nat) : State :=
  let s := (s.fset F.CW_LINK_STAT_FAILS l (s.fget F.CW_LINK_STAT_FAILS l + 1)).linkFault l 2 0
  if s.fget F.CW_LINK_STAT_FAILS l < 3 then s
  else
    let s := (s.setLink l 5).linkFault l 3 4
    let s := { s with restores := if natBit s.restores l then s.restores - 2 ^ l else s.restores }
    ((s.event 0x0030 0xFF l (s.fget F.CW_LINK_STAT_PEER_NODE l) 0).members l).recompute

/-- Whether an announced node is this device's own ID, or is seen by another link on a different device: one whose link of the
announced number is already taken (R291; log entry 57). -/
def nodeConflict (s : State) (l node plink : Nat) : Bool :=
  node == s.node || (List.range 8).any (fun k => k != l && decide (2 ≤ s.linkState k) && decide (s.linkState k ≤ 4) &&
    s.fget F.CW_LINK_STAT_PEER_NODE k == node && s.fget F.CW_LINK_STAT_PEER_LINK k == plink)

/-- A training attempt that aligned: HELD, or DOWN with NODE_CONFLICT until the next device reset (R291, R302). -/
def linkTrained (s : State) (l node plink : Nat) (mask : W64) : State :=
  let conflict := s.nodeConflict l node plink
  let s := (s.fset F.CW_LINK_STAT_PEER_NODE l node).fset F.CW_LINK_STAT_PEER_LINK l plink
  if conflict then
    { s.setLink l 0 with conflicts := s.conflicts + 2 ^ l }.event 0x0302 0xFF l node s.node
  else
    let s := { s with peerMasks := tabSet 0#64 s.peerMasks node mask }.toPool node (.mask s.retiredMask)
    let s := (s.setLink l 2).fset F.CW_LINK_STAT_FAILS l 0
    (if s.linksReady then s.linkActive l else s).recompute

/-- DOWN by DISABLE: traffic is rerouted, no fault is counted (R290). -/
def linkOff (s : State) (l : Nat) : State :=
  let s := { s.setLink l 0 with restores := if natBit s.restores l then s.restores - 2 ^ l else s.restores }
  (s.members l).recompute

/-- A write of a grant entry (R289, R339). -/
def grantWrite (s : State) (i : Nat) (v : W64) : State :=
  let p := s.fget F.CW_GRANT_PART i
  let off := regOffset .CW_GRANT i
  if s.tdiLocked p then s.accessFault .pf 2 off v
  else if s.cmds.any (fun c => c.part == p) then s.accessFault .pf 3 off v
  else
    let s := s.rset .CW_GRANT i (v &&& regMask .CW_GRANT .rw)
    if getBits v 53 3 = s.node then s.fset F.CW_GRANT_EN i 0 else s

/-! The inbound path -/

/-- Whether a peer's access lies within the exported run and in service (R284, R288). -/
def exported (s : State) (o n : Nat) : Bool :=
  let a := s.fget F.CW_EXPORT_FIRST 0
  decide (0 < n) && decide (o + n ≤ 2 ^ 36) &&
    (framesOf o n).all (fun f => decide (a ≤ f) && decide (f < a + s.fget F.CW_EXPORT_COUNT 0) && s.frameIn f)

/-- The partition charged for inbound traffic (R240). -/
def poolPart (s : State) : Nat := s.fget F.TG_STATUS_POOL_PART 0

/-- The record of a remote read of a poisoned frame on this device (R299). -/
def poisonServed (s : State) (o n : Nat) : State :=
  match (framesOf o n).find? (fun f => s.poisoned.contains f) with
  | some f => s.fault { cls := 3, part := (s.frameOwner f).getD 0xFF, unit := f % 64, cause := 2
                        info0 := BitVec.ofNat 64 (s.node * 2 ^ 36 + max o (f * 0x200000)), info1 := BitVec.ofNat 32 f }
  | none => s

/-- Blocks that a request brings over link `l`; a frame that passes ends the link's run of replays (R290, R291, R321). -/
def linkTook (s : State) (l n : Nat) : State :=
  { s with replays := tabSet 0 s.replays l 0 }.count (0x108 + l) none none (ceilDiv n 256)

/-- An answer of `n` data bytes sent back over link `l` against its response lane, which no request holds up (R290, R292,
R321). -/
def answer (s : State) (nd l n : Nat) (m : PoolMsg) : State :=
  let k := ceilDiv n 256
  (((s.laneUse l 1 (max 1 k)).fadd F.CW_LINK_CNT_BLOCKS l k).count (0x100 + l) none none k).toPool nd m

/-- A peer's read: refused outside the export run; charged to POOL_PART; a poisoned frame is recorded (R240, R288, R299). -/
def serveRead (s : State) (nd l o n : Nat) : State :=
  let s := s.linkTook l 0
  if !(s.exported o n) then s.answer nd l 0 .refused
  else if (framesOf o n).any (fun f => s.poisoned.contains f) then (s.poisonServed o n).answer nd l 0 .poisoned
  else ((s.charge s.poolPart 0 n).countBlocks 0x040 s.poolPart o n).answer nd l n (.data (memRead s.hbm o n))

/-- A peer's write (R240, R288). -/
def serveWrite (s : State) (nd l o : Nat) (bs : List Byte) : State :=
  let s := s.linkTook l bs.length
  if !(s.exported o bs.length) then s.answer nd l 0 .refused
  else
    let s := (s.charge s.poolPart 0 bs.length).countBlocks 0x080 s.poolPart o bs.length
    { s with hbm := memWrite s.hbm o bs }.answer nd l 0 .done

/-- Whether a sequence number of node `nd` was applied already (R298). -/
def wasApplied (s : State) (nd : Nat) (seq : W64) : Bool := (tabGet [] s.applied nd).contains seq

/-- A sequence number recorded among the last 4,096 (R298). -/
def nowApplied (s : State) (nd : Nat) (seq : W64) : State :=
  let q := tabGet [] s.applied nd
  { s with applied := tabSet [] s.applied nd ((q ++ [seq]).drop (q.length + 1 - 4096)) }

/-- The contributions of a remote reduction: its packed elements (R214, R297). -/
def contributions (bits : Nat) (bs : List Byte) : List Nat :=
  (List.range (8 * bs.length / bits)).map (fun k => leNat bs / 2 ^ (bits * k) % 2 ^ bits)

/-- A peer's reduction into exported HBM, applied once (R297, R298). -/
def serveAdd (s : State) (nd l : Nat) (seq : W64) (fmt : Nat) (ring : Bool) (o : Nat) (bs : List Byte) : State :=
  let s := s.linkTook l bs.length
  if s.wasApplied nd seq then s.answer nd l 0 .done
  else if !(s.exported o bs.length) then s.answer nd l 0 .refused
  else if (framesOf o bs.length).any (fun f => s.poisoned.contains f) then (s.poisonServed o bs.length).answer nd l 0 .poisoned
  else
    let bits := elemBits ring fmt
    let s := s.nowApplied nd seq
    let s := ((s.charge s.poolPart 0 (2 * bs.length)).countBlocks 0x040 s.poolPart o bs.length).countBlocks 0x080 s.poolPart o bs.length
    { s with hbm := memWrite s.hbm o (addPacked bits fmt (memRead s.hbm o bs.length) (contributions bits bs)) }.answer nd l 0 .done

/-- A peer's reduction into a Deck slot, under its tag: a TAGGED slot that is full holds the request back, and is full after
it; charged to POOL_PART (R20, R21, R176, R240, R277, R297, R298, R311). The sending tile's number is the peer's: a free value. -/
def serveDeck (s : State) (nd l : Nat) (seq : W64) (fmt : Nat) (ring : Bool) (t slot : Nat) (bs : List Byte) : State :=
  if s.retired t || !(s.fused t) then (s.linkTook l bs.length).answer nd l 0 .refused
  else if s.wasApplied nd seq then (s.linkTook l bs.length).answer nd l 0 .done
  else
    let tag := match s.regionOf t slot with
      | some g => s.tagged t g
      | none => false
    if tag && s.isFull t slot then s
    else
      let bits := elemBits ring fmt
      let s := (s.linkTook l bs.length).nowApplied nd seq
      let s := s.deckWrite t slot 0 (addPacked bits fmt (s.deckRead t slot 0 bs.length) (contributions bits bs))
      let s := if tag then (s.setFull t slot true).feedOut t ((s.regionOf t slot).getD 0) else s
      let s := s.charge s.poolPart 2 bs.length
      let (v, s) := s.draw
      (s.traceEv t 0x19 (s.tileOwner t) [(16, v.toNat), (16, slot)]).answer nd l 0 .done

/-- Blocks of another pair of nodes forwarded over a direct link, on the lane they came by, without touching memory, charged to
POOL_PART's CW Tollgate (R292, R294). -/
def forward (s : State) (l dest n : Nat) (response : Bool) : State :=
  match (List.range 8).find? (fun k => s.linkState k == 3 && s.fget F.CW_LINK_STAT_PEER_NODE k == dest) with
  | none => s
  | some k =>
    let b := ceilDiv n 256
    let s := ((s.linkTook l n).charge s.poolPart 1 n).laneUse k (if response then 1 else 0) b
    ((s.fadd F.CW_LINK_CNT_BLOCKS k b).count (0x100 + k) none none b).toPool dest (.transit n)

/-- One inbound request on an ACTIVE link of a member (R288, R294, R297). -/
def inbound (s : State) : Inbound → State
  | .read nd l a n => if s.linkState l.val = 3 then s.serveRead nd.val l.val a.toNat n else s
  | .write nd l a bs => if s.linkState l.val = 3 then s.serveWrite nd.val l.val a.toNat bs else s
  | .transit _ l dest n response => if s.linkState l.val = 3 then s.forward l.val dest.val n response else s
  | .addHbm nd l seq fmt ring a bs =>
    if s.linkState l.val = 3 then s.serveAdd nd.val l.val seq fmt.toNat ring a.toNat bs else s
  | .addDeck nd l seq fmt ring t slot bs =>
    if s.linkState l.val = 3 then s.serveDeck nd.val l.val seq fmt.toNat ring t.val slot.val (bs.take 256) else s

/-! Pool registers (R287, R288) -/

/-- A write of CW_NODE: POOL_EN only while every link is DOWN, HELD or RETIRED (R287, R300). -/
def nodeWrite (s : State) (w : W64) : State :=
  if (List.range 8).any (fun l => s.linkState l == 1 || s.linkState l == 3 || s.linkState l == 4) then
    s.accessFault .pf 3 (regOffset .CW_NODE 0) w
  else
    let en := getBits w 31 1
    let s := (s.fset F.CW_NODE_POOL_EN 0 en).fset F.CW_NODE_ID 0 (if en = 1 then s.fuses.straps % 8 else 0)
    (s.fset F.CW_NODE_MEMBERS 0 s.membersNow).heldActive

/-- RESTORE: a RETIRED link trains again with FAILS 0 (R290). -/
def linkRestore (s : State) (l : Nat) : State :=
  if s.linkState l ≠ 5 then s
  else { (s.fset F.CW_LINK_STAT_FAILS l 0).setLink l 1 with restores := s.restores + 2 ^ l }

/-- DISABLE: a link goes DOWN; a RETIRED link leaves only by RESTORE (R290, R291). -/
def linkDisable (s : State) (l : Nat) : State := if s.linkState l = 0 ∨ s.linkState l = 5 then s else s.linkOff l

/-- A write of CW_EXPORT, only while POOL_EN is 0 (R288). -/
def exportWrite (s : State) (w : W64) : State :=
  if s.flag F.CW_NODE_POOL_EN 0 then s.accessFault .pf 3 (regOffset .CW_EXPORT 0) w
  else s.rset .CW_EXPORT 0 (w &&& regMask .CW_EXPORT .rw)

end State

open State

/-- SIGNAL_DETECT: a signal on a DOWN link starts its training (R291, R391). -/
def execSignalDetect (l : Fin 8) (s : State) : Host.Outcome State Fault Refusal :=
  .next (if s.linkState l.val = 0 ∧ s.flag F.CW_NODE_POOL_EN 0 ∧ s.power.hubs ∧ !(natBit s.conflicts l.val) then s.setLink l.val 1
    else s)

/-- TRAINING_END: a training attempt ends (R291). -/
def execTrainingEnd (l : Fin 8) (res : TrainResult) (s : State) : Host.Outcome State Fault Refusal :=
  .next (if s.linkState l.val ≠ 1 then s
    else match res with
      | .ok node plink mask => s.linkTrained l.val node.val plink.val mask
      | .failed => s.linkFailed l.val)

/-- An ACTIVE link enters RETRAIN (R291, R301). -/
def State.linkLost (s : State) (l : Nat) : State :=
  ((({ s with replays := tabSet 0 s.replays l 0 }.setLink l 4).fadd F.CW_LINK_STAT_RETRAINS l 1).count (0x118 + l) none none 1).linkFault l 1 0

/-- LINK_ALIGNMENT_LOSS: a link that loses alignment enters RETRAIN (R291, R299, R301). -/
def execLinkAlignmentLoss (l : Fin 8) (s : State) : Host.Outcome State Fault Refusal :=
  .next (if s.linkState l.val ≠ 3 then s else s.linkLost l.val)

/-- RETRAIN_ATTEMPT: a retraining ends in ACTIVE, or fails; the third failure retires the link (R291). -/
def execRetrainAttempt (l : Fin 8) (ok : Bool) (s : State) : Host.Outcome State Fault Refusal :=
  .next (if s.linkState l.val ≠ 4 then s else if ok then s.linkActive l.val else s.linkFailed l.val)

/-- RESTORE: a RETIRED link trains again with FAILS 0 (R290). -/
def execLinkRestore (l : Fin 8) (s : State) : Host.Outcome State Fault Refusal :=
  .next (s.bar (s.linkRestore l.val))

/-- DISABLE: a link goes DOWN; a RETIRED link leaves only by RESTORE (R290, R291). -/
def execLinkDisable (l : Fin 8) (s : State) : Host.Outcome State Fault Refusal :=
  .next (s.bar (s.linkDisable l.val))

/-- CW_GRANT_WRITE: a write of a grant entry (R289). -/
def execCwGrantWrite (i : Fin 64) (v : W64) (s : State) : Host.Outcome State Fault Refusal := .next (s.bar (s.grantWrite i.val v))

/-- INBOUND_REQUEST: a peer's request served within the export run, or refused, once POOL_PART has tokens (R240, R288, R297,
R298). -/
def execInboundRequest (req : Inbound) (s : State) : Host.Outcome State Fault Refusal :=
  .next (s.gated s.poolPart (.inboundRequest req) (s.inbound req))

/-- A replay of the link's current frame counted; the sixteenth in a row ends in RETRAIN (R285, R290, R291). -/
def State.linkReplay (s : State) (l : Nat) : State :=
  let k := tabGet 0 s.replays l + 1
  let s := { s with replays := tabSet 0 s.replays l k }
  let s := (s.fadd F.CW_LINK_CNT_CRC_REPLAYS l 1).count (0x110 + l) none none 1
  if k < 16 then s else s.linkLost l

/-- LINK_CRC_ERROR: a frame is replayed at link level and counted; 16 consecutive replays of one frame lose the link (R285,
R290, R291). -/
def execLinkCrcError (l : Fin 8) (s : State) : Host.Outcome State Fault Refusal :=
  .next (if s.linkState l.val = 3 then s.linkReplay l.val else s)

/-- RETIRED_MASK_UPDATE: a member's published mask of retired pseudo-channels (R289). -/
def execRetiredMaskUpdate (node : Fin 8) (mask : W64) (s : State) : Host.Outcome State Fault Refusal :=
  .next (if natBit (s.fget F.CW_NODE_MEMBERS 0) node.val ∧ node.val ≠ s.node then
      { s with peerMasks := tabSet 0#64 s.peerMasks node.val mask }
    else s)

end Sys2Proof.Machine
end

