-- ==== Sys2Proof/Machine/Egress.lean ====
section
/-! DEFINITION. Excitation (R89-R94, R141), staging and releases (R95-R98), PWM (R99-R101), trigger pulses (R102), drive
frames and gate lists (R103, R104, R140, R142) and the advisory port (R105-R110). -/

namespace Sys2Proof.Machine
namespace State

/-! Excitation (R89-R94) -/

/-- SETPOINT, ILIM, ISCALE and FOLD in range (R90, R91). -/
def excOk (s : State) (c : Nat) : Bool :=
  let sp := s.fget F.EXC_CH_CFG_SETPOINT c
  let il := s.fget F.EXC_CH_LIM_ILIM c
  let sc := s.fget F.EXC_CH_LIM_ISCALE c
  decide (5000 ≤ sp) && decide (sp ≤ 30000) && decide (50 ≤ il) && decide (il ≤ 10000) && decide (1 ≤ sc) &&
    decide (il * 1000 ≤ sc * 4095) && s.fget F.EXC_CH_LIM_FOLD c != 0

/-- A fault record of the excitation class (R262). -/
def excFault (s : State) (c cause action : Nat) : State :=
  s.fault { cls := 6, action := action, part := s.fget F.EXC_CH_CFG_PART c, unit := c, cause := cause
            info0 := BitVec.ofNat 64 (s.fget F.EXC_CH_MEAS_VOUT c * 65536 + s.fget F.EXC_CH_MEAS_IOUT c)
            info1 := BitVec.ofNat 32 (s.fget F.EXC_CH_STAT_ATTEMPT c) }

/-- The gate off, in state `st` (R91, R92). -/
def excGateOff (s : State) (c st : Nat) : State :=
  ((s.fset F.EXC_CH_STAT_LIMITING c 0).fset F.EXC_CH_STAT_FOLDBACK c 0).fset F.EXC_CH_STAT_STATE c st

/-- A ramp starts with ATTEMPT `a` (R91). -/
def excRamp (s : State) (c a : Nat) : State :=
  let s := ((s.fset F.EXC_CH_STAT_ATTEMPT c a).fset F.EXC_CH_STAT_STATE c 1).count (0x1C0 + c) none
    (some (s.fget F.EXC_CH_CFG_PART c)) 1
  { s with rampUs := tabSet 0 s.rampUs c 0 }

/-- ON (R91, R92): a ramp from OFF, or CFG_ERR; ignored in every other state. -/
def excTurnOn (c : Nat) (s : State) : State :=
  if s.fget F.EXC_CH_STAT_STATE c ≠ 0 then s
  else if s.excOk c then s.excRamp c 1 else s.fset F.EXC_CH_STAT_CFG_ERR c 1

/-- OFF (R92): the gate off, unless RETIRED. -/
def excTurnOff (c : Nat) (s : State) : State := if s.fget F.EXC_CH_STAT_STATE c = 4 then s else s.excGateOff c 0

/-- CLEAR_RETIRED (R92). -/
def excClear (c : Nat) (s : State) : State :=
  if s.fget F.EXC_CH_STAT_STATE c = 4 then s.fset F.EXC_CH_STAT_STATE c 0 else s

/-- The check of EXC_CMD: the partition, and the state for a write of CFG and LIM (R90, R92, R141). -/
def excCheck (s : State) (c : Cmd) : Nat :=
  match c.par with
  | .excCmd ch _ w cfg _ =>
    let st := s.fget F.EXC_CH_STAT_STATE ch
    if s.fget F.EXC_CH_CFG_PART ch ≠ c.part ∨ (w ∧ getBits (cfg.setWidth 64) 28 3 ≠ c.part) then 0x0400
    else if w ∧ st ≠ 0 ∧ st ≠ 4 then 0x0602 else 0
  | _ => 0

/-- An EXC_CMD of channel `c`, or a write of EXC_CH_CTRL (R90, R141): `want` is the CMD, `act` what it does. -/
def excCommand (s : State) (src : ExcSrc) (want : Nat) (act : Nat → State → State) : State :=
  match src with
  | .reg c =>
    s.bar (if s.tdiLocked (s.fget F.EXC_CH_CFG_PART c.val) then
      s.accessFault .pf 2 (0x400008 + c.val * 0x20) (BitVec.ofNat 64 (want * 2 ^ 30)) else act c.val s)
  | .trehar r tag =>
    s.begin r.val tag.val (fun | .excCmd _ cmd .. => cmd == want || (cmd == 0 && want == 1) | _ => false) excCheck
      (fun c s => match c.par with
        | .excCmd ch cmd w cfg lim =>
          let s := if w then (s.rset .EXC_CH_CFG ch (cfg.setWidth 64 &&& regMask .EXC_CH_CFG .rw)).rset .EXC_CH_LIM ch (lim.setWidth 64)
            else s
          let refused := cmd == 1 && s.fget F.EXC_CH_STAT_STATE ch == 0 && !(s.excOk ch)
          let s := if cmd = 0 then s else act ch s
          s.finish c.ring c.tag (if refused then 0x0108 else 0) (s.rget .EXC_CH_STAT ch).toNat
        | _ => s)
      (fun _ s => s)

/-- A failed ramp or an ended ON: WAIT, or RETIRED after the third attempt, with its records (R91, R111, R112, R265). -/
def excFail (s : State) (c cause : Nat) (retire : Bool) : State :=
  let s := s.excFault c cause 0
  if retire then
    let s := (s.excGateOff c 4).fset F.EXC_CH_STAT_RETIRED_EV c 1
    (s.excFault c 3 4).event 0x0040 (s.fget F.EXC_CH_CFG_PART c) c 0 0
  else s.excGateOff c 3

/-- LIMITING and FOLDBACK of one sample (R91): in RAMP against the active limit, in ON against ILIM. -/
def excLimits (s : State) (c : Nat) : State :=
  let st := s.fget F.EXC_CH_STAT_STATE c
  let il := s.fget F.EXC_CH_LIM_ILIM c
  let fold := il * s.fget F.EXC_CH_LIM_FOLD c / 16
  let active := if s.flag F.EXC_CH_STAT_FOLDBACK c then fold else il
  let lim := (st == 1 || st == 2) && decide (active ≤ s.fget F.EXC_CH_MEAS_IOUT c)
  -- SETPOINT × t / 10 ms with t in µs; VOUT below 50 % of it
  let low := decide (2 * s.fget F.EXC_CH_MEAS_VOUT c * 10000 < s.fget F.EXC_CH_CFG_SETPOINT c * min (tabGet 0 s.rampUs c) 10000)
  let s := s.fset F.EXC_CH_STAT_LIMITING c (if lim then 1 else 0)
  let s := s.fset F.EXC_CH_STAT_FOLDBACK c (if lim && st == 1 && low then 1 else 0)
  if lim then s.count (0x1C4 + c) none (some (s.fget F.EXC_CH_CFG_PART c)) 1 else s

/-! Staging runs (R95) -/

/-- Whether a run of `n` slots lies in a TAGGED region of a tile that `p` owns and that is in service (R95, R272). -/
def runOk (s : State) (p t g slot n : Nat) : Bool :=
  s.owns p t && s.fused t && !(s.retired t) && s.inRegion t g slot n && s.tagged t g

/-- A staging run: tile, region, first slot and length, with the output's partition, when the output is enabled. -/
def stageRun (s : State) (o : StageOut) : Option (Nat × Nat × Nat × Nat × Nat) :=
  match o with
  | .group g =>
    if s.flag F.ACT_GRP_CFG_EN g.val then
      some (s.fget F.ACT_GRP_CFG_PART g.val, s.fget F.ACT_GRP_CFG_TILE g.val, s.fget F.ACT_GRP_CFG_REGION g.val,
        s.fget F.ACT_GRP_CFG_SLOT g.val, 1) else none
  | .queue q =>
    if s.flag F.ACT_DQ_CFG_EN q.val then
      some (s.fget F.ACT_DQ_CFG_PART q.val, s.fget F.ACT_DQ_SRC_TILE q.val, s.fget F.ACT_DQ_SRC_REGION q.val,
        s.fget F.ACT_DQ_SRC_SLOT q.val, s.fget F.ACT_DQ_SRC_NSLOTS q.val) else none
  | .tag k =>
    if s.flag F.ACT_ADV_SRC_EN k.val then
      some (s.fget F.ACT_ADV_WL0_PART k.val, s.fget F.ACT_ADV_SRC_TILE k.val, s.fget F.ACT_ADV_SRC_REGION k.val,
        s.fget F.ACT_ADV_SRC_SLOT k.val, 1) else none

/-- The enabled PWM outputs of a group, ascending (R100). -/
def groupOuts (s : State) (g : Nat) : List Nat :=
  (List.range 32).filter (fun o => s.flag F.ACT_PWM_CFG_EN o && s.fget F.ACT_PWM_CFG_GROUP o == g)

/-- A payload of exactly `n` bytes: the safe payload of an image has the LEN of its tag (R107; log entry 107). -/
def fitTo (n : Nat) (bs : List Byte) : List Byte := bs.take n ++ List.replicate (n - bs.length) 0#8

/-- A value staged now on an output (R95, R109). -/
def staged (s : State) (o : StageOut) (bs : List Byte) : State :=
  let v : Staged := { data := bs, ts := s.now, wrap := s.wrap, tick := s.ticks }
  match o with
  | .group g =>
    let p := s.fget F.ACT_GRP_CFG_PART g.val
    let s := if s.flag F.ACT_GRP_STAT_FRESH g.val then
        forEach (s.groupOuts g.val) (fun i s => s.count 0x142 (some i) (some p) 1) (s.fadd F.ACT_GRP_STAT_OVERWRITE g.val 1)
      else s
    (s.setGroup g.val { s.group g.val with staged := some v }).fset F.ACT_GRP_STAT_FRESH g.val 1
  | .queue q =>
    let p := s.fget F.ACT_DQ_CFG_PART q.val
    let s := if s.flag F.ACT_DQ_STAT_FRESH q.val then s.count 0x142 (some (32 + q.val)) (some p) 1 else s
    (s.setQueue q.val { s.queue q.val with staged := some v }).fset F.ACT_DQ_STAT_FRESH q.val 1
  | .tag k =>
    let p := s.fget F.ACT_ADV_WL0_PART k.val
    if s.flag F.ACT_ADV_STAT_DEGRADED 0 then
      (s.fadd F.ACT_ADV_CNT_DISCARDED 0 1).count 0x144 (some (48 + k.val)) (some p) 1
    else
      let s := if s.flag F.ACT_ADV_TSTAT_FRESH k.val then
          (s.fadd F.ACT_ADV_TSTAT_OVERWRITE k.val 1).count 0x142 (some (48 + k.val)) (some p) 1 else s
      (s.setAdvTag k.val { s.advTag k.val with staged := some { v with data := fitTo (s.fget F.ACT_ADV_WL0_LEN k.val) bs } }).fset
        F.ACT_ADV_TSTAT_FRESH k.val 1

/-- Whether a staged value may be released now: one staged in this tick belongs to the next release (R96). -/
def freshNow (s : State) (b : OutBuf) : Bool :=
  match b.staged with
  | some v => decide (v.tick < s.ticks)
  | none => false

/-- The release's count and trace record (R311, R321). -/
def releaseMark (s : State) (o p : Nat) (fresh : Bool) : State :=
  let s := s.count 0x140 (some o) (some p) 1
  let s := if fresh then s else s.count 0x141 (some o) (some p) 1
  s.traceEv 0x21 0x40 (some p) [(16, o), (16, if fresh then 1 else 0)]

/-! PWM (R99, R100) -/

/-- A duty with its STALE mark: at the release, or pending for the next period start (R99 UPD_NOW). -/
def pwmSet (s : State) (o duty : Nat) (stale : Bool) : State :=
  if s.flag F.ACT_PWM_CFG_UPD_NOW o then
    ((s.fset F.ACT_PWM_STAT_DUTY o duty).fset F.ACT_PWM_STAT_STALE o (if stale then 1 else 0)).setPwm o {}
  else s.setPwm o { pending := some (duty, stale) }

/-- A miss of a PWM output under its POLICY (R96, R97). -/
def pwmMiss (o : Nat) (s : State) : State :=
  let s := s.fadd F.ACT_PWM_STAT_MISS o 1
  match s.fget F.ACT_PWM_CFG_POLICY o with
  | 1 => s.pwmSet o (s.fget F.ACT_PWM_SAFE_SAFE o) false
  | 2 =>
    let s := s.fset F.ACT_PWM_STAT_STALE o 1
    match (s.pwm o).pending with
    | some (d, _) => s.setPwm o { pending := some (d, true) }
    | none => s
  | _ => s

/-- A release of PWM group `g` (alarm action 0x3; R96, R97, R100). A second one in the same tick changes nothing more. -/
def releaseGroup (s : State) (g : Nat) : State :=
  let b := s.group g
  let p := s.fget F.ACT_GRP_CFG_PART g
  let outs := s.groupOuts g
  match b.applied with
  | some (t, _) => if t = s.ticks then s else releaseFirst s b p outs
  | none => releaseFirst s b p outs
where
  /-- The first release of the group in this tick. -/
  releaseFirst (s : State) (b : OutBuf) (p : Nat) (outs : List Nat) : State :=
    let fresh := s.freshNow b
    let bs := match b.staged with | some v => v.data | none => []
    let s := forEach outs (fun o s => s.releaseMark o p fresh) s
    if fresh then
      let s := (outs.zipIdx).foldl (fun (s : State) (o, i) => s.pwmSet o (leField bs (4 * i) 3) false) s
      (s.setGroup g { b with staged := none, applied := some (s.ticks, []) }).fset F.ACT_GRP_STAT_FRESH g 0
    else (forEach outs pwmMiss s).setGroup g { b with applied := some (s.ticks, []) }

/-- A write of ACT_PWM_CFG (R97, R99): fields other than EN only while EN is 0; PERIOD below 16 and POLICY 3 refuse EN. -/
def pwmCfgWrite (s : State) (o : Nat) (v : W32) : State :=
  let v64 := v.setWidth 64 &&& regMask .ACT_PWM_CFG .rw
  let old := s.rget .ACT_PWM_CFG o
  let on := v.getLsbD 31
  if s.flag F.ACT_PWM_CFG_EN o then
    if (v64 ^^^ old) &&& 0x7FFFFFFF#64 ≠ 0 then s.accessFault .pf 3 (0x500000 + o * 0x10) (v.setWidth 64)
    else if on then s else (s.rset .ACT_PWM_CFG o v64).setPwm o {}
  else if on && (decide (s.fget F.ACT_PWM_PERIOD_PERIOD o < 16) || getBits v64 22 2 == 3) then
    s.rset .ACT_PWM_CFG o (v64 &&& 0x7FFFFFFF#64)
  else
    let s := s.rset .ACT_PWM_CFG o v64
    if on then
      ((s.fset F.ACT_PWM_STAT_DUTY o (s.fget F.ACT_PWM_SAFE_SAFE o)).fset F.ACT_PWM_STAT_STALE o 0).setPwm o {}
    else s

/-- A write of a configuration register with EN in bit 31, for an output that stages: fields other than EN only while EN
is 0; `ok` decides the enabling, `err` is CFG_ERR (R95, R99, R103). -/
def stageCfgWrite (s : State) (r : Reg) (k off : Nat) (v : W32) (ok : State → Bool) (err : Fld) : State :=
  let v64 := v.setWidth 64 &&& regMask r .rw
  let old := s.rget r k
  if old.getLsbD 31 then
    if (v64 ^^^ old) &&& 0x7FFFFFFF#64 ≠ 0 then s.accessFault .pf 3 off (v.setWidth 64) else s.rset r k v64
  else
    let s0 := s.rset r k (v64 &&& 0x7FFFFFFF#64)
    if !(v.getLsbD 31) then s0 else if ok s0 then s.rset r k v64 else s0.fset err k 1

/-- A write of ACT_GRP_CFG (R95, R99). -/
def grpCfgWrite (s : State) (g : Nat) (v : W32) : State :=
  let off := 0x500400 + g * 0x10
  if s.tdiLocked (s.fget F.ACT_GRP_CFG_PART g) then s.accessFault .pf 2 off (v.setWidth 64)
  else s.stageCfgWrite .ACT_GRP_CFG g off v (fun s => s.runOk (s.fget F.ACT_GRP_CFG_PART g) (s.fget F.ACT_GRP_CFG_TILE g)
    (s.fget F.ACT_GRP_CFG_REGION g) (s.fget F.ACT_GRP_CFG_SLOT g) 1) F.ACT_GRP_STAT_CFG_ERR

/-- A write of ACT_DQ_CFG (R95, R97, R103). -/
def dqCfgWrite (s : State) (q : Nat) (v : W32) : State :=
  let off := 0x500800 + q * 0x20
  if s.tdiLocked (s.fget F.ACT_DQ_CFG_PART q) then s.accessFault .pf 2 off (v.setWidth 64)
  else s.stageCfgWrite .ACT_DQ_CFG q off v (fun s =>
    let n := s.fget F.ACT_DQ_SRC_NSLOTS q
    s.fget F.ACT_DQ_CFG_POLICY q != 3 && decide (s.fget F.ACT_DQ_CFG_STALE_OFS q ≤ 1521) && decide (1 ≤ n) && decide (n ≤ 6) &&
      s.runOk (s.fget F.ACT_DQ_CFG_PART q) (s.fget F.ACT_DQ_SRC_TILE q) (s.fget F.ACT_DQ_SRC_REGION q)
        (s.fget F.ACT_DQ_SRC_SLOT q) n) F.ACT_DQ_STAT_CFG_ERR

/-- A write of ACT_ADV_SRC: every enabling is checked, and the tag must be EN in the whitelist (R95, R97, R108). -/
def advSrcWrite (s : State) (k : Nat) (v : W32) : State :=
  let off := 0x502014 + k * 0x20
  let p := s.fget F.ACT_ADV_WL0_PART k
  if s.tdiLocked p then s.accessFault .pf 2 off (v.setWidth 64)
  else
    let v64 := v.setWidth 64 &&& regMask .ACT_ADV_SRC .rw
    let s0 := s.rset .ACT_ADV_SRC k (v64 &&& 0x7FFFFFFF#64)
    if !(v.getLsbD 31) then s0
    else if s.flag F.ACT_ADV_WL0_EN k && s.fget F.ACT_ADV_WL0_POLICY k != 3 &&
        s0.runOk p (s0.fget F.ACT_ADV_SRC_TILE k) (s0.fget F.ACT_ADV_SRC_REGION k) (s0.fget F.ACT_ADV_SRC_SLOT k) 1 then
      s.rset .ACT_ADV_SRC k v64
    else s0.fset F.ACT_ADV_TSTAT_CFG_ERR k 1

/-! Trigger pulses (R102) -/

/-- A release of trigger output `t`: a pulse, or the same pulse for a further WIDTH (alarm action 0x4). -/
def triggerPulse (s : State) (t : Nat) : State :=
  if s.flag F.ACT_TRIG_CFG_EN t && !(natBit s.pulses t) then { s with pulses := s.pulses + 2 ^ t } else s

/-- The pulse of trigger output `t` ends. -/
def triggerEnd (s : State) (t : Nat) : State := if natBit s.pulses t then { s with pulses := s.pulses - 2 ^ t } else s

/-! Drive frames (R103, R104) -/

/-- The frame of a staging-run image of at most `room` bytes, if its LEN is allowed (R104). -/
def driveFrame (bs : List Byte) (room : Nat) : Option (List Byte) :=
  let n := leField bs 0 4
  let f := (bs.drop 4).take n
  let tagged := (f.drop 12).take 2 == [0x81#8, 0x00#8]
  if 60 ≤ n ∧ n ≤ (if tagged then 1522 else 1518) ∧ n + 4 ≤ room ∧ f.length = n then some f else none

/-- A frame queued on its traffic class, or discarded while the port has no block lock (R104, R114). -/
def driveQueue (s : State) (q : Nat) (f : List Byte) : State :=
  let port := s.fget F.ACT_DQ_CFG_PORT q
  if s.flag F.ING_PORT_STAT_LINK (8 + port) then
    s.setTxFrames port (s.txFrames port ++ [{ queue := q, tc := s.fget F.ACT_DQ_CFG_TC q, data := f }])
  else s.fadd F.ACT_DQ_STAT_DISCARD q 1

/-- The last frame with STALE_MASK ORed into byte STALE_OFS (R97). -/
def staleFrame (s : State) (q : Nat) (f : List Byte) : List Byte :=
  let o := s.fget F.ACT_DQ_CFG_STALE_OFS q
  listSet f o ((f.getD o 0) ||| BitVec.ofNat 8 (s.fget F.ACT_DQ_CFG_STALE_MASK q))

/-- The first release of a queue in a tick: the frame it sends, if any (R96, R97, R104). -/
def queueFirst (s : State) (q : Nat) : Option (List Byte) × State :=
  let b := s.queue q
  let fresh := s.freshNow b
  let s := s.releaseMark (32 + q) (s.fget F.ACT_DQ_CFG_PART q) fresh
  if fresh then
    let bs := match b.staged with | some v => v.data | none => []
    let s := (s.setQueue q { b with staged := none }).fset F.ACT_DQ_STAT_FRESH q 0
    match driveFrame bs (256 * s.fget F.ACT_DQ_SRC_NSLOTS q) with
    | some f => (some f, s)
    | none => (none, s.fadd F.ACT_DQ_STAT_DISCARD q 1)
  else
    let last := b.last.map (·.data)
    (match s.fget F.ACT_DQ_CFG_POLICY q with
      | 0 => last
      | 1 => b.safe
      | _ => last.map (s.staleFrame q), s.fadd F.ACT_DQ_STAT_MISS q 1)

/-- A release of drive queue `q` (alarm action 0x7; R96, R97, R104). A second one in a tick sends the same frame. -/
def releaseQueue (s : State) (q : Nat) : State :=
  if !(s.flag F.ACT_DQ_CFG_EN q) then s
  else
    let again := match (s.queue q).applied with
      | some (t, f) => if t = s.ticks then some f else none
      | none => none
    match again with
    | some f => if f = [] then s else s.driveQueue q f
    | none =>
      match s.queueFirst q with
      | (f, s) =>
        let s := s.setQueue q { s.queue q with applied := some (s.ticks, f.getD []) }
        match f with
        | some f => s.driveQueue q f
        | none => s

/-- The frame that may start on a port: the first of the highest class whose gate is open (R104). -/
def txNext (s : State) (port : Nat) : Option TxFrame :=
  let open_ := (s.gate (17 * port + 16)).states
  ([7, 6, 5, 4, 3, 2, 1, 0].filter (natBit open_)).findSome? (fun c => (s.txFrames port).find? (fun f => f.tc == c))

/-- A frame leaves with its FCS (R103, R104). -/
def txSend (s : State) (port : Nat) (f : TxFrame) : State :=
  let s := s.setTxFrames port ((s.txFrames port).erase f)
  if s.flag F.ING_PORT_STAT_LINK (8 + port) then
    let s := s.emit (.eth port (f.data ++ leBytes 4 (fcs f.data).toNat))
    let s := (s.fadd F.ACT_DQ_STAT_SENT f.queue 1).fset F.ACT_DQ_TXTS_TS f.queue s.now.toNat
    s.setQueue f.queue { s.queue f.queue with last := some { data := f.data, ts := s.now, wrap := s.wrap, tick := s.ticks } }
  else s.fadd F.ACT_DQ_STAT_DISCARD f.queue 1

/-! Gate control lists (R140) -/

/-- A gate list from its header and entries (R140). -/
def gateList (n : Nat) (d : List Byte) : GateList :=
  { base := BitVec.ofNat 32 (leField d 0 4), cycle := leField d 4 4, init := leField d 8 1
    entries := (List.range n).map (fun i => (leField d (32 + 8 * i) 1, leField d (36 + 8 * i) 4)) }

/-- The states of entry `i` of a list. -/
def gateStates (l : GateList) (i : Nat) : Nat := (l.entries.getD i (0, 0)).1

/-- The next change of a gate: a waiting list whose BASE is reached, or the next entry of the list in force (R140). -/
def gateNext (s : State) (k : Nat) : State :=
  let g := s.gate k
  match g.waiting with
  | some l =>
    if sdiff l.base s.now ≤ 0 then s.setGate k { running := some l, pos := 0, states := gateStates l 0, waiting := none }
    else gateStep s k g
  | none => gateStep s k g
where
  /-- The next entry of the list in force. -/
  gateStep (s : State) (k : Nat) (g : Gate) : State :=
    match g.running with
    | some l =>
      let i := (g.pos + 1) % l.entries.length
      s.setGate k { g with pos := i, states := gateStates l i }
    | none => s

/-- A QCI_LOAD's effect (R140). -/
def qciEffect (port table first n : Nat) (d : List Byte) (s : State) : State :=
  match table with
  | 0 => (List.range n).foldl (fun (s : State) i =>
      { s with filters := tabSet 0#128 s.filters (32 * port + first + i) (BitVec.ofNat 128 (leField d (16 * i) 16)) }) s
  | 2 => (List.range n).foldl (fun (s : State) i =>
      { s with meters := tabSet 0#128 s.meters (32 * port + first + i) (BitVec.ofNat 128 (leField d (16 * i) 16))
               tokens := tabSet 0 s.tokens (32 * port + first + i) 0 }) s
  | _ =>
    let k := 17 * port + (if table = 3 then 16 else first)
    let l := gateList n d
    let g := s.gate k
    s.setGate k { g with waiting := some l, states := if g.running.isNone then l.init else g.states }

/-- QCI_LOAD's checks that need the state (R140). -/
def qciCheck (s : State) (c : Cmd) : Nat :=
  match c.par with
  | .qciLoad port table first _ d =>
    if table = 1 ∨ table = 3 then
      if sdiff (BitVec.ofNat 32 (leField d 0 4)) s.now ≤ 0 then 0x0108
      else if (s.gate (17 * port + (if table = 3 then 16 else first))).waiting.isSome then 0x0602 else 0
    else 0
  | _ => 0

/-! The advisory port (R105-R110) -/

/-- Whether tag `k` is due (R108). -/
def advDue (s : State) (k : Nat) : Bool :=
  s.flag F.ACT_ADV_WL0_EN k && (s.flag F.ACT_ADV_TSTAT_FRESH k || (s.advTag k).due ||
    decide (s.fget F.ACT_ADV_WL0_REFRESH k ≤ (s.advTag k).ms))

/-- The STATUS, payload, TS and WRAP a due tag sends (R97, R107-R109). -/
def advContent (s : State) (k : Nat) : Nat × Staged :=
  let b := s.advTag k
  let hold : Nat × Staged := (4, { ts := s.now, wrap := s.wrap })
  if s.flag F.ACT_ADV_STAT_DEGRADED 0 then hold
  else match b.staged, s.fget F.ACT_ADV_WL0_POLICY k, b.last with
    | some v, _, _ => (1, v)
    | none, 1, _ => (3, { data := fitTo (s.fget F.ACT_ADV_WL0_LEN k) (b.safe.getD []), ts := s.now, wrap := s.wrap })
    | none, 0, some v => (1, v)
    | none, 2, some v => (2, v)
    | none, _, _ => hold

/-- An advisory frame without FCS (R107): addresses, tag and EtherType in network order, the header little-endian. -/
def advFrame (s : State) (k status seq : Nat) (v : Staged) : List Byte :=
  let w2 := s.rget .ACT_ADV_WL2 k
  let head := leBytes 1 k ++ leBytes 1 status ++ leBytes 2 seq ++ leBytes 4 v.ts.toNat ++ [v.wrap] ++
    leBytes 1 ((if s.flag F.TB_STATUS_TB_LOCKED 0 then 0 else 1) + (if s.flag F.ACT_ADV_STAT_DEGRADED 0 then 2 else 0)) ++
    leBytes 2 v.data.length
  let check := leBytes 4 (crc32c (head ++ v.data)).toNat
  let vlan := if getBits w2 31 1 = 1 then beBytes 2 0x8100 ++ beBytes 2 (getBits w2 28 3 * 8192 + getBits w2 16 12) else []
  let f := beBytes 6 (s.fget F.ACT_ADV_WL1_DMAC k) ++ beBytes 6 s.smac.toNat ++ vlan ++
    beBytes 2 (s.fget F.ACT_ADV_WL1_ETHERTYPE k) ++ head ++ check ++ v.data
  f ++ List.replicate (60 - f.length) 0#8

/-- The frame of due tag `k` sent, its payload then the last one sent; while LINK is 0 the frame is dropped and nothing of it is
held back (R107, R108, R110). -/
def advSend (s : State) (k : Nat) : State :=
  let p := s.fget F.ACT_ADV_WL0_PART k
  let (status, v) := s.advContent k
  let b := { s.advTag k with staged := none, ms := 0, due := false }
  let seq := s.fget F.ACT_ADV_TSTAT_SEQ k + 1
  let s1 := { s.fset F.ACT_ADV_TSTAT_FRESH k 0 with lastTag := k }
  if s.flag F.ACT_ADV_STAT_LINK 0 then
    let f := s.advFrame k status (seq % 2 ^ 16) v
    let s2 := (s1.setAdvTag k { b with last := if status = 1 then some v else b.last }).emit (.advisory (f ++ leBytes 4 (fcs f).toNat))
    let s2 := (s2.fset F.ACT_ADV_TSTAT_SEQ k seq).fadd F.ACT_ADV_CNT_SENT 0 1
    (s2.count 0x143 (some (48 + k)) (some p) 1).traceEv 0x21 0x41 (some p) [(16, k), (16, status)]
  else ((s1.setAdvTag k b).fadd F.ACT_ADV_CNT_DISCARDED 0 1).count 0x144 (some (48 + k)) (some p) 1

/-- One pacer tick: every tag's refresh time advances, and the next due tag after the last one sent is sent (R108). -/
def advPace (s : State) : State :=
  let s := forEach ((List.range 64).filter (s.flag F.ACT_ADV_WL0_EN)) (fun k s =>
    s.setAdvTag k { s.advTag k with ms := (s.advTag k).ms + 1 }) s
  match ((List.range 64).map (fun i => (s.lastTag + 1 + i) % 64)).find? s.advDue with
  | some k => s.advSend k
  | none => s

end State

open State

/-- ON (R91, R92, R141): an EXC_CMD with CMD 1, or with CMD 0, which only loads CFG and LIM; or a write of EXC_CH_CTRL. -/
def execExcOn (src : ExcSrc) (s : State) : Host.Outcome State Fault Refusal := .next (s.excCommand src 1 excTurnOn)

/-- OFF (R92, R141). -/
def execExcOff (src : ExcSrc) (s : State) : Host.Outcome State Fault Refusal := .next (s.excCommand src 2 excTurnOff)

/-- CLEAR_RETIRED (R92, R141). -/
def execExcClearRetired (src : ExcSrc) (s : State) : Host.Outcome State Fault Refusal := .next (s.excCommand src 3 excClear)

/-- RAMP_END: the ramp reaches 10 ms (R91). -/
def execRampEnd (c : Fin 4) (s : State) : Host.Outcome State Fault Refusal :=
  .next (
    let k := c.val
    if s.fget F.EXC_CH_STAT_STATE k ≠ 1 then s
    else if 9 * s.fget F.EXC_CH_CFG_SETPOINT k ≤ 10 * s.fget F.EXC_CH_MEAS_VOUT k then
      ((s.fset F.EXC_CH_STAT_STATE k 2).fset F.EXC_CH_STAT_ATTEMPT k 1).fset F.EXC_CH_STAT_FOLDBACK k 0
    else (s.fset F.EXC_CH_STAT_RAMP_FAIL k 1).excFail k 1 (decide (3 ≤ s.fget F.EXC_CH_STAT_ATTEMPT k)))

/-- OVERLOAD: 1 ms without a break in ON; it counts as attempt 1 (R91). -/
def execOverload (c : Fin 4) (s : State) : Host.Outcome State Fault Refusal :=
  .next (
    let k := c.val
    if s.fget F.EXC_CH_STAT_STATE k = 2 then
      ((s.fset F.EXC_CH_STAT_OVERLOAD k 1).fset F.EXC_CH_STAT_ATTEMPT k 1).excFail k 2 false
    else s)

/-- WAIT_END: the next ramp, with ATTEMPT + 1 (R91). -/
def execWaitEnd (c : Fin 4) (s : State) : Host.Outcome State Fault Refusal :=
  .next (
    let k := c.val
    if s.fget F.EXC_CH_STAT_STATE k = 3 then s.excRamp k (s.fget F.EXC_CH_STAT_ATTEMPT k + 1) else s)

/-- EXC_SENSE_SAMPLE: VOUT and IOUT from the codes, one code 2.5 V / 4,096 through 1:16 and ISCALE µA (R89-R91). -/
def execExcSenseSample (c : Fin 4) (vcode icode : BitVec 12) (s : State) : Host.Outcome State Fault Refusal :=
  .next (
    let k := c.val
    let s := s.fset F.EXC_CH_MEAS_VOUT k (vcode.toNat * 625 / 64)
    let s := s.fset F.EXC_CH_MEAS_IOUT k (icode.toNat * s.fget F.EXC_CH_LIM_ISCALE k / 1000)
    let s := if s.fget F.EXC_CH_STAT_STATE k = 1 then { s with rampUs := tabSet 0 s.rampUs k (tabGet 0 s.rampUs k + 1) } else s
    s.excLimits k)

/-- STAGING_COPY: every slot of the run is full, and the hub copies and empties it (R95, R113). -/
def execStagingCopy (o : StageOut) (s : State) : Host.Outcome State Fault Refusal :=
  .next (
    match s.stageRun o with
    | none => s
    | some (p, t, g, slot, n) =>
      if s.runOk p t g slot n && (List.range n).all (fun i => s.isFull t (slot + i)) then
        (s.setFulls t slot n false).staged o (s.deckRead t slot 0 (256 * n))
      else s)

/-- PWM_ENABLE: a write of ACT_PWM_CFG (R99). -/
def execPwmEnable (o : Fin 32) (v : W32) (s : State) : Host.Outcome State Fault Refusal := .next (s.bar (s.pwmCfgWrite o.val v))

/-- GROUP_ENABLE: a write of ACT_GRP_CFG (R95, R99). -/
def execGroupEnable (g : Fin 8) (v : W32) (s : State) : Host.Outcome State Fault Refusal := .next (s.bar (s.grpCfgWrite g.val v))

/-- DQ_ENABLE: a write of ACT_DQ_CFG (R95, R103). -/
def execDqEnable (q : Fin 16) (v : W32) (s : State) : Host.Outcome State Fault Refusal := .next (s.bar (s.dqCfgWrite q.val v))

/-- ADV_SRC_ENABLE: a write of ACT_ADV_SRC (R95, R108). -/
def execAdvSrcEnable (k : Fin 64) (v : W32) (s : State) : Host.Outcome State Fault Refusal := .next (s.bar (s.advSrcWrite k.val v))

/-- PWM_PERIOD_START: a pending duty takes force (R99). -/
def execPwmPeriodStart (o : Fin 32) (s : State) : Host.Outcome State Fault Refusal :=
  .next (
    match (s.pwm o.val).pending with
    | some (d, st) =>
      if s.flag F.ACT_PWM_CFG_EN o.val then
        ((s.fset F.ACT_PWM_STAT_DUTY o.val d).fset F.ACT_PWM_STAT_STALE o.val (if st then 1 else 0)).setPwm o.val {}
      else s
    | none => s)

/-- TRIGGER_PULSE_END: WIDTH ticks after its last release (R102). -/
def execTriggerPulseEnd (t : Fin 4) (s : State) : Host.Outcome State Fault Refusal := .next (s.triggerEnd t.val)

/-- DRIVE_FRAME_TRANSMIT: the next frame of a free port (R104). -/
def execDriveFrameTransmit (port : Fin 4) (s : State) : Host.Outcome State Fault Refusal :=
  .next (
    match s.txNext port.val with
    | some f => s.txSend port.val f
    | none => s)

/-- GATE_LIST_ENTRY: an entry's INTERVAL ends, or a new list reaches BASE (R140). -/
def execGateListEntry (g : GateRef) (s : State) : Host.Outcome State Fault Refusal :=
  .next (match g with
    | .stream p k => s.gateNext (17 * p.val + k.val)
    | .egress p => s.gateNext (17 * p.val + 16))

/-- QCI_LOAD (R140). -/
def execQciLoad (r : Fin 128) (tag : Fin 512) (s : State) : Host.Outcome State Fault Refusal :=
  .next (s.begin r.val tag.val (fun | .qciLoad .. => true | _ => false) qciCheck
    (fun c s => match c.par with
      | .qciLoad port table first n d => (qciEffect port table first n d s).finish c.ring c.tag 0 0
      | _ => s)
    (fun _ s => s))

/-- The safe frame read whole, checked, and put in place (R142). -/
def State.dqSafe (q : Nat) (src : BufDesc) (c : Cmd) (s : State) : State :=
  if s.bufReady src 0 false < src.count then s
  else
    match s.bufRead c.part (ringTag c.ring c.tag) 2 src 0 src.count with
    | (st, bs, s1) =>
      if st = waiting then s
      else if st ≠ 0 then s1.finish c.ring c.tag st 0
      else match driveFrame bs src.count with
        | some f =>
          if f.length + 4 = src.count then
            ((s1.setQueue q { s1.queue q with safe := some f }).fset F.ACT_DQ_STAT_SAFE_LOADED q 1).finish c.ring c.tag 0 0
          else s1.finish c.ring c.tag 0x0108 0
        | none => s1.finish c.ring c.tag 0x0108 0

/-- The check of DQ_SAFE_LOAD: the queue's partition, and the buffer unless CLEAR (R129, R142). -/
def State.dqSafeCheck (s : State) (c : Cmd) : Nat :=
  match c.par with
  | .dqSafeLoad q clear src =>
    if s.fget F.ACT_DQ_CFG_PART q ≠ c.part then 0x0400 else if clear then 0 else s.bufsOk c [(src, some false)]
  | _ => 0

/-- DQ_SAFE_LOAD: loads, replaces or, with CLEAR, removes the safe frame (R142). -/
def execDqSafeLoad (r : Fin 128) (tag : Fin 512) (s : State) : Host.Outcome State Fault Refusal :=
  .next (s.gated (r.val / 16) (.dqSafeLoad r tag) (s.begin r.val tag.val (fun | .dqSafeLoad .. => true | _ => false) State.dqSafeCheck
    (fun c s => match c.par with
      | .dqSafeLoad q clear src =>
        if clear then
          ((s.setQueue q { s.queue q with safe := none }).fset F.ACT_DQ_STAT_SAFE_LOADED q 0).finish c.ring c.tag 0 0
        else State.dqSafe q src c s
      | _ => s)
    (fun c s => match c.par with
      | .dqSafeLoad q _ src => State.dqSafe q src c s
      | _ => s)))

/-- PACER_TICK: 1 ms of the 250 MHz clock (R108); without a sealed image only idle code (R106). -/
def execPacerTick (s : State) : Host.Outcome State Fault Refusal :=
  .next (if s.power.hubs && s.flag F.ACT_ADV_STAT_SEALED 0 then s.advPace else s)

/-- ADVISORY_LINK: the SGMII synchronisation drives LINK and nothing else (R105, R110). -/
def execAdvisoryLink (up : Bool) (s : State) : Host.Outcome State Fault Refusal :=
  .next (s.fset F.ACT_ADV_STAT_LINK 0 (if up then 1 else 0))

end Sys2Proof.Machine
end

