-- ==== Sys2Proof/Machine/Keystone.lean ====
section
/-! DEFINITION. Keystone: firmware banks (R328-R331), device debug (R347), the hash engine (R348, R349), and host reads that
are answered with an error (R156, R329, R354). -/

namespace Sys2Proof.Machine
namespace State

/-! Banks (R326, R328-R331) -/

/-- What a bank of the boot flash holds: 0 = A, 1 = B. -/
def bank (s : State) (b : Nat) : Bank := if b = 0 then s.bankA else s.bankB

/-- A bank replaced. -/
def setBank (s : State) (b : Nat) (x : Bank) : State := if b = 0 then { s with bankA := x } else { s with bankB := x }

/-- The bank that runs. -/
def runBank (s : State) : Nat := s.fget F.KS_STAT_RUN_BANK 0

/-- The bank that does not run, which STAGE writes (R329). -/
def otherBank (s : State) : Nat := 1 - s.runBank

/-- The end of a KS_FW_CTRL command: its outcome in ERR, BUSY 0. -/
def fwEnd (s : State) (err : Nat) : State := (s.fset F.KS_FW_STAT_BUSY 0 0).fset F.KS_FW_STAT_ERR 0 err

/-- A write of KS_FW_CTRL with command `cmd`: PART and LEN are stored; the command is ignored while another is in progress,
and recorded in LAST_CMD when it is taken (R328; log entry 53). -/
def fwCtrl (s : State) (cmd : Nat) (v : W32) (act : State → State) : State :=
  let w : W64 := v.setWidth 64
  if s.fget F.KS_STAT_STATE 0 = 0 then s
  else
  let s := (s.fset F.KS_FW_CTRL_PART 0 (getBits w 24 3)).fset F.KS_FW_CTRL_LEN 0 (getBits w 0 13)
  if s.flag F.KS_FW_STAT_BUSY 0 then s else act (s.fset F.KS_FW_STAT_LAST_CMD 0 cmd)

/-- STAGE: LEN × 4 KiB read by host DMA into the bank that does not run, which holds no verified image from then on; LEN out
of range ends with ERR 9 (R329). -/
def fwRead (s : State) : State :=
  let len := s.fget F.KS_FW_CTRL_LEN 0
  if len = 0 ∨ 4096 < len then s.fwEnd 9
  else
    let bs := memRead s.host (s.fget F.KS_FW_SRC_ADDR 0 * 4096) (len * 4096)
    let s := s.setBank s.otherBank { signed := false, firmware := bs }
    ((s.fset F.KS_STAT_PENDING 0 0).fset F.KS_FW_STAT_BUSY 0 1).charge (s.fget F.KS_FW_CTRL_PART 0) 3 (len * 4096)

/-- A STAGE, which waits at HOST_IN of the partition it names (R21, R328, R329). -/
def fwStage (s : State) (v : W32) : State :=
  if s.fget F.KS_STAT_STATE 0 = 0 then s
  else s.gated (getBits (v.setWidth 64) 24 3) (.fwStage v) (s.fwCtrl 1 v fwRead)

/-- The verification of the staged bank: ERR 1 or 2, or PENDING with FW_STAGED (R326, R329, R350). -/
def fwVerify (s : State) : State :=
  let b := s.otherBank
  let x := Config.parseBank (s.bank b).firmware
  let s := s.setBank b { x with firmware := (s.bank b).firmware }
  if !x.signed then s.fwEnd 1
  else if x.svn < s.fget F.KS_STAT_FUSED_SVN 0 then s.fwEnd 2
  else
    let s := ((s.fset F.KS_STAT_PENDING 0 1).fset F.KS_STAT_PEND_SVN 0 x.svn).fwEnd 0
    s.event 0x0100 0xFF (s.fget F.KS_STAT_PEND_SVN 0) b 0

/-- Whether some partition's loaded policy accepts no SVN as low as the staged one (R331, R340). -/
def policyAbove (s : State) (svn : Nat) : Bool := (List.range 8).any (fun p => decide (svn < (s.policy p).minSvn))

/-- The refusal of an activation, or 0 (R331). -/
def activateErr (s : State) (live : Bool) : Nat :=
  if !(s.flag F.KS_STAT_PENDING 0) then 8
  else if s.policyAbove (s.fget F.KS_STAT_PEND_SVN 0) then 3
  else if live && (s.bank s.otherBank).catalogue != (s.bank s.runBank).catalogue then 4
  else if live && ((List.range 8).any s.resetBusy || s.commit.isSome || !s.scrubs.isEmpty) then 5
  else 0

/-- The events held back in the window, posted in their order (R266, R331). -/
def releaseHeld (s : State) : State := forEach s.evHeld (fun e s => s.eventPost e) { s with evHeld := [] }.eventsLost

/-- Step 4 of R331: the new bank runs, fetching resumes, held events are posted, locked interfaces whose policy does not set
LIVE_UPDATE_OK enter ERROR (R339), and FW_SWITCHED is posted. -/
def switchDone (s : State) : State :=
  let b := s.otherBank
  let s := ((s.fset F.KS_STAT_STATE 0 1).fset F.KS_STAT_RUN_BANK 0 b).fset F.KS_STAT_NEXT_BANK 0 b
  let s := { (s.fset F.KS_STAT_RUN_SVN 0 (s.fget F.KS_STAT_PEND_SVN 0)).fset F.KS_STAT_PENDING 0 0 with reverted := false }
  let s := (s.fwEnd 0).releaseHeld
  let s := forEach (List.range 8) (fun p s => if s.flag F.KS_PART_ATT_LIVE_UPDATE_OK p then s else s.tdiError p 4) s
  s.event 0x0101 0xFF b (s.fget F.KS_STAT_RUN_SVN 0) ((s.ticks - s.swStart) / 250)

/-- ACTIVATE_LIVE: the window opens, or the command is refused (R331). -/
def fwLive (s : State) : State :=
  let e := s.activateErr true
  if e ≠ 0 then s.fwEnd e
  else { (s.fset F.KS_STAT_STATE 0 2).fset F.KS_FW_STAT_BUSY 0 1 with swStart := s.ticks }

/-- ACTIVATE_AT_RESET: the staged bank is the next to boot, or the command is refused (R331). -/
def fwAtReset (s : State) : State :=
  let e := s.activateErr false
  if e ≠ 0 then s.fwEnd e else (s.fset F.KS_STAT_NEXT_BANK 0 s.otherBank).fwEnd 0

/-- COMMIT_SVN: fuses are blown up to RUN_SVN, and none is ever unblown (R330). -/
def fwCommit (s : State) : State :=
  if s.reverted then s.fwEnd 7
  else
    let n := max (s.fget F.KS_STAT_FUSED_SVN 0) (s.fget F.KS_STAT_RUN_SVN 0)
    let s := { s.fset F.KS_STAT_FUSED_SVN 0 n with fuses := { s.fuses with svn := n } }
    (s.fwEnd 0).event 0x0103 0xFF n 0 0

/-- DISCARD (R329). -/
def fwDrop (s : State) : State := (s.fset F.KS_STAT_PENDING 0 0).fwEnd 0

/-- A write of KS_DBG_CTRL: OPEN reads the token, a transfer of P0 (log entry 102), and opens device debug on a valid one while
no partition is confidential without consent (R347). -/
def debugWrite (s : State) (v : W32) : State :=
  if s.fget F.KS_STAT_STATE 0 = 0 ∨ !(v.getLsbD 31) then s
  else
    let ok := Config.tokenOk (memRead s.host (s.fget F.KS_DBG_SRC_ADDR 0) 256) && !((List.range 8).any s.confid)
    let t := s.charge 0 3 256
    s.gated 0 (.ksDbgOpen v)
      (if ok && !(s.flag F.KS_STAT_DEBUG_OPEN 0) then (t.fset F.KS_STAT_DEBUG_OPEN 0 1).event 0x0120 0xFF 0 0 0 else t)

/-! The hash engine (R348, R349) -/

/-- The KS_HASH operation of a command. -/
def isHash (op : Nat) : TCmd → Bool
  | .ksHash o _ _ _ => o == op
  | _ => false

/-- An UPDATE of hash context `k`. -/
def updates (k : Nat) : TCmd → Bool
  | .ksHash 1 _ j _ => j == k
  | _ => false

/-- The checks of a KS_HASH: the owner, the buffer, an UPDATE in flight; an UPDATE has no path to another device's HBM (R20,
R348; log entry 54). -/
def hashCheck (s : State) (c : Cmd) : Nat :=
  match c.par with
  | .ksHash 0 .. => 0
  | .ksHash op _ k d =>
    let b := if op = 1 then (if d.kind = 1 ∧ d.addr / 2 ^ 36 ≠ s.node then 0x0201 else s.bufsOk c [(d, some false)])
      else if op = 2 then s.bufsOk c [(d, some true)] else 0
    match s.hashCtx k with
    | none => if b ≠ 0 then b else 0x0602
    | some x =>
      if x.part ≠ c.part then 0x0400
      else if b ≠ 0 then b
      else if op ≠ 3 ∧ (x.busy ≠ none ∨ (s.cmds.takeWhile (fun y => y != c)).any (fun y => y.done == none && updates k y.par)) then 0x0602
      else 0
  | _ => 0

/-- OPEN: a free context taken for the partition, or 0x0301 at once (R348). -/
def hashTake (c : Cmd) (s : State) : State :=
  match c.par with
  | .ksHash _ alg _ _ =>
    match (List.range 8).find? (fun k => (s.hashCtx k).isNone) with
    | none => (s.finish c.ring c.tag 0x0301 0).count 0x172 none (some c.part) 1
    | some k => (s.setHashCtx k (some { part := c.part, alg := alg })).finish c.ring c.tag 0 k
  | _ => s

/-- The engine turns to context `k` of partition `p`; a turn from another context is a switch (R321, R349). -/
def hashTurn (s : State) (k p : Nat) : State :=
  let t := { s with hashLast := some k }
  if s.hashLast = none ∨ s.hashLast = some k then t else t.count 0x171 (some k) (some p) 1

/-- As much of an UPDATE as its buffer's tags allow now; the 4 KiB blocks completed are counted (R130, R348, R349). -/
def hashMore (c : Cmd) (s : State) : State :=
  match c.par with
  | .ksHash _ _ k d =>
    match s.hashCtx k with
    | none => s.finish c.ring c.tag 0x0602 0
    | some x =>
      if x.busy ≠ some (c.ring, c.tag) then s.finish c.ring c.tag 0x0602 0
      else
        let n := s.bufReady d c.moved false
        if n = 0 then s
        else match s.bufRead c.part (ringTag c.ring c.tag) 2 d c.moved n with
          | (st, bs, s1) =>
            if st = waiting then s
            else if st ≠ 0 then (s1.setHashCtx k (some { x with busy := none })).finish c.ring c.tag st 0
            else
              let msg := x.msg ++ bs
              let s1 := (s1.hashTurn k c.part).count 0x170 (some k) (some c.part) (msg.length / 4096 - x.msg.length / 4096)
              if c.moved + n = d.count then
                (s1.setHashCtx k (some { x with msg := msg, busy := none })).finish c.ring c.tag 0 k
              else (s1.setHashCtx k (some { x with msg := msg })).modCmd c.ring c.tag (fun c => { c with moved := c.moved + n })
  | _ => s

/-- UPDATE begun: the context has it in flight (R348). -/
def hashBegin (c : Cmd) (s : State) : State :=
  match c.par with
  | .ksHash _ _ k _ =>
    match s.hashCtx k with
    | some x => hashMore c (s.setHashCtx k (some { x with busy := some (c.ring, c.tag) }))
    | none => s
  | _ => s

/-- The 48 bytes of a digest (R348; log entry 17). -/
def digest48 (alg : Nat) (msg : List Byte) : List Byte := (Config.hash alg msg ++ List.replicate 48 0#8).take 48

/-- FINAL: the digest written once its buffer can take it, and the context freed (R348). -/
def hashEnd (c : Cmd) (s : State) : State :=
  match c.par with
  | .ksHash _ _ k d =>
    match s.hashCtx k with
    | none => s.finish c.ring c.tag 0x0602 0
    | some x =>
      if s.bufReady d 0 true = 0 then s
      else match s.bufWrite c.part (ringTag c.ring c.tag) d 0 (digest48 x.alg x.msg) with
        | (st, s1) =>
          if st = waiting then s
          else if st ≠ 0 then s1.finish c.ring c.tag st 0
          else
            let s1 := (s1.hashTurn k c.part).count 0x170 (some k) (some c.part) (if x.msg.length % 4096 = 0 then 0 else 1)
            (s1.setHashCtx k none).finish c.ring c.tag 0 k
  | _ => s

/-- CLOSE: the context freed without a digest; an UPDATE in flight on it ends with 0x0602 (R348; log entry 54). -/
def hashDrop (c : Cmd) (s : State) : State :=
  match c.par with
  | .ksHash _ _ k _ =>
    let s := match (s.hashCtx k).bind (·.busy) with
      | some (r, t) => s.finish r t 0x0602 0
      | none => s
    (s.setHashCtx k none).finish c.ring c.tag 0 k
  | _ => s

/-! Host reads answered with an error (R156, R262) -/

/-- CAUSE of a HOST record (R262). -/
def hostCause : HostErr → Nat
  | .unsupported => 1
  | .abort => 2
  | .poisoned => 3

/-- A HOST record: the function, the answer and the host bus address (R262). -/
def hostFault (s : State) (part fn : Nat) (err : HostErr) (a rt : Nat) : State :=
  s.fault { cls := 9, part := part, unit := fn, cause := hostCause err, info0 := BitVec.ofNat 64 a, ringTag := rt }

/-- The buffer of host memory that a command reads, if it reads one (R156). -/
def hostSrc : TCmd → Option BufDesc
  | .dmaCopy a _ => some a
  | .progLoad a _ => some a
  | .dqSafeLoad _ clear a => if clear then none else some a
  | .tenantSwitch _ p => p
  | .csCtxOpen _ _ a => some a
  | .ksHash op _ _ a => if op = 1 then some a else none
  | _ => none

/-- A command whose host read is answered with an error ends with 0x0504, once its read is due; its outputs are undefined
(R149, R156, R354). -/
def hostReadFail (err : HostErr) (c : Cmd) (s : State) : State :=
  match hostSrc c.par with
  | none => s
  | some d =>
    if d.kind ≠ 0 ∨ !(c.started || s.fenceMet c) then s
    else
      let s := s.hostFault c.part (s.ringFn c.ring) err ((s.mr c.part d.mr).base + d.addr + c.moved) (ringTag c.ring c.tag)
      let s := match c.par with
        | .ksHash _ _ k _ =>
          match s.hashCtx k with
          | some x => if x.busy = some (c.ring, c.tag) then s.setHashCtx k (some { x with busy := none }) else s
          | none => s
        | .dmaCopy _ b => s.undefBuf c.part b
        | _ => s
      s.finish c.ring c.tag 0x0504 0

end State

open State

/-- STAGE: an image read into the bank that does not run (R329). -/
def execFwStage (v : W32) (s : State) : Host.Outcome State Fault Refusal := .next (s.fwStage v)

/-- STAGE_VERIFIED: the verification of the staged bank ends (R329). -/
def execFwStageVerified (s : State) : Host.Outcome State Fault Refusal :=
  .next (if s.flag F.KS_FW_STAT_BUSY 0 ∧ s.fget F.KS_FW_STAT_LAST_CMD 0 = 1 then s.fwVerify else s)

/-- ACTIVATE_LIVE: the bank switch window opens, or the command is refused (R331). -/
def execFwActivateLive (v : W32) (s : State) : Host.Outcome State Fault Refusal :=
  .next (s.fwCtrl 2 v State.fwLive)

/-- ACTIVATE_AT_RESET: the staged bank boots at the next device reset, or the command is refused (R331). -/
def execFwActivateAtReset (v : W32) (s : State) : Host.Outcome State Fault Refusal :=
  .next (s.fwCtrl 3 v State.fwAtReset)

/-- COMMIT_SVN: FUSED_SVN becomes RUN_SVN, or ERR 7 on a bank reached by a revert (R330). -/
def execFwCommitSvn (v : W32) (s : State) : Host.Outcome State Fault Refusal :=
  .next (s.fwCtrl 4 v State.fwCommit)

/-- DISCARD: PENDING clears (R329). -/
def execFwDiscard (v : W32) (s : State) : Host.Outcome State Fault Refusal :=
  .next (s.fwCtrl 5 v State.fwDrop)

/-- FIRMWARE_READY: the new firmware is ready, and step 4 of the window follows (R331). -/
def execFirmwareReady (s : State) : Host.Outcome State Fault Refusal := .next (if s.switching then s.switchDone else s)

/-- SWITCH_TIMEOUT: the old bank is reloaded; ERR 7, PENDING stays, FW_REVERTED is posted (R331, R353). -/
def execSwitchTimeout (s : State) : Host.Outcome State Fault Refusal :=
  .next (if s.switching then
      let s := ({ s.fset F.KS_STAT_STATE 0 1 with reverted := true }.fwEnd 7).releaseHeld
      s.event 0x0102 0xFF s.runBank 7 0
    else s)

/-- KS_DBG_OPEN: device debug opens on a valid token while no partition is confidential without consent (R347). -/
def execKsDbgOpen (v : W32) (s : State) : Host.Outcome State Fault Refusal := .next (s.debugWrite v)

/-- OPEN of KS_HASH (R348). -/
def execHashOpen (r : Fin 128) (tag : Fin 512) (s : State) : Host.Outcome State Fault Refusal :=
  .next (s.begin r.val tag.val (isHash 0) hashCheck hashTake (fun _ s => s))

/-- UPDATE of KS_HASH (R348). -/
def execHashUpdate (r : Fin 128) (tag : Fin 512) (s : State) : Host.Outcome State Fault Refusal :=
  .next (s.gated (r.val / 16) (.hashUpdate r tag) (s.begin r.val tag.val (isHash 1) hashCheck hashBegin hashMore))

/-- FINAL of KS_HASH (R348). -/
def execHashFinal (r : Fin 128) (tag : Fin 512) (s : State) : Host.Outcome State Fault Refusal :=
  .next (s.gated (r.val / 16) (.hashFinal r tag) (s.begin r.val tag.val (isHash 2) hashCheck hashEnd hashEnd))

/-- CLOSE of KS_HASH (R348). -/
def execHashClose (r : Fin 128) (tag : Fin 512) (s : State) : Host.Outcome State Fault Refusal :=
  .next (s.begin r.val tag.val (isHash 3) hashCheck hashDrop (fun _ s => s))

/-- HOST_READ_ERROR: a read of the device answered with an error halts its ring, ends its command, or ends the STAGE (R156,
R329, R354). -/
def execHostReadError (what : HostRead) (err : HostErr) (s : State) : Host.Outcome State Fault Refusal :=
  .next (
    match what with
    | .fetch r =>
      if s.fetchOpen r.val then
        (s.hostFault (r.val / 16) (s.ringFn r.val) err (s.slotAddr r.val (s.fget F.TRH_RING_PTR_SQ_HEAD r.val)) 0xFFFF).halt
          r.val 0x0504
      else s
    | .cmd r t => s.withCmd r.val t.val (fun _ => true) (fun s c => State.hostReadFail err c s)
    | .stage =>
      if s.flag F.KS_FW_STAT_BUSY 0 ∧ s.fget F.KS_FW_STAT_LAST_CMD 0 = 1 then
        (s.hostFault (s.fget F.KS_FW_CTRL_PART 0) 0 err (s.fget F.KS_FW_SRC_ADDR 0 * 4096) 0xFFFF).fwEnd 6
      else s)

end Sys2Proof.Machine
end

