-- ==== Sys2Proof/Machine/SemOps.lean ====
section
/-! DEFINITION. Semaphore operations of commands (SEM_OP) and of tile programs, and the service of waiters (R180-R184,
R188). -/

namespace Sys2Proof.Machine
namespace State

/-- COUNT of a semaphore: RESULT of a SEM_OP (R131, R188). -/
def semCount (s : State) (n : Nat) : Nat := s.fget F.SEM_STAT_COUNT n

/-- The check of a counting SEM_OP: in use and the partition's, and not a lock (R180). -/
def countCheck (s : State) (p n : Nat) : Nat :=
  if !(s.semOk n p) then 0x0400 else if s.semLock n then 0x0602 else 0

/-- The check of a lock SEM_OP: in use and the partition's, and a lock (R180, R182). -/
def lockCheck (s : State) (p n : Nat) : Nat :=
  if !(s.semOk n p) then 0x0400 else if !(s.semLock n) then 0x0602 else 0

/-- The waiter of a SEM_OP command. -/
def cmdWaiter (c : Cmd) (n : Nat) (acquire : Bool) (sel : Nat) : Waiter :=
  { who := .cmd c.ring c.tag, n := n, acquire := acquire, ownerSel := sel }

/-- Whether the owner a command would record holds the lock already (R182). -/
def ownsLock (s : State) (n : Nat) (w : Waiter) : Bool := s.lockHeldBy n (s.lockOwner w).1 (s.lockOwner w).2

/-- Whether a command of ring `r`, partition `p`, may release lock `n`: its host function or its partition is the
recorded owner (R182). -/
def mayRelease (s : State) (r p n : Nat) : Bool := s.lockHeldBy n 4 (s.ringFn r) || s.lockHeldBy n 3 p

/-- The status of a lock grant: 0x0002 when the lock is ABANDONED (R184). -/
def grantStatus (s : State) (n : Nat) : Nat := if s.flag F.SEM_STAT_ABANDONED n then 0x0002 else 0

/-- A WAIT or ACQUIRE of a command: satisfied now and ended, or waiting in flight (R180-R182, R188). -/
def cmdRequest (n : Nat) (w : Waiter) (c : Cmd) (s : State) : State :=
  match s.semRequest n w with
  | (true, s) => s.finish c.ring c.tag (if w.acquire then s.grantStatus n else 0) (s.semCount n)
  | (false, s) => s

/-- The head waiter of a semaphore resumes with its request satisfied (R181, R184). -/
def grantResume (s : State) (n : Nat) (w : Waiter) : State :=
  match w.who with
  | .tile t =>
    let first := match ((s.tile t).run.bind s.runOf).bind (fun r => s.prog r.prog) with
      | some g => match (g.image.role (s.tile t).role).ins (s.fget F.PT_RUN_INDEX t) with
        | some i => iWaitEn i && !((s.tile t).granted)
        | none => false
      | none => false
    let s := if first && !w.acquire then s.modTile t (fun y => { y with granted := true }) else s.modTile t (fun y => { y with reqDone := true })
    let s := if w.acquire then s.modTile t (fun y => { y with locks := y.locks ++ [n] }) else s.rememberTake t n w.n
    s.setState t 1
  | .stay t c =>
    s.setStay t c { s.stay t c with lockHeld := true, abandoned := s.flag F.SEM_STAT_ABANDONED n }
  | .ingress => s
  | .cmd r t => s.finish r t (if w.acquire then s.grantStatus n else 0) (s.semCount n)

end State

open State

/-- SEMAPHORE_GRANT: the waiter at the head is satisfied and resumes; one that cannot be holds back the others (R181). -/
def execSemaphoreGrant (sem : Fin 8192) (s : State) : Host.Outcome State Fault Refusal :=
  .next (match s.semWaiters sem.val with
    | w :: ws =>
      if s.waiterReady sem.val w then
        ((s.setSemWaiters sem.val ws).waiterTake sem.val w).grantResume sem.val w
      else s
    | [] => s)

/-- The check of a SEM_OP, by its operation: the semaphore and its mode at fetch and where it starts; what the operation finds
there, a count too low, a lock held or another's, only where it starts (R126, R180, R182, R188; log entry 39). -/
def State.semCheck (s : State) (c : Cmd) : Nat :=
  let finds := fun b => if c.checked && b then 0x0602 else 0
  match c.par with
  | .semOp n 2 _ k => firstBad [s.countCheck c.part n, finds (decide (s.semCount n < k))]
  | .semOp n 3 sel _ => firstBad [s.lockCheck c.part n, finds (s.ownsLock n (cmdWaiter c 1 true sel))]
  | .semOp n 4 _ _ => firstBad [s.lockCheck c.part n, finds (s.flag F.SEM_STAT_HELD n)]
  | .semOp n 5 _ _ => firstBad [s.lockCheck c.part n, finds (!(s.mayRelease c.ring c.part n))]
  | .semOp n 6 _ _ => if s.semOk n c.part then 0 else 0x0400
  | .semOp n _ _ _ => s.countCheck c.part n
  | _ => 0

/-- SIGNAL n: adds n, saturating (R180). -/
def execSemSignal (r : Fin 128) (tag : Fin 512) (s : State) : Host.Outcome State Fault Refusal :=
  .next (s.begin r.val tag.val (fun | .semOp _ 0 _ _ => true | _ => false) State.semCheck
    (fun c s => match c.par with
      | .semOp n _ _ k => (s.semAdd n k).finish c.ring c.tag 0 ((s.semAdd n k).semCount n)
      | _ => s)
    (fun _ s => s))

/-- WAIT n: waits until COUNT reaches n and takes it (R180, R181). -/
def execSemWait (r : Fin 128) (tag : Fin 512) (s : State) : Host.Outcome State Fault Refusal :=
  .next (s.begin r.val tag.val (fun | .semOp _ 1 _ _ => true | _ => false) State.semCheck
    (fun c s => match c.par with
      | .semOp n _ _ k => s.cmdRequest n (cmdWaiter c k false 0) c
      | _ => s)
    (fun _ s => s))

/-- TRYWAIT n: takes n if COUNT allows it, else fails at once with 0x0602 (R180, R188). -/
def execSemTrywait (r : Fin 128) (tag : Fin 512) (s : State) : Host.Outcome State Fault Refusal :=
  .next (s.begin r.val tag.val (fun | .semOp _ 2 _ _ => true | _ => false) State.semCheck
    (fun c s => match c.par with
      | .semOp n _ _ k => (s.semTake n k).finish c.ring c.tag 0 ((s.semTake n k).semCount n)
      | _ => s)
    (fun _ s => s))

/-- ACQUIRE: waits for the lock and records its owner (R182, R184). -/
def execSemAcquire (r : Fin 128) (tag : Fin 512) (s : State) : Host.Outcome State Fault Refusal :=
  .next (s.begin r.val tag.val (fun | .semOp _ 3 _ _ => true | _ => false) State.semCheck
    (fun c s => match c.par with
      | .semOp n _ sel _ => s.cmdRequest n (cmdWaiter c 1 true sel) c
      | _ => s)
    (fun _ s => s))

/-- TRYACQUIRE: takes a free lock, else fails at once with 0x0602 (R182, R184, R188). -/
def execSemTryacquire (r : Fin 128) (tag : Fin 512) (s : State) : Host.Outcome State Fault Refusal :=
  .next (s.begin r.val tag.val (fun | .semOp _ 4 _ _ => true | _ => false) State.semCheck
    (fun c s => match c.par with
      | .semOp n _ sel _ =>
        let s := s.waiterTake n (cmdWaiter c 1 true sel)
        s.finish c.ring c.tag (s.grantStatus n) (s.semCount n)
      | _ => s)
    (fun _ s => s))

/-- RELEASE: accepted only from the recorded owner; clears ABANDONED (R182, R184). -/
def execSemRelease (r : Fin 128) (tag : Fin 512) (s : State) : Host.Outcome State Fault Refusal :=
  .next (s.begin r.val tag.val (fun | .semOp _ 5 _ _ => true | _ => false) State.semCheck
    (fun c s => match c.par with
      | .semOp n _ _ _ => (s.lockRelease n).finish c.ring c.tag 0 ((s.lockRelease n).semCount n)
      | _ => s)
    (fun _ s => s))

/-- READ: returns COUNT (R188). -/
def execSemRead (r : Fin 128) (tag : Fin 512) (s : State) : Host.Outcome State Fault Refusal :=
  .next (s.begin r.val tag.val (fun | .semOp _ 6 _ _ => true | _ => false) State.semCheck
    (fun c s => match c.par with
      | .semOp n _ _ _ => s.finish c.ring c.tag 0 (s.semCount n)
      | _ => s)
    (fun _ s => s))

/-! Tile instructions -/

/-- SEM_WAIT: waits for IMM[15:0] counts on WSEM and takes them (R164, R180). -/
def State.doSemWait (x : Issue) (s : State) : Did :=
  let n := iWsem x.i
  let k := natBits (iImm x.i) 0 16
  if !(s.semOk n x.r.part) then .stop s 0x0400
  else if s.semLock n then .stop s 0x0501
  else if (s.tile x.t).reqDone then .ok s 0 []
  else match s.semRequest n { who := .tile x.t, n := k } with
    | (true, s) => .ok (s.rememberTake x.t n k) 0 []
    | (false, s) => .wait (s.waitSem x.t x.r.part n)

/-- The grant word of a LOCK in DST, 2 for a lock granted ABANDONED, which also warns (R184). -/
def State.grantWord (x : Issue) (s : State) : Did :=
  let ab := s.flag F.SEM_STAT_ABANDONED (iWsem x.i)
  let s := s.deckPut x.t (x.view s (iDst x.i)).base (leBytes 4 (if ab then 2 else 0))
  .ok (if ab then s.modRun x.r.id (fun r => { r with warn := true }) else s) 0 []

/-- LOCK: acquires lock WSEM and writes the grant word (R164, R182, R184). -/
def State.doLock (x : Issue) (s : State) : Did :=
  let n := iWsem x.i
  if !(s.semOk n x.r.part) then .stop s 0x0400
  else if !(s.semLock n) then .stop s 0x0501
  else if (s.tile x.t).reqDone then s.grantWord x
  else if s.lockHeldBy n 1 x.t then .stop s 0x0501
  else match s.semRequest n { who := .tile x.t, acquire := true } with
    | (true, s) => State.grantWord x (s.modTile x.t (fun y => { y with locks := y.locks ++ [n] }))
    | (false, s) => .wait (s.waitSem x.t x.r.part n)

/-- UNLOCK: releases lock WSEM held by the program (R164, R182). -/
def State.doUnlock (x : Issue) (s : State) : Did :=
  let n := iWsem x.i
  if !(s.semOk n x.r.part) then .stop s 0x0400
  else if s.semLock n && s.lockHeldBy n 1 x.t then .ok (s.lockRelease n) 0 [] else .stop s 0x0501

/-- SEM_WAIT of a tile program (R164, R180, R182). -/
def execTileSemWait (t : Fin 16) (s : State) : Host.Outcome State Fault Refusal := .next (s.issue t.val 0x18 State.doSemWait)

/-- SEM_SIGNAL of a tile program: adds IMM[15:0] to SSEM (R164, R180, R182). -/
def execTileSemSignal (t : Fin 16) (s : State) : Host.Outcome State Fault Refusal :=
  .next (s.issue t.val 0x19 (fun x s => s.tileSignal x (iSsem x.i) (natBits (iImm x.i) 0 16)))

/-- LOCK of a tile program (R164, R182, R184). -/
def execLock (t : Fin 16) (s : State) : Host.Outcome State Fault Refusal := .next (s.issue t.val 0x1A State.doLock)

/-- UNLOCK of a tile program (R164, R182). -/
def execUnlock (t : Fin 16) (s : State) : Host.Outcome State Fault Refusal := .next (s.issue t.val 0x1B State.doUnlock)

/-- LOOP: the instructions after it are repeated; the sequencer's own counters do it (R164). -/
def execLoop (t : Fin 16) (s : State) : Host.Outcome State Fault Refusal := .next (s.issue t.val 0x28 (fun _ s => .ok s 0 []))

/-- END: the role's program ends, and with the last role the run (R164). -/
def execEndRole (t : Fin 16) (s : State) : Host.Outcome State Fault Refusal := .next (s.issue t.val 0x2F (fun _ s => .ok s 0 []))

end Sys2Proof.Machine
end

