-- ==== Sys2Proof/Machine/StayKernels.lean ====
section
/-! DEFINITION. Stay cores: STAY_CALL, STAY_INVOKE, STAY_JOIN and the kernels of the catalogue (R171, R172, R176, R184).
The manual gives a kernel's work and the size of its parameter block, not the block's fields: those are read through
Config (log entry 12). -/

namespace Sys2Proof.Machine
namespace State

/-! Starting a kernel -/

/-- A kernel started on core `c` of tile `t` (R171, R186, R311). -/
def stayStart (s : State) (t c kernel part : Nat) (owner : StayOwner) (lock : Option Nat) (params : List Byte) : State :=
  let k := s.stay t c
  let s := s.setStay t c { k with owner := some owner, kernel := kernel, inst := k.next, next := (k.next + 1) % 256
                                  params := params, lock := lock, lockHeld := false, abandoned := false, waitSlot := none }
  let s := (s.setStayStat t c 1 kernel).count 0x00F (some t) (some part) 1
  s.traceEv (0x10 + t) 0x20 (some part) [(16, c), (16, kernel), (16, k.next)]

/-- The core a STAY_CALL takes now: the one named, or the lower free one (R172). -/
def freeStay (s : State) (t sel : Nat) : Option Nat :=
  (if sel = 2 then [0, 1] else [sel]).find? (fun c => !(s.stayBusy t c))

/-- A command's kernel starts once its core is free (R172). -/
def callStart (c : Cmd) (s : State) : State :=
  match c.par with
  | .stayCall t sel k lock use params =>
    if [0, 1].any (fun n => (s.stay t n).owner == some (.cmd c.ring c.tag)) then s
    else match s.freeStay t sel with
      | some n => s.stayStart t n k c.part (.cmd c.ring c.tag) (if use then some lock else none) params
      | none => s
  | _ => s

/-- The checks of a STAY_CALL: its tile, and its lock (R172, R180, R182; log entry 12). -/
def callCheck (s : State) (c : Cmd) : Nat :=
  match c.par with
  | .stayCall t _ k lock use _ =>
    let (sec, res) := s.tileCheck c.part [t]
    firstBad [if use && !(lockKernel k) then 0x0108 else 0, sec, if use && !(s.semOk lock c.part) then 0x0400 else 0, res,
      if use && !(s.semLock lock) then 0x0602 else 0]
  | _ => 0

/-! A kernel's work -/

/-- What a kernel works on: its tile, its parameter block, and whether its lock was granted ABANDONED. -/
structure Kern where
  t : Nat
  id : Nat
  p : List Byte
  ab : Bool

/-- Field `n` of the parameter block (log entry 12). -/
def Kern.f (k : Kern) (n : Nat) : Nat := Config.kernelField k.id k.p n

/-- Value `n` of a formula the manual does not give, from its inputs (log entry 12). -/
def Kern.v (k : Kern) (ins : List Int) (n : Nat) : Int := Config.kernelValue k.id k.p ins n

/-- An array in the tile's Deck: its first byte, its elements, and their format, 0x10 for RAW16. -/
structure Arr where
  a : Nat
  n : Nat
  fmt : Nat

/-- The bits of an array's element, and the bytes of the array, packed (R84, R214). -/
def Arr.bits (r : Arr) : Nat := if r.fmt = 0x10 then 16 else fmtBits r.fmt
def Arr.bytes (r : Arr) : Nat := ceilDiv (r.bits * r.n) 8

/-- The codes of an array (R214). -/
def arrCodes (s : State) (t : Nat) (r : Arr) : List Nat :=
  let v := leNat (s.deckGet t r.a r.bytes)
  (List.range r.n).map (fun i => v / 2 ^ (r.bits * i) % 2 ^ r.bits)

/-- The value of a code of an array: RAW16 is unsigned, the others as R213 has them. -/
def Arr.val (r : Arr) (c : Nat) : Num := if r.fmt = 0x10 then numOfInt c 0 else value r.fmt c

/-- The values of an array. -/
def arrVals (s : State) (t : Nat) (r : Arr) : List Num := (s.arrCodes t r).map r.val

/-- The integers of an array of an integer format. -/
def arrInts (s : State) (t : Nat) (r : Arr) : List Int := (s.arrCodes t r).map (intOf r.fmt)

/-- The array whose first byte is field `n`, of `m` elements in a format. -/
def Kern.arr (k : Kern) (n m fmt : Nat) : Arr := { a := k.f n % 0x800000, n := m, fmt := fmt }

/-- A format code that a field names. -/
def Kern.fmt (k : Kern) (n : Nat) : Nat := k.f n % 0xD

/-- The input array: fields 0 and 1, with at most `most` elements (log entry 12). -/
def Kern.input (k : Kern) (most fmt : Nat) : Arr := k.arr 0 (min (k.f 1) most) fmt

/-- The first byte of the output: field 3. -/
def Kern.dst (k : Kern) : Nat := k.f 3 % 0x800000

/-- Codes as the bytes of an output, packed (R214). -/
def outBytes (bits : Nat) (cs : List Nat) : List Byte := packCodes bits cs

/-- Integers as 32-bit words of an output. -/
def outWords (l : List Int) : List Byte := (l.map (fun i => leBytes 4 (ofSigned 32 i))).flatten

/-- What a kernel does: the byte ranges it reads, its input first, and the bytes it writes. -/
structure Work where
  reads : List (Nat × Nat) := []
  out : List Byte := []

/-- The byte range of an array. -/
def Arr.range (r : Arr) : Nat × Nat := (r.a, r.bytes)

/-- The slots that hold `n` bytes from byte `a`. -/
def slotsOf (a n : Nat) : List Nat := if n = 0 then [] else (List.range ((a + n - 1) / 256 + 1 - a / 256)).map (a / 256 + ·)

/-- Whether a slot of a tile lies in a TAGGED region (R174). -/
def inTagged (s : State) (t slot : Nat) : Bool :=
  (List.range 16).any (fun g => s.inRegion t g slot 1 && s.tagged t g)

/-- The first TAGGED slot that holds a kernel up: a slot it reads that is not full, or one it writes that is not empty (R176). -/
def kernHold (s : State) (k : Kern) (w : Work) : Option (Nat × Bool) :=
  match ((w.reads.map (fun r => slotsOf r.1 r.2)).flatten).find? (fun x => s.inTagged k.t x && !(s.isFull k.t x)) with
  | some x => some (x, true)
  | none => ((slotsOf k.dst w.out.length).find? (fun x => s.inTagged k.t x && s.isFull k.t x)).map (fun x => (x, false))

/-- The whole slots a kernel empties or fills by its own fill or empty: field 5, bits 0 and 1 (R176; log entry 12); `out` tells
whether a command started it, so that what it fills comes from outside the run (R277). -/
def kernTags (s : State) (k : Kern) (w : Work) (out : Bool) : State :=
  let (a, n) := w.reads.headD (0, 0)
  let s := if natBit (k.f 5) 0 then
      forEach ((slotsOf a n).filter (s.inTagged k.t)) (fun x s => s.setFull k.t x false) s else s
  if natBit (k.f 5) 1 then
    forEach ((slotsOf k.dst w.out.length).filter (s.inTagged k.t)) (fun x s =>
      let s := s.setFull k.t x true
      match out, s.regionOf k.t x with
      | true, some g => s.feedOut k.t g
      | _, _ => s) s
  else s

/-- The partition of a kernel's tile. -/
def stayPart (s : State) (t : Nat) : Nat := (s.tileOwner t).getD 0

/-- The end of a kernel: its lock is released, its core is free, its result goes to its command or to STAY_JOIN
(R171, R172). -/
def stayEnd (s : State) (t c : Nat) (result : W32) : State :=
  let k := s.stay t c
  let s := match k.lock with
    | some n => if k.lockHeld then s.lockRelease n else s
    | none => s
  let s := (s.setStay t c { k with owner := none, lock := none, lockHeld := false, abandoned := false, params := []
                                   result := result }).setStayStat t c 0 0
  let s := s.traceEv (0x10 + t) 0x21 (some (s.stayPart t)) [(16, result.toNat)]
  match k.owner with
  | some (.cmd r g) => s.finish r g 0 result.toNat
  | _ => s

/-- The kernel's lock asked for: granted now, or waited for once (R171, R181). -/
def stayLock (s : State) (t c n : Nat) : State :=
  if (s.semWaiters n).any (fun w => w.who == .stay t c) then s
  else match s.semRequest n { who := .stay t c, acquire := true } with
    | (true, s) =>
      s.setStay t c { s.stay t c with lockHeld := true, abandoned := s.flag F.SEM_STAT_ABANDONED n }
    | (false, s) => s

/-- RESULT of a kernel: bit 31 tells a lock granted ABANDONED (R171, R184); the rest is the kernel's own (entry 12). -/
def kernResult (k : Kern) (ins : List Int) : W32 :=
  let v := BitVec.ofInt 32 (k.v ins 0xFFFF)
  if lockKernel k.id then (if k.ab then v ||| 0x80000000#32 else v &&& 0x7FFFFFFF#32) else v

/-- Kernel `id` on core `c` of tile `t`: its lock, the tags of its slots, its work and its end. -/
def kernel (s : State) (t c id : Nat) (work : State → Kern → Work) : State :=
  let y := s.stay t c
  if !(s.stayBusy t c) || y.kernel != id || y.waitSlot.isSome || s.resetBusy (s.stayPart t) then s
  else
    let s := match y.lock with
      | some n => if y.lockHeld then s else s.stayLock t c n
      | none => s
    let y := s.stay t c
    if y.lock.isSome && !y.lockHeld then s
    else
      let k : Kern := { t := t, id := id, p := y.params, ab := y.abandoned }
      let w := work s k
      match s.kernHold k w with
      | some (x, want) => s.setStay t c { y with waitSlot := some (slotKey t x, want) }
      | none =>
        let cmd := match y.owner with
          | some (.cmd _ _) => true
          | _ => false
        let ins := w.reads.map (fun r => (leNat (s.deckGet t r.1 r.2) : Int))
        (((s.deckPut t k.dst w.out).kernTags k w cmd)).stayEnd t c (kernResult k ins)

/-! The kernels (R171) -/

/-- PREP_NORM: (x − mean) × scale, exact and rounded once, for each of up to 65,536 elements of U8, RAW16 or I16 (field 2); the
mean and the scale of an element's channel stand in the arrays of fields 6 and 7, and the output has the format of field 4. -/
def prepNorm (s : State) (k : Kern) : Work :=
  let x := k.input 65536 ([0xA, 0x10, 0x8].getD (k.f 2 % 3) 0xA)
  let ch := max 1 (k.f 8)
  let mean := k.arr 6 ch (k.fmt 9)
  let scale := k.arr 7 ch (k.fmt 10)
  let ms := s.arrVals k.t mean
  let cs := s.arrVals k.t scale
  let fo := k.fmt 4
  let one := fun (v, i) =>
    (convert fo .rne true 0 ((mulNum (subNum v (ms.getD (i % ch) .nan)) (cs.getD (i % ch) .nan)).getD .nan)).1
  { reads := [x.range, mean.range, scale.range], out := outBytes (fmtBits fo) ((s.arrVals k.t x).zipIdx.map one) }

/-- PREP_UNPACK: packed RAW10, RAW12 or RAW14 (field 6) into I16 (R84; log entry 33). -/
def prepUnpack (s : State) (k : Kern) : Work :=
  let r := (k.f 0 % 0x800000, k.f 1)
  { reads := [r], out := unpackLine (0x2B + k.f 6 % 3) (s.deckGet k.t r.1 r.2) }

/-- PREP_GRID: records of field 2 bytes, each with SEQ as its first 32 bits (R80), placed whole in a grid of field 7 places that
starts at SEQ field 6; a gap holds the marker of field 8. -/
def prepGrid (s : State) (k : Kern) : Work :=
  let n := max 4 (k.f 2)
  let a := k.f 0 % 0x800000
  let recs := (List.range (k.f 1)).map (fun i => s.deckGet k.t (a + n * i) n)
  { reads := [(a, n * k.f 1)]
    out := ((List.range (k.f 7)).map (fun g =>
      (recs.find? (fun r => leField r 0 4 == (k.f 6 + g) % 2 ^ 32)).getD (((List.range n).map (fun _ => leBytes 4 (k.f 8))).flatten.take n))).flatten }

/-- Whether a list of indices selects the top scores in descending order. -/
def isTop (scores : List Num) (sel : List Nat) : Bool :=
  let v := fun i => scores.getD i .nan
  sel.all (fun i => decide (i < scores.length)) && sel.Nodup && (sel.zip (sel.drop 1)).all (fun (a, b) => !(numLt (v a) (v b))) &&
    (List.range scores.length).all (fun i => sel.contains i || sel.all (fun j => !(numLt (v j) (v i))))

/-- TIDY_TOPK: the K ≤ 64 (field 6) highest of up to 65,536 scores with their indices; the order of equal scores is open. -/
def tidyTopk (s : State) (k : Kern) : Work :=
  let x := k.input 65536 (k.fmt 2)
  let cs := s.arrCodes k.t x
  let vs := cs.map x.val
  let n := min (min (k.f 6) 64) vs.length
  let free := (List.range n).map (fun j => (k.v (cs.map (fun (c : Nat) => (c : Int))) j).toNat)
  let sel := if isTop vs free then free
             else ((List.range vs.length).mergeSort (fun a b => !(numLt (vs.getD a .nan) (vs.getD b .nan)))).take n
  { reads := [x.range], out := (sel.map (fun i => leBytes 4 i ++ leBytes (ceilDiv x.bits 8) (cs.getD i 0))).flatten }

/-- TIDY_NMS: those of up to 1,024 boxes of field 2 bytes that are kept, by a rule the manual names and does not give. -/
def tidyNms (s : State) (k : Kern) : Work :=
  let n := min (k.f 1) 1024
  let a := k.f 0 % 0x800000
  let boxes := (List.range n).map (fun i => s.deckGet k.t (a + k.f 2 * i) (k.f 2))
  let ins := boxes.map (fun b => (leNat b : Int))
  { reads := [(a, n * k.f 2)], out := ((boxes.zipIdx.filter (fun e => k.v ins e.2 != 0)).map (·.1)).flatten }

/-- CL_PID: the outputs and new states of the block's loops, at most 16, three Q16.16 words each; on a lock granted ABANDONED the
states are set anew from the present inputs first. -/
def clPid (s : State) (k : Kern) : Work :=
  let x := k.input 64 0xC
  { reads := [x.range]
    out := outWords ((List.range (3 * kernelUnits 0x20 16 k.p)).map (k.v ((if k.ab then 1 else 0) :: s.arrInts k.t x))) }

/-- An exact Q32.32 sum of products of Q16.16 codes. -/
def dotQ (a b : List Int) : Int := (List.zipWith (· * ·) a b).sum

/-- CL_STATESPACE: x' = Ax + Bu and y = Cx + Du in Q16.16 with fields 6-8 states, inputs and outputs, at most 16, 8 and 8, the
matrices by rows at field 9 and x at field 10; on a lock granted ABANDONED, x is first rebuilt from the measured outputs
through C. A sum is brought back to Q16.16 by a rounding the manual does not give. -/
def clStatespace (s : State) (k : Kern) : Work :=
  let nx := min (k.f 6) 16
  let nu := min (k.f 7) 8
  let ny := min (k.f 8) 8
  let c0 := nx * (nx + nu)
  let inp := k.input (nu + ny) 0xC
  let mat := k.arr 9 ((nx + ny) * (nx + nu)) 0xC
  let st := k.arr 10 nx 0xC
  let ins := s.arrInts k.t inp
  let ms := s.arrInts k.t mat
  let x := if k.ab then (List.range nx).map (fun i => k.v (ms.drop c0 ++ ins.drop nu) (0x100 + i)) else s.arrInts k.t st
  let row := fun (o i : Nat) => k.v [dotQ ((ms.drop (o + i * (nx + nu))).take (nx + nu)) (x ++ ins.take nu)] 0
  { reads := [inp.range, mat.range, st.range], out := outWords ((List.range nx).map (row 0) ++ (List.range ny).map (row c0)) }

/-- CL_LIMIT: range and rate limits of the block's outputs, at most 32, each from its input, its limits (array at field 6: low,
high, rate) and its last value (array at field 7), written as duty words or a drive frame. -/
def clLimit (s : State) (k : Kern) : Work :=
  let n := kernelUnits 0x22 32 k.p
  let inp := k.input n 0xC
  let lim := k.arr 6 (3 * n) 0xC
  let last := k.arr 7 n 0xC
  let ls := s.arrInts k.t lim
  let ps := s.arrInts k.t last
  { reads := [inp.range, lim.range, last.range]
    out := outWords ((s.arrInts k.t inp).zipIdx.map (fun (u, i) =>
      k.v ([u, if k.ab then 1 else 0, ps.getD i 0] ++ (ls.drop (3 * i)).take 3) 0)) }

/-- The elements of channel `c` of `n`. -/
def chanOf {α : Type} (l : List α) (n c : Nat) : List α := (l.zipIdx.filter (fun e => e.2 % n == c)).map (·.1)

/-- Q_CALIB: the minimum and maximum of each channel (field 6 channels) of an integer array, and a scale from them. -/
def qCalib (s : State) (k : Kern) : Work :=
  let x := k.arr 0 (k.f 1) ([7, 8, 9, 0xA, 0xB].getD (k.f 2 % 5) 7)
  let n := max 1 (k.f 6)
  { reads := [x.range]
    out := outWords (((List.range n).map (fun c =>
      match chanOf (s.arrInts k.t x) n c with
      | [] => []
      | y :: ys => let lo := ys.foldl min y; let hi := ys.foldl max y; [lo, hi, k.v [lo, hi] 0])).flatten) }

/-- Q_REQUANT: I32 into I8 or I4 (field 4): round(x × scale) + zero point, saturating, with the channel's scale (array at field
7) and zero point (array at field 8) (R217, R228). -/
def qRequant (s : State) (k : Kern) : Work :=
  let x := k.arr 0 (k.f 1) 7
  let n := max 1 (k.f 6)
  let scale := k.arr 7 n (k.fmt 9)
  let zp := k.arr 8 n 8
  let cs := s.arrVals k.t scale
  let zs := s.arrInts k.t zp
  let fo := if natBit (k.f 4) 0 then 0xB else 9
  let one := fun (v, i) => (convert fo .rne true (zs.getD (i % n) 0) ((mulNum v (cs.getD (i % n) .nan)).getD .nan)).1
  { reads := [x.range, scale.range, zp.range], out := outBytes (fmtBits fo) ((s.arrVals k.t x).zipIdx.map one) }

/-- Q_COLSUM: the sum of each column (field 6 weights a column) of U8, I8, I4 or I16 weights (field 2), modulo 2^32; with escapes
on (field 8) the most negative code of I8 and I4 counts as its column's ZP (array at field 9) (R224, R225, R227). -/
def qColsum (s : State) (k : Kern) : Work :=
  let rows := max 1 (k.f 6)
  let x := k.arr 0 (k.f 1) ([9, 0xA, 0xB, 8].getD (k.f 2 % 4) 9)
  let cols := k.f 1 / rows
  let zp := k.arr 9 cols 8
  let zs := s.arrInts k.t zp
  let esc := k.f 8 == 1 && (x.fmt == 9 || x.fmt == 0xB)
  let ws := s.arrInts k.t x
  let w := fun (c : Nat) (v : Int) => if esc && v == (intRange x.fmt).1 then zs.getD c 0 else v
  { reads := [x.range] ++ (if esc then [zp.range] else [])
    out := outWords ((List.range cols).map (fun c => (((ws.drop (rows * c)).take rows).map (w c)).sum)) }

/-! Tile instructions -/

/-- STAY_INVOKE: kernel P8 on Stay IMM[0] with the parameters at SRC0, once the core is free (R164, R171). -/
def doInvoke (x : Issue) (s : State) : Did :=
  let c := iImm x.i % 2
  let a := (x.view s (iSrc0 x.i)).base
  match kernelBytes (iP8 x.i) (s.deckGet x.t a 24) with
  | none => .stop s 0x0108
  | some n =>
    let bad := match kernLock x.i with
      | some l => if !(s.semOk l x.r.part) then 0x0400 else if !(s.semLock l) then 0x0501 else 0
      | none => 0
    if bad ≠ 0 then .stop s bad
    else if s.stayBusy x.t c then .wait s
    else .ok (s.stayStart x.t c (iP8 x.i) x.r.part (.prog x.r.id) (kernLock x.i) (s.deckGet x.t a n)) 0 []

/-- STAY_JOIN: waits for Stay IMM[0] and writes the kernel's result to DST (R164). -/
def doJoin (x : Issue) (s : State) : Did :=
  let c := iImm x.i % 2
  if s.stayBusy x.t c then .wait s
  else .ok (s.deckPut x.t (x.view s (iDst x.i)).base (leBytes 4 (s.stay x.t c).result.toNat)) 0 []

end State

open State

/-- STAY_CALL: a catalogue kernel started from a command; RESULT is the kernel's result (R172). -/
def execStayCall (r : Fin 128) (tag : Fin 512) (s : State) : Host.Outcome State Fault Refusal :=
  .next (s.begin r.val tag.val (fun | .stayCall .. => true | _ => false) State.callCheck State.callStart State.callStart)

/-- STAY_INVOKE (R164, R171). -/
def execStayInvoke (t : Fin 16) (s : State) : Host.Outcome State Fault Refusal := .next (s.issue t.val 0x20 State.doInvoke)

/-- STAY_JOIN (R164). -/
def execStayJoin (t : Fin 16) (s : State) : Host.Outcome State Fault Refusal := .next (s.issue t.val 0x21 State.doJoin)

/-- PREP_NORM (R171). -/
def execPrepNorm (t : Fin 16) (c : Fin 2) (s : State) : Host.Outcome State Fault Refusal :=
  .next (s.kernel t.val c.val 0x01 State.prepNorm)

/-- PREP_UNPACK (R171). -/
def execPrepUnpack (t : Fin 16) (c : Fin 2) (s : State) : Host.Outcome State Fault Refusal :=
  .next (s.kernel t.val c.val 0x02 State.prepUnpack)

/-- PREP_GRID (R171). -/
def execPrepGrid (t : Fin 16) (c : Fin 2) (s : State) : Host.Outcome State Fault Refusal :=
  .next (s.kernel t.val c.val 0x03 State.prepGrid)

/-- TIDY_TOPK (R171). -/
def execTidyTopk (t : Fin 16) (c : Fin 2) (s : State) : Host.Outcome State Fault Refusal :=
  .next (s.kernel t.val c.val 0x10 State.tidyTopk)

/-- TIDY_NMS (R171). -/
def execTidyNms (t : Fin 16) (c : Fin 2) (s : State) : Host.Outcome State Fault Refusal :=
  .next (s.kernel t.val c.val 0x11 State.tidyNms)

/-- CL_PID (R171). -/
def execClPid (t : Fin 16) (c : Fin 2) (s : State) : Host.Outcome State Fault Refusal :=
  .next (s.kernel t.val c.val 0x20 State.clPid)

/-- CL_STATESPACE (R171). -/
def execClStatespace (t : Fin 16) (c : Fin 2) (s : State) : Host.Outcome State Fault Refusal :=
  .next (s.kernel t.val c.val 0x21 State.clStatespace)

/-- CL_LIMIT (R171). -/
def execClLimit (t : Fin 16) (c : Fin 2) (s : State) : Host.Outcome State Fault Refusal :=
  .next (s.kernel t.val c.val 0x22 State.clLimit)

/-- Q_CALIB (R171). -/
def execQCalib (t : Fin 16) (c : Fin 2) (s : State) : Host.Outcome State Fault Refusal :=
  .next (s.kernel t.val c.val 0x30 State.qCalib)

/-- Q_REQUANT (R171). -/
def execQRequant (t : Fin 16) (c : Fin 2) (s : State) : Host.Outcome State Fault Refusal :=
  .next (s.kernel t.val c.val 0x31 State.qRequant)

/-- Q_COLSUM (R171, R227). -/
def execQColsum (t : Fin 16) (c : Fin 2) (s : State) : Host.Outcome State Fault Refusal :=
  .next (s.kernel t.val c.val 0x32 State.qColsum)

end Sys2Proof.Machine
end

