-- ==== Sys2Proof/Machine/Recovery.lean ====
section
/-! DEFINITION. Tile faults: span replay, retirement, spares and rollback (R183, R185, R267-R281, R286). -/

namespace Sys2Proof.Machine

/-- A run with `u` in the place of tile `t`; where `t` led it, the next tile in TILES leads (R212, R277, R279). -/
def Run.moved (r : Run) (t u : Nat) : Run :=
  let ts := r.tiles.map (fun x => if x = t then u else x)
  { r with tiles := ts, lead := if r.lead = t then ts.getD ((r.tiles.idxOf t + 1) % ts.length) u else r.lead }

namespace State

/-- CAUSE of a tile fault source (R262, R267). -/
def tileCause : TileCause → Nat
  | .girderParity => 1
  | .deckUncorrectable => 2
  | .storeUncorrectable => 3
  | .scaleParity => 4
  | .stayParity => 5
  | .ceThreshold => 8
  | .deckCorrected => 0

/-- A TILE record (R262). -/
def tileRecord (s : State) (t cause action attempt : Nat) : State :=
  let (part, rt) := match (s.tile t).run.bind s.runOf with
    | some r => (r.part, runRt r)
    | none => ((s.tileOwner t).getD 0xFF, 0xFFFF)
  s.fault { cls := 2, action := action, part := part, unit := t, cause := cause, info0 := s.rget .PT_RUN t
            info1 := BitVec.ofNat 32 attempt, ringTag := rt }

/-- Counts taken and locks acquired given back: counts return, locks are released ABANDONED (R277 step 4; for a
replay, log entry 42). -/
def giveBack (s : State) (taken : List (Nat × Nat)) (locks : List Nat) (t : Nat) : State :=
  let s := forEach taken (fun (n, k) s => s.semGiveBack n k) s
  forEach (locks.filter (fun n => s.lockHeldBy n 1 t)) (fun n s => s.lockAbandon n) s

/-- The slots that FILLs of the span in progress have set full are empty again (R168). -/
def unland (s : State) (t : Nat) : State := { s with full := (s.tile t).filled.foldl (fun f k => tabSet false f k false) s.full }

/-! Replay (R268, R270) -/

/-- A span begun again from its first instruction (R168, R268, R270). -/
def replaySpan (s : State) (r : Run) (t cause : Nat) : State :=
  let y := s.tile t
  let s := (s.dropWaiters (fun w => w == .tile t)).giveBack (y.taken.drop y.spanTaken) (y.locks.drop y.spanLocks) t
  let s := (s.unland t).setTile t { y with
    deferred := [], filled := [], held := y.held.take y.spanHeld, fails := y.fails + 1, replayed := true, loop := y.spanLoop
    atBarrier := false, spanDone := false, granted := false, reqDone := false, moved := 0, onPath := false, waitSlot := none
    taken := y.taken.take y.spanTaken, locks := y.locks.take y.spanLocks, inTail := false }
  let s := ((s.setState t 1).fset F.PT_RUN_INDEX t y.spanFrom).modRun r.id (fun r => { r with replay := true })
  (s.count 0x006 (some t) (some r.part) 1).traceEv t 0x12 (some r.part) [(16, cause), (16, y.fails + 1)]

/-! Spares (R276) -/

/-- The program and role that a spare of tile `t` must fit: the role running on it, else that of its first queued start, else
that of the first armed alarm entry that names it (R276, R279; log entry 42). -/
def spareNeed (s : State) (t : Nat) : Option (Prog × Nat) :=
  match (s.tile t).run.bind s.runOf, ((s.tile t).startQ.head?).bind s.runOf with
  | some r, _ => (s.prog r.prog).map (fun g => (g, (s.tile t).role))
  | none, some r => (s.prog r.prog).map (fun g => (g, r.tiles.idxOf t))
  | none, none =>
    match s.entries.find? (fun (k, q) => s.flag F.BR_AL_STAT_ARMED k && s.fget F.BR_AL_CFG_ACTION k == 1 && q.byRole.contains t) with
    | some (_, q) => (s.prog q.prog).map (fun g => (g, q.byRole.idxOf t))
    | none => none

/-- Whether tile `u` meets the conditions on a spare of partition `p` for role `k` of a program (R276). -/
def spareOk (s : State) (p : Nat) (g : Prog) (k u : Nat) : Bool :=
  s.owns p u && s.fused u && s.fget F.PT_STAT_STATE u == 0 && (s.tile u).run == none && (s.tile u).startQ.isEmpty &&
    s.runs.all (fun x => !(x.tiles.contains u)) && s.layoutInForce u (g.image.role k).layout

/-- The spare of tile `t` among those not in `used`: the lowest that meets the conditions, if the role's instructions are
pinned there or fit (R276). -/
def spareOf (s : State) (t : Nat) (used : List Nat) : Option Nat :=
  match s.tileOwner t, s.spareNeed t with
  | some p, some (g, k) =>
    ((List.range 16).find? (fun u => s.spareOk p g k u && !(used.contains u))).filter (fun u =>
      pinned g u || decide ((g.image.role k).instrs.length ≤ s.freeStore u))
  | _, _ => none

/-- Spares for several tiles, in ascending tile order, each its own (R276, R286). -/
def sparesOf (s : State) (ts : List Nat) : List (Nat × Option Nat) :=
  (ts.foldl (fun (acc, used) t =>
    let u := s.spareOf t used
    (acc ++ [(t, u)], used ++ u.toList)) ([], [])).1

/-- The program counts as pinned on the spare (R276). -/
def pinSpare (s : State) (h u : Nat) : State :=
  { s with progs := s.progs.map (fun p => if p.handle == h && !(pinned p u) then { p with pins := p.pins + 2 ^ u } else p) }

/-! Rollback (R277) -/

/-- The last cut that every role of a run has passed (R273, R277; log entry 42). -/
def lastCut (s : State) (r : Run) (im : Image) : Nat :=
  (((List.range (r.cut + 1)).reverse).find? (fun c => r.tiles.zipIdx.all (fun (t, k) =>
    (s.tile t).run != some r.id || decide (cutAt im c k ≤ s.fget F.PT_RUN_SPAN t)))).getD 0

/-- Whether region `g` of tile `x` is fed from outside the run: something outside has fed it since the role began, an armed
descriptor lands in it, or a command in flight names it (R277 step 3; log entry 42). -/
def fedFrom (s : State) (x g : Nat) : Bool :=
  tabGet false s.fedOut (rgnIdx x g) ||
    (List.range 128).any (fun n => s.fget F.ING_D_CTRL_STATE n != 0 && s.flag F.ING_D_CFG_DEST n &&
      natBits (s.fget F.ING_D_DATA_LOC n) 16 4 == x && natBits (s.fget F.ING_D_DATA_LOC n) 20 4 == g) ||
    s.cmds.any (fun c => c.done == none && (bufsOf c.par).any (fun d => d.kind == 2 && bufTile d == x && bufRgn d == g))

/-- The tags of a region set to empty. -/
def emptyRegion (s : State) (x g : Nat) : State :=
  let i := rgnIdx x g
  { s with full := tabClear s.full (slotKey x (s.fget F.DK_RGN_CFG_BASE i)) (s.fget F.DK_RGN_CFG_COUNT_M1 i + 1) }

/-- A role at its span of a cut: where its sequencer stands, and PT_RUN (R277 step 5). -/
def roleAt (s : State) (r : Run) (im : Image) (cut t role : Nat) : State :=
  let k := cutAt im cut role
  let (n, l) := (im.role role).spanStart k
  let s := s.setTile t { startQ := (s.tile t).startQ, run := some r.id, role := role, spanFrom := n, spanLoop := l, loop := l
                         replayed := true }
  ((((s.setState t 1).rset .PT_RUN t 0).fset F.PT_RUN_PROG t r.prog).fset F.PT_RUN_SPAN t k).fset F.PT_RUN_INDEX t n

/-- Whether a role's program goes on after a cut. -/
def goesOn (im : Image) (cut k : Nat) : Bool := decide (cutAt im cut k < (im.role k).spans)

/-- Whether a role that has ended since the cut can be taken back: its tile is free (R277; log entry 42). -/
def retakable (s : State) (r : Run) (im : Image) (cut : Nat) : Bool :=
  r.tiles.zipIdx.all (fun (t, k) => !(r.ended.contains t && goesOn im cut k) || ((s.tile t).run == none && !(s.retired t)))

/-- One surviving role taken back to the cut (R277 steps 1-5): what it waits for, has taken and has filled is given up, and the
tags of TAGGED regions that only the run feeds are emptied. -/
def cutBack (r : Run) (im : Image) (cut t role : Nat) (s : State) : State :=
  let y := s.tile t
  if y.run == some r.id || (r.ended.contains t && goesOn im cut role) then
    let s := ((s.dropWaiters (fun w => w == .tile t)).giveBack y.taken y.locks t).unland t
    let s := forEach ((List.range 16).filter (fun g => s.tagged t g && !(s.fedFrom t g))) (fun g s => s.emptyRegion t g) s
    s.roleAt r im cut t role
  else s

/-- The copies of the roles that move to tiles where the program is not pinned (R158, R276). -/
def copyRoles (r : Run) (g : Prog) : List (Nat × Nat) → State → Nat × State
  | [], s => (0, s)
  | (t, u) :: xs, s =>
    if pinned g u then copyRoles r g xs s
    else match s.copyRole r g u (g.image.role (r.tiles.idxOf t)).instrs.length with
      | (0, s) => copyRoles r g xs (s.pinSpare g.handle u)
      | (st, s) => (st, s)

/-- One retired role placed on its spare at the cut, with the record of ACTION 5 (R277, R280). -/
def moveRole (r : Run) (im : Image) (cut t u cause attempt : Nat) (s : State) : State :=
  let y := s.tile t
  let role := y.role
  let s := s.fault { cls := 2, action := 5, part := r.part, unit := t, cause := cause, info0 := s.rget .PT_RUN t
                     info1 := BitVec.ofNat 32 attempt, ringTag := runRt r }
  let s := (s.dropWaiters (fun w => w == .tile t)).giveBack y.taken [] t
  ((s.feedStart u).roleAt r im cut u role).modRun r.id (fun r => r.moved t u)

/-- The run rolled back to its last cut, each retired tile's role on its spare; `xs` holds tile, spare, cause and attempt
(R277, R280). -/
def rollBack (s : State) (r : Run) (g : Prog) (xs : List (Nat × Nat × Nat × Nat)) : State :=
  let cut := s.lastCut r g.image
  match copyRoles r g (xs.map (fun x => (x.1, x.2.1))) s with
  | (0, s) =>
    let s := s.staysStop r.id
    let s := forEach r.tiles.zipIdx (fun (t, k) s => if xs.any (fun x => x.1 == t) then s else cutBack r g.image cut t k s) s
    let s := forEach xs (fun (t, u, cause, attempt) s => moveRole r g.image cut t u cause attempt s) s
    s.modRun r.id (fun q => { q with
      rollbacks := q.rollbacks + 1, rolled := true, replay := true, restoring := true, cut := cut, held := []
      ended := q.ended.filter (fun t => !(goesOn g.image cut (r.tiles.idxOf t))) })
  | (st, s) => s.runStop r.id (if st = waiting then 0x0501 else st)

/-! Retirement (R272, R279) -/

/-- The alarm entries that name a retired tile: they move to the spare, the program pinned there where it fits, or without a
spare their slots are disarmed (R279). -/
def entriesMove (s : State) (t : Nat) (spare : Option Nat) : State :=
  forEach (s.entries.filter (fun (k, q) => s.flag F.BR_AL_STAT_ARMED k && s.fget F.BR_AL_CFG_ACTION k == 1 && q.byRole.contains t))
    (fun (k, q) s =>
      match spare with
      | some u =>
        let fits := ((s.prog q.prog).map (fun g => decide (g.image.size ≤ s.freeStore u))).getD false
        let s := if fits then s.pinSpare q.prog u else s
        { s with entries := tabSet {} s.entries k { q with spares := q.spares ++ [(t, u)] } }
      | none => s.fset F.BR_AL_STAT_ARMED k 0) s

/-- The start queue of a retired tile: it moves to the spare in order, or its runs end with 0x0501 (R279). -/
def queueMove (s : State) (t : Nat) (spare : Option Nat) : State :=
  let q := (s.tile t).startQ
  match spare with
  | some u =>
    let s := forEach q (fun id s => s.modRun id (fun r => { r.moved t u with replay := true })) s
    (s.setStartQ t []).setStartQ u ((s.tile u).startQ ++ q)
  | none => (forEach q (fun id s => s.runStop id 0x0501) s).setStartQ t []

/-- What the loss of a Deck ends (R87, R183, R185): descriptors that land in it, commands that use it, kernels on the
tile, its locks, and the runs of other tiles whose XFER waits on one of its slots (R169). -/
def deckLost (s : State) (t : Nat) : State :=
  let s := forEach ((List.range 128).filter (fun n => s.fget F.ING_D_CTRL_STATE n != 0 && s.flag F.ING_D_CFG_DEST n &&
      natBits (s.fget F.ING_D_DATA_LOC n) 16 4 == t)) (fun n s =>
    ((s.descQuiet n).fset F.ING_D_CTRL_FAULT n 1).fault
      { cls := 0x0B, part := s.fget F.ING_D_CFG_PART n, unit := n, cause := 1, info0 := BitVec.ofNat 64 t }) s
  let uses := fun (c : Cmd) => match c.par with
    | .progRun _ => false
    | p => c.started && (bufsOf p).any (fun d => d.kind == 2 && bufTile d == t)
  let s := s.finishAll uses 0x0603
  let s := forEach (List.range 2) (fun c s =>
    let own := (s.stay t c).owner
    let s := s.stayStop t c
    match own with
    | some (.cmd r g) => s.finish r g 0x0501 0
    | _ => s) s
  let s := s.abandonWhere (fun _ kind id => (kind == 1 && id == t) || (kind == 2 && id % 16 == t))
  let s := forEach (List.range 16) (fun x s =>
    match (s.tile x).waitSlot, (s.tile x).run with
    | some (k, _), some id => if x ≠ t ∧ k / 32768 = t then s.runStop id 0x0501 else s
    | _, _ => s) s
  { s with deck := memClear s.deck (deckAddr t 0 0) 0x800000, full := tabClear s.full (slotKey t 0) 32768
           scales := tabClear s.scales (4096 * t) 4096 }

/-- A run whose tiles retire: rolled back if each has its spare, none had entered its commit tail, and the run has been rolled
back fewer than three times, and else ended with 0x0501 (R277, R278, R286). -/
def runRecover (sp : List (Nat × Option Nat)) (xs : List (Nat × Nat × Nat)) (id : Nat) (s : State) : State :=
  match s.runOf id with
  | none => s
  | some r =>
    let mine := xs.filter (fun x => (s.tile x.1).run == some id)
    let swaps := mine.filterMap (fun (t, c, a) => ((sp.find? (fun e => e.1 == t)).bind (·.2)).map (fun u => (t, u, c, a)))
    match s.prog r.prog with
    | some g =>
      if swaps.length = mine.length ∧ mine.all (fun x => !((s.tile x.1).inTail)) ∧ r.rollbacks < 3 ∧ !(s.resetBusy r.part) ∧
          s.retakable r g.image (s.lastCut r g.image) then s.rollBack r g swaps
      else s.runStop id 0x0501
    | none => s.runStop id 0x0501

/-- What follows for one retired tile once its run is dealt with: its queue and entries, the loss of its Deck, TILE_RETIRED, and
the partition's TDISP interface (R272, R279-R281, R339). -/
def tileGone (part prog : Nat) (spare named : Option Nat) (t : Nat) (s : State) : State :=
  let s := ((s.queueMove t spare).entriesMove t spare).deckLost t
  let s := (s.setTile t {}).rset .PT_RUN t 0
  (s.event 0x0010 part t prog (named.getD 0xFF)).tdiError part 3

/-- Tiles retired in one cycle, in ascending order, each with its cause and attempt: their records, their spares, the rollback
or the end of each run, what each loses, and the capacity recompute (R268, R272-R281, R286). -/
def retireTiles (s : State) (xs : List (Nat × Nat × Nat)) : State :=
  if xs.isEmpty then s
  else
    let s := forEach xs (fun (t, cause, attempt) s => (s.tileRecord t cause 4 attempt).fset F.PT_STAT_STATE t 4) s
    let sp := s.sparesOf (xs.map (·.1))
    let of := fun t => (sp.find? (fun e => e.1 == t)).bind (·.2)
    let was := xs.map (fun x => (x.1, (s.tile x.1).run, (((s.tile x.1).run.bind s.runOf).map (fun r => (r.prog, r.rollbacks)))))
    let s := forEach ((was.filterMap (fun w => w.2.1)).eraseDups) (runRecover sp xs) s
    let s := forEach was (fun (t, id, r) s =>
      let back := match id.bind s.runOf, r with
        | some q, some (_, n) => decide (n < q.rollbacks)
        | _, _ => false
      tileGone ((s.tileOwner t).getD 0xFF) ((r.map (·.1)).getD 0) (of t) (if back then of t else none) t s) s
    s.recompute

/-- What a tile fault leads to (R268): nothing more, the end of the run, a replay of the span, or the tile's retirement. With
RESET_BUSY set, no span is replayed and no run ended (R286). -/
inductive Handled where
  | logged | ended | replayed | retired (cause : Nat)
  deriving DecidableEq, Repr

/-- R268's order of decision for a fault of a tile in service. -/
def handledAs (s : State) (t cause : Nat) (bistPass : Bool) : Handled :=
  if !bistPass then .retired 7
  else match (s.tile t).run.bind s.runOf with
    | none => .logged
    | some r =>
      if s.resetBusy r.part then .logged
      else if (s.tile t).inTail then .ended
      else if (s.tile t).fails < 2 then .replayed
      else .retired cause

/-- A fault that retires no tile: its record, and the replay of the span or the end of the run (R268). -/
def handleOne (t cause : Nat) (h : Handled) (s : State) : State :=
  let attempt := (s.tile t).fails + 1
  match h, (s.tile t).run.bind s.runOf with
  | .ended, some r => (s.tileRecord t cause 3 attempt).runStop r.id 0x0501
  | .replayed, some r => (s.tileRecord t cause 2 attempt).replaySpan r t cause
  | _, _ => s.tileRecord t cause 0 attempt

/-- Tile faults of one cycle, at most one a tile, in ascending tile order: first those that retire no tile, then the
retirements together (R268, R286). -/
def handleFaults (s : State) (xs : List (Nat × Nat × Bool)) : State :=
  let xs := xs.filter (fun x => !(s.retired x.1) && s.fused x.1)
  let hs := xs.map (fun (t, c, ok) => (t, c, s.handledAs t c ok, (s.tile t).fails + 1))
  let s := forEach hs (fun (t, c, h, _) s => match h with
    | .retired _ => s
    | h => handleOne t c h s) s
  s.retireTiles (hs.filterMap (fun (t, _, h, a) => match h with
    | .retired c => some (t, c, a)
    | _ => none))

/-- A single-bit Deck error: corrected and counted; the 257th of an interval makes a BIST recheck due (R267). -/
def deckCorrect (t : Nat) (s : State) : State :=
  if s.retired t || !(s.fused t) then s
  else
    let n := tabGet 0 s.deckCe t + 1
    let s := { s with deckCe := tabSet 0 s.deckCe t n }.count 0x00C (some t) (s.tileOwner t) 1
    if 256 < n ∧ !(natBit s.ceDue t) then { s with ceDue := s.ceDue + 2 ^ t } else s

/-- The BIST recheck that is due after corrected errors, at the tile's next span boundary: a pass is logged, a failure retires
the tile as from a fault in the span that follows (R267). -/
def ceRecheck (t : Nat) (bistPass : Bool) (s : State) : State :=
  if !(natBit s.ceDue t) || ((s.tile t).run.isSome && s.fget F.PT_RUN_INDEX t != (s.tile t).spanFrom) then s
  else
    let s := { s with ceDue := s.ceDue - 2 ^ t }
    if bistPass then s.tileRecord t 8 0 1 else s.handleFaults [(t, 7, false)]

/-! The restore of a rollback (R273, R277) -/

/-- One restore range: HBM into a Deck range; a TAGGED range is tagged full (R273). -/
def restoreOne (r : Run) (t : Nat) (x : Restore) (s : State) : Nat × State :=
  let n := x.nslots * 256
  let a := match x.buf with
    | some b => ((r.bufs[b]?).map (fun d => d.addr)).getD 0 + x.addr
    | none => x.addr
  let chk := s.hbmCheck r.part a n
  if chk ≠ 0 then (chk, s)
  else match s.hbmRead r.part 1 (runRt r) a n with
    | (st, bs, s) =>
      if st ≠ 0 then (st, s)
      else
        let slot := s.fget F.DK_RGN_CFG_BASE (rgnIdx t x.region) + x.slot
        let s := (s.deckPut t (slot * 256) bs).charge r.part 2 n
        (0, if s.tagged t x.region then s.setFulls t slot x.nslots true else s)

/-- Restore ranges one after the other; the first status that is not 0 stops them. -/
def restoreAll (r : Run) : List (Nat × Restore) → State → Nat × State
  | [], s => (0, s)
  | (t, x) :: xs, s =>
    match restoreOne r t x s with
    | (0, s) => restoreAll r xs s
    | (st, s) => (st, s)

end State

open State

/-- TILE_FAULT: tile faults of one cycle with their BIST rechecks, in ascending tile order (R267, R268, R286); a corrected Deck
error is counted, and a recheck that such errors have made due is made at a span boundary. -/
def execTileFault (t : Fin 16) (cause : TileCause) (bist : TileBist) (s : State) : Host.Outcome State Fault Refusal :=
  let xs := (t, cause, bist.pass) :: bist.also
  let s := forEach xs (fun (u, c, ok) s => match c with
    | .deckCorrected => State.deckCorrect u.val s
    | .ceThreshold => State.ceRecheck u.val ok s
    | _ => s) s
  .next (s.handleFaults ((List.range 16).filterMap (fun n =>
    (xs.find? (fun x => x.1.val == n && x.2.1 != .deckCorrected && x.2.1 != .ceThreshold)).map (fun x =>
      (n, State.tileCause x.2.1, x.2.2)))))

/-- WATCHDOG_EXPIRY: the span watchdog of a tile that waits on no tag, semaphore or barrier expires and acts as a tile
fault of CAUSE 6 (R170, R267). -/
def execWatchdogExpiry (t : Fin 16) (bistPass : Bool) (s : State) : Host.Outcome State Fault Refusal :=
  .next (if (s.tile t.val).run.isSome && s.fget F.PT_STAT_STATE t.val == 1 && !((s.tile t.val).atBarrier) then
    s.handleFaults [(t.val, 6, bistPass)] else s)

/-- ROLLBACK_RESTORE_END: the restore lists of the last cut have run, and every role resumes at that cut; a poisoned
read ends the run with 0x0500 (R277, R286). -/
def execRollbackRestoreEnd (run : Nat) (s : State) : Host.Outcome State Fault Refusal :=
  .next (match s.runOf run with
    | none => s
    | some r =>
      if !r.restoring || s.resetBusy r.part then s
      else
        let cut := ((s.prog r.prog).map (fun g => g.image.cuts.getD r.cut {})).getD {}
        let here := r.tiles.zipIdx.filter (fun (t, _) => (s.tile t).run == some run)
        let work := (here.map (fun (t, k) => (cut.restore.getD k []).map (fun x => (t, x)))).flatten
        s.gated r.part (.rollbackRestoreEnd run) (match State.restoreAll r work s with
        | (st, s1) =>
          if st = waiting then s
          else if st ≠ 0 then s1.runStop run st
          else s1.modRun run (fun r => { r with restoring := false })))

end Sys2Proof.Machine
end

