-- ==== Sys2Proof/Machine/TimeAlarm.lean ====
section
/-! DEFINITION. The timebase and its servo (R30-R38), Bearing channels (R39-R44), alarm slots (R45-R52), and the encoder,
mains, trigger and CSI-2 events that drive them. -/

namespace Sys2Proof.Machine
namespace State

/-! Alarm slots (R45-R51) -/

/-- The next target after a firing, and the periods passed over when it is still past (R49). -/
def nextTarget (target period now : W32) : W32 × Nat :=
  let t := target + period
  let d := sdiff t now
  if 0 < d then (t, 0)
  else
    let n := (-d).toNat / period.toNat + 1
    (t + BitVec.ofNat 32 (n * period.toNat), n)

/-- The hold of a periodic phase alarm after a firing: the shaft must move on until the next target is less than half a
cycle ahead in the sense of the firing, so that a dither fires once per advance of PERIOD (R49). -/
def holdOf (period : Nat) (back : Bool) : Hold :=
  let dist := if period = 0 then 2 ^ 32 else if back then 2 ^ 32 - period else period
  if dist ≤ 2 ^ 31 then {} else { need := dist - 2 ^ 31, back := back }

/-- The alarm's next target, or the end of a one-shot slot (R49). -/
def alarmNext (s : State) (k : Nat) (catchUp back : Bool) : State :=
  let period : W32 := BitVec.ofNat 32 (s.fget F.BR_AL_PERIOD_PERIOD k)
  let target : W32 := BitVec.ofNat 32 (s.fget F.BR_AL_TARGET_TARGET k)
  if s.fget F.BR_AL_CFG_MODE k = 1 then s.fset F.BR_AL_STAT_ARMED k 0
  else if s.flag F.BR_AL_CFG_DOMAIN k then
    { s.fset F.BR_AL_TARGET_TARGET k (target + period).toNat with holds := tabSet {} s.holds k (holdOf period.toNat back) }
  else if catchUp then
    let (t, n) := nextTarget target period s.now
    (s.fset F.BR_AL_TARGET_TARGET k t.toNat).fadd F.BR_AL_STAT_SKIP k n
  else s.fset F.BR_AL_TARGET_TARGET k (target + period).toNat

/-- A firing of slot `k`, without its action: FIRED, FIRE_CNT, the flags, the windows it starts or stops, its trace record,
and the next target (R47-R49, R53, R311, R321). -/
def alarmFire (past resync back : Bool) (k : Nat) (s : State) : State :=
  let p := s.fget F.BR_AL_CFG_PART k
  let s := ((s.fset F.BR_AL_STAT_FIRED k 1).fadd F.BR_AL_STAT_FIRE_CNT k 1).count 0x130 (some k) (some p) 1
  let s := if past then (s.fset F.BR_AL_STAT_PAST k 1).count 0x131 (some k) (some p) 1 else s
  let s := if resync then (s.fset F.BR_AL_STAT_RESYNC k 1).count 0x132 (some k) (some p) 1 else s
  let s := (s.windowEvent k).traceEv 0x22 0x50 (some p) [(16, k), (16, getBits (s.rget .BR_AL_STAT k) 2 5)]
  s.alarmNext k past back

/-- The action of a firing (R45, R24). -/
def alarmAct (k : Nat) (s : State) : State :=
  let p := s.fget F.BR_AL_CFG_PART k
  let arg := s.fget F.BR_AL_CFG_ARG k
  match s.fget F.BR_AL_CFG_ACTION k with
  | 1 => s.alarmStart k p
  | 2 => s.captureLatch arg
  | 3 => s.releaseGroup arg
  | 4 => s.triggerPulse arg
  | 5 => s.traceAlarm true p arg
  | 6 => s.traceAlarm false p arg
  | 7 => s.releaseQueue arg
  | _ => s

/-- Slots that fire on one tick: all fire, then their actions land in ascending slot number, a trace start before a trace
stop; the transactions that capture latches ask of SSI encoders start after that (R50, R83, R316). -/
def alarmsFire (s : State) (past resync back : Bool) (ks : List Nat) : State :=
  let s := forEach ks (alarmFire past resync back) s
  let starts := ks.filter (fun k => s.fget F.BR_AL_CFG_ACTION k == 5)
  let s := forEach (starts ++ ks.filter (fun k => s.fget F.BR_AL_CFG_ACTION k != 5)) alarmAct s
  if ks.any (fun k => s.fget F.BR_AL_CFG_ACTION k == 2) then s.ssiStarts else s

/-- Whether slot `k` is an armed time alarm whose target is past (R34, R47). -/
def timeDue (s : State) (k : Nat) : Bool :=
  s.flag F.BR_AL_STAT_ARMED k && !(s.flag F.BR_AL_CFG_DOMAIN k) &&
    decide (sdiff (BitVec.ofNat 32 (s.fget F.BR_AL_TARGET_TARGET k)) s.now ≤ 0)

/-- Every time alarm that is due fires on this tick, in ascending slot number (R47, R50). -/
def fireDue (s : State) : State := s.alarmsFire false false false ((List.range 256).filter s.timeDue)

/-- What is due fires before a write or a command acts on slot `k` (R51, R138). -/
def fireFirst (s : State) (k : Nat) : State := if s.timeDue k then s.fireDue else s

/-- Whether slot `k` is armed once what is due has fired: a one-shot slot disarms itself (R49, R51). -/
def staysArmed (s : State) (k : Nat) : Bool := s.flag F.BR_AL_STAT_ARMED k && !(s.timeDue k && s.fget F.BR_AL_CFG_MODE k == 1)

/-- The refusals of an arm: 0, 0x0108 for a field, 0x0400 for a resource of another partition (R46, R101, R316). -/
def alarmRefused (s : State) (cfg : W64) (period : Nat) : Nat :=
  let mode := getBits cfg 30 2
  let phase := getBits cfg 27 1 == 1
  let act := getBits cfg 16 4
  let arg := getBits cfg 0 16
  let p := getBits cfg 20 3
  let quant := s.fget F.BR_CH_QUANT_QUANT (getBits cfg 23 4)
  let lim := if act = 2 then 128 else if act = 3 then 8 else if act = 4 then 4 else if act = 5 ∨ act = 6 ∨ act = 7 then 16 else 65536
  let owner := if act = 2 then s.fget F.ING_D_CFG_PART arg else if act = 3 then s.fget F.ACT_GRP_CFG_PART arg
    else if act = 4 then s.fget F.ACT_TRIG_CFG_PART arg else if act = 7 then s.fget F.ACT_DQ_CFG_PART arg else p
  if mode = 0 ∨ mode = 3 ∨ getBits cfg 28 2 = 3 ∨ 8 ≤ act ∨ lim ≤ arg then 0x0108
  else if mode = 2 ∧ (if phase then decide (period ≠ 0 ∧ period < quant) else decide (period < 256 ∨ 2 ^ 31 ≤ period)) then 0x0108
  else if owner ≠ p then 0x0400
  else 0

/-- Slot `k` armed: a past time target fires in the arming tick with PAST; a phase alarm on an invalid channel sets
MISSED_INVALID (R46-R48). -/
def alarmArmed (s : State) (k : Nat) : State :=
  let s := { s.fset F.BR_AL_STAT_ARMED k 1 with holds := tabSet {} s.holds k {} }
  if s.flag F.BR_AL_CFG_DOMAIN k then
    if s.flag F.BR_CH_STAT_VALID (s.fget F.BR_AL_CFG_CHANNEL k) then s
    else (s.fset F.BR_AL_STAT_MISSED_INVALID k 1).count 0x133 (some k) (some (s.fget F.BR_AL_CFG_PART k)) 1
  else if s.timeDue k then s.alarmsFire true false false [k] else s

/-- A disarm: FIRE_CNT is kept, and a program entry is released (R51, R138). -/
def alarmOff (s : State) (k : Nat) : State :=
  { s.fset F.BR_AL_STAT_ARMED k 0 with entries := tabSet {} s.entries k {}, holds := tabSet {} s.holds k {} }

/-- What the ARM bit of BR_AL_STAT does: after a firing that is due, the slot is armed, or the arm is refused with CFG_ERR
(R46, R51); of a slot that is armed it is ignored (log entry 78). -/
def alarmArmBit (s : State) (k : Nat) : State :=
  let s := s.fireFirst k
  if s.flag F.BR_AL_STAT_ARMED k then s
  else if s.alarmRefused (s.rget .BR_AL_CFG k) (s.fget F.BR_AL_PERIOD_PERIOD k) ≠ 0 then s.fset F.BR_AL_STAT_CFG_ERR k 1
  else s.alarmArmed k

/-- What the DISARM bit of BR_AL_STAT does, after a firing that is due (R51). -/
def alarmDisarmBit (s : State) (k : Nat) : State :=
  let s := s.fireFirst k
  if s.flag F.BR_AL_STAT_ARMED k then s.alarmOff k else s

/-! The timebase (R30-R38) -/

/-- A TIMEBASE record (R262) and a LOCK or STEP trace record (R311). -/
def timeFault (s : State) (cause step : Nat) : State :=
  s.fault { cls := 7, cause := cause, info0 := (BitVec.ofNat 32 (s.fget F.TB_OFFSET_OFFSET 0)).signExtend 64,
            info1 := BitVec.ofNat 32 step }

/-- The LOCK record of the trace (R311). -/
def lockTrace (s : State) : State := s.traceEv 0x29 0xB1 none [(16, getBits (s.rget .TB_STATUS 0) 0 3)]

/-- A step of `delta` signed nanoseconds: STEPPED, the wrap count, and the armed time alarms in the same tick
(R32, R38, R49, R60, R61). -/
def timeStep (s : State) (delta : W32) : State :=
  let sum : Int := s.tb.toNat + delta.toInt * 2 ^ 24
  let w : Byte := if sum < 0 then 0xFF#8 else if 2 ^ 56 ≤ sum then 1#8 else 0#8
  let s := { s with tb := BitVec.ofInt 56 sum, wrap := s.wrap + w }
  let s := (s.fset F.TB_STATUS_STEPPED 0 1).timeFault 3 delta.toNat
  let s := s.traceEv 0x29 0xB0 none [(16, delta.toNat)]
  s.alarmsFire true false false ((List.range 256).filter s.timeDue)

/-- TB_INC clamped to 4.0 ns within 500 ppm (R31). -/
def clampInc (v : W32) : W32 :=
  if v.toNat < 0x03FF7CEE then 0x03FF7CEE#32 else if 0x04008312 < v.toNat then 0x04008312#32 else v

/-- A value of TB_INC taken; a clamped one sets INC_CLAMPED (R31). -/
def setInc (s : State) (v : W32) : State :=
  let s := s.fset F.TB_INC_INC 0 (clampInc v).toNat
  if clampInc v = v then s else s.fset F.TB_STATUS_INC_CLAMPED 0 1

/-- A write of TB_INC: clamped, or discarded and recorded while SERVO is 1 (R31, R36). -/
def incWrite (s : State) (v : W32) : State :=
  if s.flag F.TB_CTRL_SERVO 0 then s.accessFault .pf 2 0x100004 (v.setWidth 64) else s.setInc v

/-- A write of TB_STEP: one step, or discarded and recorded while SERVO is 1 (R36, R38). -/
def stepWrite (s : State) (v : W32) : State :=
  if s.flag F.TB_CTRL_SERVO 0 then s.accessFault .pf 2 0x100010 (v.setWidth 64) else s.timeStep v

/-- Lock lost, with HOLDOVER when Sync was lost (R37, R61). -/
def lockLost (s : State) (sync : Bool) : State :=
  let s := (s.fset F.TB_STATUS_TB_LOCKED 0 0).fset F.TB_STATUS_LOCK_LOST 0 1
  let s := if sync then s.fset F.TB_STATUS_HOLDOVER 0 1 else s
  ({ s with goodSyncs := 0, servoStepped := false }.timeFault (if sync then 2 else 1) 0).lockTrace

/-- The servo's trim or step on an offset, when it owns TB_INC (R36, R37). -/
def servoAct (s : State) (off : W32) : State :=
  if !(s.flag F.TB_CTRL_SERVO 0) then s
  else if !(s.flag F.TB_STATUS_TB_LOCKED 0) && s.flag F.TB_CTRL_STEP_EN 0 && decide (10000 < off.toInt.natAbs) && !s.servoStepped then
    { s with servoStepped := true }.timeStep (0 - off)
  else s.setInc (Config.servoTrim (BitVec.ofNat 32 (s.fget F.TB_INC_INC 0)) off)

/-- An offset measured on a Sync with its Follow_Up: lock, loss of lock, trim and step (R37). Nothing but an offset above 100 ns
or a loss of lock restarts the count of 8: a Sync that does not come counts neither way (log entry 106). -/
def servoSync (s : State) (off : W32) : State :=
  let s := s.fset F.TB_OFFSET_OFFSET 0 off.toNat
  let a := off.toInt.natAbs
  if s.flag F.TB_STATUS_TB_LOCKED 0 then
    if 1000 < a then s.lockLost false else s.servoAct off
  else
    let s := { s with goodSyncs := if a ≤ 100 then s.goodSyncs + 1 else 0 }
    if 8 ≤ s.goodSyncs then
      ({ (s.fset F.TB_STATUS_TB_LOCKED 0 1).fset F.TB_STATUS_HOLDOVER 0 0 with goodSyncs := 0, servoStepped := false }.lockTrace).servoAct off
    else s.servoAct off

/-! Bearing channels (R39-R44) -/

/-- The BEARING record of the trace (R311). -/
def bearingTrace (s : State) (c : Nat) : State := s.traceEv 0x29 0xB2 none [(16, c), (16, getBits (s.rget .BR_CH_STAT c) 0 7)]

/-- The enabled channels of source `src`, instance `i`. -/
def channels (s : State) (src i : Nat) : List Nat :=
  (List.range 16).filter (fun c => s.flag F.BR_CH_CFG_EN c && s.fget F.BR_CH_CFG_SRC c == src && s.fget F.BR_CH_CFG_SRC_IDX c == i)

/-- The armed phase alarms on channel `c`, ascending. -/
def phaseAlarms (s : State) (c : Nat) : List Nat :=
  (List.range 256).filter (fun k => s.flag F.BR_AL_STAT_ARMED k && s.flag F.BR_AL_CFG_DOMAIN k && s.fget F.BR_AL_CFG_CHANNEL k == c)

/-- The test of R48 for a move from `old` to `new`, forward or its mirror. -/
def crosses (target old new : W32) (reverse : Bool) : Bool :=
  if reverse then decide (sdiff target old < 0) && decide (0 ≤ sdiff target new)
  else decide (0 < sdiff target old) && decide (sdiff target new ≤ 0)

/-- Whether slot `k`'s DIR accepts a crossing in this sense (R45). -/
def dirTakes (s : State) (reverse : Bool) (k : Nat) : Bool :=
  s.fget F.BR_AL_CFG_DIR k == 2 || (s.fget F.BR_AL_CFG_DIR k == if reverse then 1 else 0)

/-- Whether slot `k` is held after its last firing (R49). -/
def onHold (s : State) (k : Nat) : Bool := (tabGet {} s.holds k).need != 0

/-- A hold moved by `m` in the forward sense: released after its advance, or half a cycle the other way (R49). -/
def holdMove (m : Int) (k : Nat) (s : State) : State :=
  let h := tabGet {} s.holds k
  if h.need = 0 then s
  else
    let moved := h.moved + (if h.back then -m else m)
    let h' : Hold := if (h.need : Int) ≤ moved ∨ moved ≤ -(2 ^ 31) then {} else { h with moved := moved }
    { s with holds := tabSet {} s.holds k h' }

/-- The signed move of a phase update in the stated sense. -/
def phaseStep (old new : W32) (reverse : Bool) : Int :=
  if reverse then -((old - new).toNat : Int) else ((new - old).toNat : Int)

/-- The alarms that a phase update fires: those crossed in a sense their DIR accepts, held ones excepted; a resync jump
fires forward, whatever DIR, and reports RESYNC (R43, R48, R49). -/
def phaseFire (s : State) (c : Nat) (old new : W32) (reverse resync : Bool) : State :=
  let ks := s.phaseAlarms c
  let hit := ks.filter (fun k => !(s.onHold k) &&
    crosses (BitVec.ofNat 32 (s.fget F.BR_AL_TARGET_TARGET k)) old new reverse && (resync || s.dirTakes reverse k))
  let s := forEach ks (holdMove (phaseStep old new reverse)) s
  if resync && reverse then s else s.alarmsFire false resync reverse hit

/-- A phase update of channel `c` to the source phase `src`: the first one makes the channel valid and is no crossing
(R39, R41, R42, R48). -/
def phaseUpdate (s : State) (c : Nat) (src : W32) (reverse resync : Bool) : State :=
  let old : W32 := BitVec.ofNat 32 (s.fget F.BR_CH_PHASE_PHASE c)
  let new : W32 := src + BitVec.ofNat 32 (s.fget F.BR_CH_OFFSET_OFFSET c)
  let valid := s.flag F.BR_CH_STAT_VALID c
  let s := s.setBearing c { s.bearing c with src := src, missed := 0, seen := true }
  let s := (s.fset F.BR_CH_PHASE_PHASE c new.toNat).fset F.BR_CH_STAMP_NS c s.now.toNat
  let s := s.fset F.BR_CH_STAT_REVERSE_NOW c (if valid && reverse then 1 else 0)
  if valid then
    let s := if resync then (s.fset F.BR_CH_STAT_RESYNC c 1).bearingTrace c else s
    s.phaseFire c old new reverse resync
  else
    let s := s.fset F.BR_CH_STAT_VALID c 1
    let s := if s.fget F.BR_CH_CFG_SRC c = 3 then s else s.fset F.BR_CH_STAT_PLL_LOCKED c 1
    (forEach (s.phaseAlarms c) (fun k s => { s with holds := tabSet {} s.holds k {} }) s).bearingTrace c

/-- A phase that an index event defines directly: a correction of more than one quantum is a resync (R40, R43). -/
def phaseForce (s : State) (c : Nat) (src : W32) : State :=
  let d := sdiff src (s.bearing c).src
  s.phaseUpdate c src (decide (d < 0)) (decide (s.fget F.BR_CH_QUANT_QUANT c < d.natAbs))

/-- floor(count × 2^32 / CYCLE) (R39). -/
def countPhase (s : State) (c n : Nat) : W32 := BitVec.ofNat 32 (n * 2 ^ 32 / s.fget F.BR_CH_CFG_CYCLE c)

/-- A channel falls invalid: its armed phase alarms set MISSED_INVALID; a phase window closes INCOMPLETE at its next event
(R48, R59; `windowOne`). -/
def channelInvalid (s : State) (c : Nat) : State :=
  if !(s.flag F.BR_CH_STAT_VALID c) then s
  else
    let s := (s.fset F.BR_CH_STAT_VALID c 0).fset F.BR_CH_STAT_PLL_LOCKED c 0
    forEach (s.phaseAlarms c) (fun k s =>
      (s.fset F.BR_AL_STAT_MISSED_INVALID k 1).count 0x133 (some k) (some (s.fget F.BR_AL_CFG_PART k)) 1) s

/-- The source of channel `c` is lost, by condition `cause` of R44: the windows that use it close (R44, R60, R262). -/
def sourceLost (cause c : Nat) (s : State) : State :=
  let s := ((s.channelInvalid c).windowsLost c).fset F.BR_CH_STAT_SRC_LOST c 1
  let s := s.setBearing c { s.bearing c with missed := 0 }
  let s := s.fault { cls := 8, unit := c, cause := cause, info0 := BitVec.ofNat 64 (s.fget F.BR_CH_PHASE_PHASE c) }
  s.bearingTrace c

/-- The quantum of a channel's configuration (R39). -/
def quantOf (src cycle : Nat) : Nat :=
  if src = 1 ∨ src = 4 then ceilDiv (2 ^ 32) cycle else if src = 2 then 2 ^ (32 - natBits cycle 0 6) else 0

/-- Whether a configuration is rejected (R41; the ranges of R39). An instance that the source does not have is none of R41's
reasons: the channel just never becomes valid (log entry 77). -/
def channelBad (src cycle : Nat) : Bool :=
  decide (4 < src) || ((src == 1 || src == 4) && cycle == 0) ||
    (src == 2 && (natBits cycle 0 6 == 0 || decide (32 < natBits cycle 0 6))) || (src == 3 && natBits cycle 0 2 == 3)

/-- A write of BR_CH_CFG: the channel is invalid, and stays disabled with CFG_ERR when its configuration is rejected
(R41, R42). -/
def channelCfg (s : State) (c : Nat) (v : W32) : State :=
  let w : W64 := v.setWidth 64
  let src := getBits w 28 3
  let cycle := getBits w 0 23
  let s := (s.channelInvalid c).setBearing c {}
  let s := (s.rset .BR_CH_CFG c w).fset F.BR_CH_QUANT_QUANT c 0
  if channelBad src cycle then (s.fset F.BR_CH_CFG_EN c 0).fset F.BR_CH_STAT_CFG_ERR c 1
  else if !(v.getLsbD 31) then s
  else s.fset F.BR_CH_QUANT_QUANT c (quantOf src cycle)

/-- A Gray code of `n` bits as binary (R63, R70). -/
def grayDecode (g : Nat) : Nat → Nat
  | 0 => 0
  | n + 1 => ((popCount (g / 2 ^ n) 32) % 2) * 2 ^ n + grayDecode g n

/-- Whether the port of encoder `e` receives in ABZ mode (R63). -/
def abzMode (s : State) (e : Nat) : Bool := s.rxOn (0x10 + e) && !(natBit (s.fget F.ING_PORT_CFG_PARAM (0x10 + e)) 0)

/-- Whether encoder `e` delivers edges: its port receives in ABZ mode and no line break is indicated (R44, R63). -/
def abzOn (s : State) (e : Nat) : Bool := s.abzMode e && !(s.port (0x10 + e)).broken

/-- One edge on a channel: OVERSPEED, the count modulo CYCLE, and a phase update when valid (R40, R41). -/
def channelEdge (forward fast counted : Bool) (c : Nat) (s : State) : State :=
  let s := if fast then s.fset F.BR_CH_STAT_OVERSPEED c 1 else s
  if !counted then s
  else
    let n := s.fget F.BR_CH_CFG_CYCLE c
    let up := forward != s.flag F.BR_CH_CFG_REV c
    let b := s.bearing c
    let k := if up then (b.count + 1) % n else (b.count + n - 1) % n
    let s := s.setBearing c { b with count := k, src := s.countPhase c k }
    if s.flag F.BR_CH_STAT_VALID c then s.phaseUpdate c (s.countPhase c k) (!up) false else s

/-- One line on a channel that counts lines (R40). -/
def channelLine (line c : Nat) (s : State) : State :=
  let k := line % s.fget F.BR_CH_CFG_CYCLE c
  if s.flag F.BR_CH_STAT_VALID c then s.phaseUpdate c (s.countPhase c k) false false else s

/-- One SSI frame on a channel: its phase, or a missed response; the third in a row loses the source (R40, R44). -/
def channelSsi (pos : Option Nat) (c : Nat) (s : State) : State :=
  match pos with
  | some v =>
    let x : W32 := BitVec.ofNat 32 (v * 2 ^ (32 - natBits (s.fget F.BR_CH_CFG_CYCLE c) 0 6))
    s.phaseForce c x
  | none =>
    let b := s.bearing c
    if b.missed = 2 then s.sourceLost 2 c else s.setBearing c { b with missed := b.missed + 1 }

/-- The PLL frequency in mHz of a per-tick increment (R70): 250 MHz × inc / 2^32. -/
def pllMhz (inc : W32) : Nat := inc.toNat * 250000000000 / 2 ^ 32

/-- One accepted zero-crossing on a mains channel: a frequency outside 45-65 Hz loses the source; otherwise the PLL
is trimmed, and the first crossing is phase 0 (R39, R44). -/
def channelMains (period : W32) (c : Nat) (s : State) : State :=
  let b := s.bearing c
  let out := decide (period.toNat < 15384616) || decide (22222222 < period.toNat)
  if b.seen && out then (if s.flag F.BR_CH_STAT_VALID c then s.sourceLost 3 c else s)
  else
    let bw := natBits (s.fget F.BR_CH_CFG_CYCLE c) 0 2
    let inc := Config.pllNext bw b.inc b.src period
    let lock := Config.pllLocked bw b.inc b.src period
    let s := s.setBearing c { b with inc := inc, seen := true }
    let s := s.fset F.BR_CH_QUANT_QUANT c inc.toNat
    let s := if s.flag F.BR_CH_STAT_VALID c then s else s.phaseUpdate c 0 false false
    s.fset F.BR_CH_STAT_PLL_LOCKED c (if lock then 1 else 0)

/-- The PLL frequency an input's samples carry: its lowest-numbered channel's, else one that nothing states (R70). -/
def mainsFreq (s : State) (m : Nat) : W32 × State :=
  match s.channels 3 m with
  | c :: _ => (BitVec.ofNat 32 (pllMhz (s.bearing c).inc), s)
  | [] => let (x, s) := s.draw; (x.setWidth 32, s)

end State

open State

/-- TB_NOW_READ: the requester's latches take the whole nanoseconds, the wrap count and the fraction (R32). -/
def execTbNowRead (req : Fin 5) (s : State) : Host.Outcome State Fault Refusal :=
  .next (
    let s := s.fset F.TB_NOW_NS req.val s.now.toNat
    (s.fset F.TB_SNAP_WRAP req.val s.wrap.toNat).fset F.TB_SNAP_FRAC req.val (s.tb.toNat % 2 ^ 24))

/-- TB_INC_WRITE: clamped, or discarded and recorded while SERVO is 1 (R31, R36). -/
def execTbIncWrite (v : W32) (s : State) : Host.Outcome State Fault Refusal :=
  .next (s.bar (s.incWrite v))

/-- TB_STEP_WRITE: one step, or discarded and recorded while SERVO is 1 (R36, R38). -/
def execTbStepWrite (v : W32) (s : State) : Host.Outcome State Fault Refusal :=
  .next (s.bar (s.stepWrite v))

/-- PTP_SYNC: consumed by a started servo on its port when two-step, without effect while a bank switch window suspends the
servo; otherwise unmatched (R37, R66, R331, R396). -/
def execPtpSync (port : Fin 4) (twoStep : Bool) (offset : W32) (s : State) : Host.Outcome State Fault Refusal :=
  .next (
    if !(s.rxOn (8 + port.val)) then s
    else if s.power.servo && twoStep && s.fget F.TB_CTRL_PTP_PORT 0 == port.val then
      (if s.evStopped then s else s.servoSync offset)
    else s.unmatched (8 + port.val))

/-- SYNC_TIMEOUT: no Sync for 3 s while locked (R37, R61). -/
def execSyncTimeout (s : State) : Host.Outcome State Fault Refusal :=
  .next (if s.flag F.TB_STATUS_TB_LOCKED 0 then s.lockLost true else s)

/-- BR_CH_CFG_WRITE (R41, R42). -/
def execBrChCfgWrite (ch : Fin 16) (v : W32) (s : State) : Host.Outcome State Fault Refusal :=
  .next (s.bar (s.channelCfg ch.val v))

/-- QUADRATURE_EDGE: the port's own signed count, and every channel on the encoder (R40, R70). -/
def execQuadratureEdge (enc : Fin 16) (forward fast : Bool) (s : State) : Host.Outcome State Fault Refusal :=
  .next (
    if !(s.abzOn enc.val) then s
    else
      let src := 0x10 + enc.val
      let counted := !fast || Config.edgeCounted s.draws
      let s := { s with draws := s.draws + if fast then 1 else 0 }
      let p := s.port src
      let p := if counted then { p with count := if forward then p.count + 1 else p.count - 1 } else p
      let s := s.setPort src { p with fast := p.fast || fast }
      forEach (s.channels 1 enc.val) (channelEdge forward fast counted) s)

/-- A Z pulse on a channel: its count and its phase are forced to 0 (R40, R43). -/
def State.channelIndex (c : Nat) (s : State) : State :=
  let s := s.phaseForce c 0
  s.setBearing c { s.bearing c with count := 0 }

/-- Z_PULSE: every channel's count is forced to 0, and the pulse is the natural ABZ sample; with a line break indicated the
sample still lands, with its status bit set (R39, R40, R43, R72, R88). -/
def execZPulse (enc : Fin 16) (s : State) : Host.Outcome State Fault Refusal :=
  .next (
    if !(s.abzMode enc.val) then s
    else
      let src := 0x10 + enc.val
      let s := s.setPort src { s.port src with zCount := (s.port src).zCount + 1 }
      let s := if (s.port src).broken then s else forEach (s.channels 1 enc.val) channelIndex s
      s.naturalSample src)

/-- SSI_FRAME: a transaction ends with its position, or with no valid response; the next waiting one starts
(R40, R44, R70, R83, R88). -/
def execSsiFrame (enc : Fin 16) (resp : Option W32) (parityErr : Bool) (s : State) : Host.Outcome State Fault Refusal :=
  .next (
    let src := 0x10 + enc.val
    let par := s.fget F.ING_PORT_CFG_PARAM src
    let n := natBits par 7 5 + 1
    if !(s.rxOn src) || !(s.port src).busy || !(natBit par 0) then s
    else
      let raw := (resp.getD 0).toNat % 2 ^ n
      let pos := if resp = none then 0 else if natBit par 12 then grayDecode raw n else raw
      let bad := natBit par 13 && parityErr
      let ok := resp.isSome && !bad
      let s := s.fset F.ING_PORT_STAT_LINK src (if ok then 1 else 0)
      let s := if ok then s else s.portError src
      let s := forEach (s.channels 2 enc.val) (channelSsi (if ok then some pos else none)) s
      let s := s.serialEnd src (leBytes 4 pos ++ leBytes 4 ((if bad then 1 else 0) + if resp = none then 2 else 0))
      s.serialStart src)

/-- SSI_POLL: the 100 µs poll starts a frame for the sampling descriptors and the Bearing channels (R72, R88). -/
def execSsiPoll (enc : Fin 16) (s : State) : Host.Outcome State Fault Refusal :=
  .next (
    let src := 0x10 + enc.val
    if !(s.rxOn src) || !(natBit (s.fget F.ING_PORT_CFG_PARAM src) 0) ||
        (s.naturals src).isEmpty && (s.channels 2 enc.val).isEmpty || (s.port src).waiting.any (·.poll) then s
    else (s.pollAsk src).serialStart src)

/-- ZERO_CROSSING: an accepted mains zero-crossing drives the PLLs and is the natural mains sample (R39, R70, R72). -/
def execZeroCrossing (m : Fin 3) (periodNs : W32) (s : State) : Host.Outcome State Fault Refusal :=
  .next (
    let src := 0x28 + m.val
    if !(s.rxOn src) then s
    else
      let s := forEach (s.channels 3 m.val) (channelMains periodNs) s
      let (f, s) := s.mainsFreq m.val
      let s := (s.setPort src { s.port src with period := periodNs, freq := f }).fset F.ING_PORT_STAT_LINK src 1
      s.naturalSample src)

/-- MAINS_PLL_TICK: the accumulator of each valid mains channel of the input advances by its increment (R39, R48). -/
def execMainsPllTick (m : Fin 3) (s : State) : Host.Outcome State Fault Refusal :=
  .next (forEach ((s.channels 3 m.val).filter (fun c => s.flag F.BR_CH_STAT_VALID c))
    (fun c s => s.phaseUpdate c ((s.bearing c).src + (s.bearing c).inc) false false) s)

/-- LINE_BREAK: an ABZ line-break indication (R44, R60, R88). -/
def execLineBreak (enc : Fin 16) (s : State) : Host.Outcome State Fault Refusal :=
  .next (
    let src := 0x10 + enc.val
    if !(s.abzOn enc.val) then s
    else
      let s := ((s.setPort src { s.port src with broken := true }).fset F.ING_PORT_STAT_LINK src 0).portError src
      forEach (s.channels 1 enc.val) (sourceLost 1) s)

/-- MAINS_TIMEOUT: no zero-crossing for three periods (R44, R60). -/
def execMainsTimeout (m : Fin 3) (s : State) : Host.Outcome State Fault Refusal :=
  .next (
    let s := s.fset F.ING_PORT_STAT_LINK (0x28 + m.val) 0
    forEach (s.channels 3 m.val) (fun c s =>
      let s := s.sourceLost 3 c
      s.setBearing c { s.bearing c with seen := false }) s)

/-- FRAME_START_TIMEOUT: no CSI-2 frame start for twice the last frame time (R44, R60). -/
def execFrameStartTimeout (port : Fin 8) (s : State) : Host.Outcome State Fault Refusal :=
  .next (forEach (s.channels 4 port.val) (sourceLost 4) s)

/-- TIME_ALARM_FIRE: an armed time alarm whose target is no longer in the future, and with it every other that is due on this
tick, in ascending slot number (R47, R50). -/
def execTimeAlarmFire (k : Fin 256) (s : State) : Host.Outcome State Fault Refusal :=
  .next (s.fireFirst k.val)

/-- AL_ARM: a write of ARM to BR_AL_STAT; a slot with ACTION 0x1 is armed only by a Trehar command (R46, R339). -/
def execAlArm (k : Fin 256) (s : State) : Host.Outcome State Fault Refusal :=
  .next (s.bar (
    if s.fget F.BR_AL_CFG_ACTION k.val = 1 ∨ s.tdiLocked (s.fget F.BR_AL_CFG_PART k.val) then
      s.accessFault .pf 2 (regOffset .BR_AL_STAT k.val) 0x80000000#64
    else s.alarmArmBit k.val))

/-- AL_DISARM: a write of DISARM to BR_AL_STAT (R51, R339). -/
def execAlDisarm (k : Fin 256) (s : State) : Host.Outcome State Fault Refusal :=
  .next (s.bar (
    if s.tdiLocked (s.fget F.BR_AL_CFG_PART k.val) then s.accessFault .pf 2 (regOffset .BR_AL_STAT k.val) 0x40000000#64
    else s.alarmDisarmBit k.val))

/-- TRIGGER_EDGE: a debounced edge starts or stops windows and the trace, and is sampled when EDGE takes it
(R53, R63, R70, R72, R315). -/
def execTriggerEdge (n : Fin 8) (rising : Bool) (s : State) : Host.Outcome State Fault Refusal :=
  .next (
    let src := 0x30 + n.val
    if !(s.rxOn src) then s
    else
      let s := s.setPort src { s.port src with level := rising }
      let s := s.windowEvent ((if rising then 0x100 else 0x108) + n.val)
      let s := if rising then s.traceInput n.val else s
      if natBit (s.fget F.ING_PORT_CFG_PARAM src) (if rising then 0 else 1) then s.naturalSample src else s)

/-- FRAME_START: the line counters' channels are forced to line 0, and a unit begins (R40, R43, R73, R76). -/
def execFrameStart (port : Fin 8) (vc : Fin 16) (s : State) : Host.Outcome State Fault Refusal :=
  .next (
    if !(s.rxOn port.val && s.vcOk port.val vc.val) then s
    else (forEach (s.channels 4 port.val) (fun c s => s.phaseForce c 0) s).csiFrameStart port.val vc.val)

/-- LINE_PACKET: a lost header, a line beyond the limits, or one that is counted and lands (R40, R65, R84; log entry 49). -/
def execLinePacket (port : Fin 8) (vc : Fin 16) (dt : BitVec 6) (data : List Byte) (eccLost crcOk : Bool) (s : State) :
    Host.Outcome State Fault Refusal :=
  .next (
    if !(s.rxOn port.val) then s
    else if eccLost || dtOk dt.toNat && s.vcOk port.val vc.val &&
        (decide (16384 < data.length) || decide (8388607 ≤ (s.port port.val).line)) then s.portError port.val
    else
      let s := if dtOk dt.toNat && s.vcOk port.val vc.val then
          let l := (s.port port.val).line + 1
          forEach (s.channels 4 port.val) (channelLine l) (s.setPort port.val { s.port port.val with line := l })
        else s
      s.csiLine port.val vc.val dt.toNat data crcOk)

/-- The check of ALARM_ARM: R46's format refusals, the partition of the image, of ARG's resource and of the slot, the program
start that ACTION 0x1 carries, and the state (R46, R126, R136, R160). -/
def State.alarmArmCheck (s : State) (c : Cmd) : Nat :=
  match c.par with
  | .alarmArm k cfg _ period _ run =>
    let w : W64 := cfg.setWidth 64
    let start := getBits w 16 4 == 1
    let bad := s.alarmRefused w period.toNat
    let pin := match s.prog run.prog with
      | some g => (bitList run.tiles 16).all (pinned g)
      | none => false
    firstBad [if bad = 0x0108 then bad else 0,
      if getBits w 20 3 ≠ c.part ∨ bad ≠ 0 ∨ s.fget F.BR_AL_CFG_PART k ≠ c.part then 0x0400 else 0,
      if start then s.runCheck c.part run else 0, if start && !pin then 0x0108 else 0, if s.staysArmed k then 0x0602 else 0]
  | _ => 0

/-- A command arm refused under R46 sets CFG_ERR of a slot of its own partition (R46; log entry 78). -/
def State.alarmMark (s : State) (c : Cmd) : State :=
  match c.par with
  | .alarmArm k cfg _ period _ _ =>
    if s.alarmRefused (cfg.setWidth 64) period.toNat ≠ 0 ∧ s.fget F.BR_AL_CFG_PART k = c.part then s.fset F.BR_AL_STAT_CFG_ERR k 1
    else s
  | _ => s

/-- The work of ALARM_ARM: after a firing that is due, the slot is configured and armed; RESULT is the slot, which is also the
entry number of a program start (R51, R131, R136). -/
def State.alarmArmGo (c : Cmd) (s : State) : State :=
  match c.par with
  | .alarmArm k cfg target period rel run =>
    let s := (s.fireFirst k).rset .BR_AL_CFG k (cfg.setWidth 64)
    let s := if getBits (cfg.setWidth 64) 16 4 = 1 then { s.fset F.BR_AL_CFG_ARG k k with entries := tabSet {} s.entries k run } else s
    let s := s.fset F.BR_AL_TARGET_TARGET k (if rel then target + s.now else target).toNat
    ((s.fset F.BR_AL_PERIOD_PERIOD k period.toNat).alarmArmed k).finish c.ring c.tag 0 k
  | _ => s

/-- ALARM_ARM: slot SLOT is configured and armed in one step, or the arm is refused (R46, R136, R160). -/
def execAlarmArm (r : Fin 128) (tag : Fin 512) (s : State) : Host.Outcome State Fault Refusal :=
  .next (s.withCmd r.val tag.val (fun | .alarmArm .. => true | _ => false) (fun s c =>
    let st := s.alarmArmCheck c
    (if s.fenceMet c && st != 0 then s.alarmMark c else s).enter c st (State.alarmArmGo c)))

/-- The check of ALARM_DISARM: the partition (R138). -/
def State.alarmDisarmCheck (s : State) (c : Cmd) : Nat :=
  match c.par with
  | .alarmDisarm k => if s.fget F.BR_AL_CFG_PART k ≠ c.part then 0x0400 else 0
  | _ => 0

/-- ALARM_DISARM: a slot of the command's partition is disarmed, after a firing that is due; RESULT is its FIRE_CNT (R51,
R138). -/
def execAlarmDisarm (r : Fin 128) (tag : Fin 512) (s : State) : Host.Outcome State Fault Refusal :=
  .next (s.begin r.val tag.val (fun | .alarmDisarm .. => true | _ => false) State.alarmDisarmCheck
    (fun c s => match c.par with
      | .alarmDisarm k =>
        let s := (s.fireFirst k).alarmOff k
        s.finish c.ring c.tag 0 (s.fget F.BR_AL_STAT_FIRE_CNT k)
      | _ => s)
    (fun _ s => s))

end Sys2Proof.Machine
end

