-- ==== Sys2Proof/Machine/Partition.lean ====
section
/-! DEFINITION. Partitions: Deck regions and semaphore configuration (R174, R175, R179), TG_COMMIT (R244-R251), the partition
reset (R257), the tenant switch and its scrub (R340-R346), and the function-level reset (R153). -/

namespace Sys2Proof.Machine
namespace State

/-! Deck regions and semaphores -/

/-- The outputs that can have a staging run. -/
def stageOuts : List StageOut :=
  (List.finRange 8).map .group ++ (List.finRange 16).map .queue ++ (List.finRange 64).map .tag

/-- Whether a descriptor with DEST 1 is ARMED or RUNNING in region `g` of tile `t` (R175, R247). -/
def descIn (s : State) (t : Nat) (g : Option Nat) : Bool :=
  (List.range 128).any (fun n => s.fget F.ING_D_CTRL_STATE n != 0 && s.flag F.ING_D_CFG_DEST n &&
    natBits (s.fget F.ING_D_DATA_LOC n) 16 4 == t && (g == none || g == some (natBits (s.fget F.ING_D_DATA_LOC n) 20 4)))

/-- Whether an enabled staging run lies in region `g` of tile `t` (R175, R247). -/
def stageIn (s : State) (t : Nat) (g : Option Nat) : Bool :=
  stageOuts.any (fun o => match s.stageRun o with
    | some (_, u, q, _, _) => u == t && (g == none || g == some q)
    | none => false)

/-- Whether a program pinned on tile `t` declares region `g` (R175). -/
def pinnedUses (s : State) (t g : Nat) : Bool :=
  s.progs.any (fun p => pinned p t && p.image.roles.any (fun r => r.layout.any (fun d => d.region == g)))

/-- Whether two slot ranges overlap. -/
def slotsMeet (a n b m : Nat) : Bool := decide (a < b + m) && decide (b < a + n)

/-- Whether a write of region `g` is refused (R175). -/
def rgnRefused (s : State) (t g : Nat) (w : W64) : Bool :=
  let base := getBits w 15 15
  let n := getBits w 0 15 + 1
  s.fget F.PT_STAT_STATE t != 0 || s.pinnedUses t g || s.descIn t (some g) || s.stageIn t (some g) ||
    decide (32768 < base + n) ||
    (getBits w 31 1 == 1 && (List.range 16).any (fun q => q != g && s.flag F.DK_RGN_CFG_EN (rgnIdx t q) &&
      slotsMeet base n (s.fget F.DK_RGN_CFG_BASE (rgnIdx t q)) (s.fget F.DK_RGN_CFG_COUNT_M1 (rgnIdx t q) + 1)))

/-- The tags of an enabled region's extent set to empty; a disabled region has no extent (R175; log entry 55). -/
def rgnEmpty (s : State) (t g : Nat) : State := if s.flag F.DK_RGN_CFG_EN (rgnIdx t g) then s.emptyRegion t g else s

/-- A write of DK_RGN_CFG: ignored on a fused-off tile, refused and recorded, or the region changed with its old and new extents
empty (R13, R175). -/
def rgnWrite (s : State) (t g : Nat) (w : W64) : State :=
  if !(s.fused t) then s
  else if s.rgnRefused t g w then s.accessFault .pf 3 (regOffset .DK_RGN_CFG (rgnIdx t g)) w
  else ((s.rgnEmpty t g).rset .DK_RGN_CFG (rgnIdx t g) (w &&& 0xFFFFFFFF#64)).rgnEmpty t g

/-- A write of SEM_CFG by the physical function: discarded while requesters wait or the lock is held, or under TDISP;
otherwise COUNT is loaded (R179, R339). -/
def semWrite (s : State) (n : Nat) (w : W64) : State :=
  let off := regOffset .SEM_CFG n
  if s.tdiLocked (s.fget F.SEM_CFG_PART n) then s.accessFault .pf 2 off w
  else if (s.semWaiters n).length ≠ 0 ∨ s.flag F.SEM_STAT_HELD n then s.accessFault .pf 3 off w
  else
    let s := ((s.fset F.SEM_CFG_EN n (getBits w 31 1)).fset F.SEM_CFG_PART n (getBits w 28 3)).fset F.SEM_CFG_LOCK n (getBits w 27 1)
    let s := s.fset F.SEM_CFG_INIT n (getBits w 0 16)
    s.fset F.SEM_STAT_COUNT n (if getBits w 27 1 = 1 then 1 else getBits w 0 16)

/-! TG_COMMIT (R244-R251) -/

/-- The configuration of partition `p` that a commit results in. -/
def newCfg (s : State) (cfgs : List PartCfg) (p : Nat) : PartCfg :=
  (cfgs.find? (fun c => c.part == p)).getD
    { part := p, tiles := s.fget F.TG_PART_TILES p, rank := s.fget F.TG_PART_RANK p
      cfg := (List.range 5).map (fun r => s.rget .TG_CFG (tgIdx p r))
      runs := (List.range 4).map (fun k => (s.fget F.TG_FRAMES_FIRST (4 * p + k), s.fget F.TG_FRAMES_COUNT (4 * p + k))) }

/-- The partition that a commit leaves as owner of tile `t`. -/
def newOwner (s : State) (cfgs : List PartCfg) (t : Nat) : Option Nat :=
  (List.range 8).find? (fun p => natBit (s.newCfg cfgs p).tiles t)

/-- Whether a frame lies in a list of runs. -/
def inRuns (runs : List (Nat × Nat)) (f : Nat) : Bool := runs.any (fun (a, n) => decide (a ≤ f) && decide (f < a + n))

/-- The frames a partition of the commit loses (R246). -/
def lostFrames (s : State) (c : PartCfg) : List Nat := (List.range 32768).filter (fun f => s.granted c.part f && !(inRuns c.runs f))

/-- Whether no frame lies in two runs (R245). -/
def runsApart (rs : List (Nat × Nat)) : Bool :=
  decide ((rs.filter (fun x => x.2 != 0)).Pairwise (fun a b => a.1 + a.2 ≤ b.1 ∨ b.1 + b.2 ≤ a.1))

/-- Whether a tile may not change owner now (R247); a retired tile, which its owner must omit, has no state left (R272; log
entry 56). -/
def tileHeld (s : State) (t : Nat) : Bool :=
  !(s.retired t) && (s.fget F.PT_STAT_STATE t != 0 || s.progs.any (fun p => pinned p t) || s.descIn t none || s.stageIn t none)

/-- Whether an ARMED or RUNNING descriptor of `p` has a ring in one of the frames (R247). -/
def ringIn (s : State) (p : Nat) (fs : List Nat) : Bool :=
  (List.range 128).any (fun n => s.fget F.ING_D_CTRL_STATE n != 0 && s.fget F.ING_D_CFG_PART n == p &&
    ((!(s.flag F.ING_D_CFG_DEST n) && (framesOf (s.fget F.ING_D_DATA_LOC n % 2 ^ 36) (s.fget F.ING_D_DATA_SIZE n * 256)).any fs.contains) ||
      (framesOf (s.fget F.ING_D_REC_ADDR n % 2 ^ 36) (32 * 2 ^ s.fget F.ING_D_REC_LOG2_RECS n)).any fs.contains))

/-- Whether a partition that would lose frames is busy (R247; retired tiles as in `tileHeld`). -/
def loserBusy (s : State) (c : Cmd) (x : PartCfg) : Bool :=
  let fs := s.lostFrames x
  !fs.isEmpty && (s.cmds.any (fun d => d.part == x.part && d != c) ||
    (List.range 16).any (fun t => s.owns x.part t && !(s.retired t) && s.fget F.PT_STAT_STATE t != 0) ||
    (List.range 4).any (fun k => s.fget F.CS_CTX_STATE k != 0 && s.fget F.CS_CTX_PART k == x.part) || s.ringIn x.part fs)

/-- The checks of TG_COMMIT before admission, in the order of R126 (R247, R339). -/
def commitCheck (s : State) (c : Cmd) : Nat :=
  match c.par with
  | .tgCommit _ _ cfgs =>
    let mask := cfgs.map (·.part)
    let named := (cfgs.map (fun x => bitList x.tiles 16)).flatten
    let foreign := fun t => match s.tileOwner t with
      | some q => !(mask.contains q)
      | none => false
    let changing := (List.range 16).filter (fun t => s.tileOwner t != s.newOwner cfgs t)
    if !named.Nodup || named.any foreign || !(runsApart (((List.range 8).map (fun p => (s.newCfg cfgs p).runs)).flatten)) then 0x0108
    else if cfgs.any (fun x => s.tdiLocked x.part && x.tiles != s.fget F.TG_PART_TILES x.part) then 0x0401
    else if named.any (fun t => !(s.fused t) || s.retired t) then 0x0300
    else if changing.any s.tileHeld || mask.any s.resetBusy || s.commit.isSome || cfgs.any (s.loserBusy c) then 0x0602
    else 0
  | _ => 0

/-- RES of partition `p`, resource `r` after a commit. -/
def newRes (s : State) (cfgs : List PartCfg) (p r : Nat) : Nat := getBits ((s.newCfg cfgs p).cfg.getD r 0) 0 16

/-- D of DECK for partition `p` with the tiles a commit gives it (R239, R250). -/
def newDeckD (s : State) (cfgs : List PartCfg) (p : Nat) : Nat :=
  deliver (64 * ((bitList (s.newCfg cfgs p).tiles 16).filter (fun t => s.fused t && !(s.retired t))).length) s.derate 1 1

/-- Whether resource `r` is admitted (R251). -/
def admitted (s : State) (cfgs : List PartCfg) (r : Nat) : Bool :=
  let ps := List.range 8
  let new := (ps.map (fun p => s.newRes cfgs p r)).sum
  let old := (ps.map (fun p => s.fget F.TG_CFG_RES (tgIdx p r))).sum
  decide (new ≤ old) ||
    (if r = 2 then ps.all (fun p => decide (s.newRes cfgs p 2 ≤ s.newDeckD cfgs p)) else decide (new ≤ s.capacity r))

/-- Admission: a rejection, a dry run's answer, or the commit that waits for its scrub (R246, R247, R251). -/
def commitBegin (c : Cmd) (s : State) : State :=
  match c.par with
  | .tgCommit dry pool cfgs =>
    match (List.range 5).find? (fun r => !(s.admitted cfgs r)) with
    | some r =>
      let s := if dry then s else (s.fset F.TG_STATUS_REJ 0 1).fset F.TG_STATUS_REJ_RES 0 r
      s.finish c.ring c.tag 0x0303 0
    | none =>
      if dry then s.finish c.ring c.tag 0 0
      else { s with commit := some { ring := c.ring, tag := c.tag, pool := pool, cfgs := cfgs } }
  | _ => s

/-! The scrub sequencer (R246, R248, R343, R344) -/

/-- Frames of partition `p` written with zeros, charged to it, their poison cleared; those of retired pseudo-channels are
skipped. The answer is how many were written and skipped (R283, R334, R344). -/
def scrubFrames (s : State) (p : Nat) (fs : List Nat) : Nat × Nat × State :=
  let live := fs.filter s.frameIn
  let s := { s with hbm := s.hbm.filter (fun e => !(live.contains (e.1 / 0x200000)))
                    poisoned := s.poisoned.filter (fun f => !(live.contains f)) }
  let s := forEach live (fun f s => s.countBlocks 0x080 p (f * 0x200000) 0x200000) s
  let s := (s.charge p 0 (live.length * 0x200000)).count 0x173 (some p) (some p) (live.length * 8192)
  (live.length, fs.length - live.length, s)

/-- A kernel on a tile that is cleared stops, and the command that started it ends with 0x0601. -/
def stayClear (t c : Nat) (s : State) : State :=
  let own := (s.stay t c).owner
  let s := (s.stayStop t c).setStay t c {}
  match own with
  | some (.cmd r g) => s.finish r g 0x0601 0
  | _ => s

/-- A tile's Deck, tags, scale register file and Stay registers cleared, its regions at reset (R185, R248, R343). -/
def tileClear (t : Nat) (s : State) : State :=
  let s := forEach (List.range 2) (stayClear t) s
  let s := { s with deck := memClear s.deck (t * 0x800000) 0x800000, full := tabClear s.full (slotKey t 0) 32768
                    scales := tabClear s.scales (4096 * t) 4096, fedOut := tabClear s.fedOut (rgnIdx t 0) 16 }
  forEach (List.range 16) (fun g s => s.rreset .DK_RGN_CFG (rgnIdx t g)) s

/-- One partition's committed configuration, with both buckets full (R241, R243, R248). -/
def cfgApply (c : PartCfg) (s : State) : State :=
  let p := c.part
  let s := (s.fset F.TG_PART_TILES p c.tiles).fset F.TG_PART_RANK p c.rank
  let s := forEach c.cfg.zipIdx (fun (v, r) s =>
    let s := s.rset .TG_CFG (tgIdx p r) v
    { s with resUsed := tabSet 0 s.resUsed (tgIdx p r) 0, ceilUsed := tabSet 0 s.ceilUsed (tgIdx p r) 0 }) s
  forEach c.runs.zipIdx (fun ((a, n), k) s => (s.fset F.TG_FRAMES_FIRST (4 * p + k) a).fset F.TG_FRAMES_COUNT (4 * p + k) n) s

/-- The single step of a commit after its scrub (R246, R248, R252). -/
def commitStep (s : State) (c : Commit) : State :=
  let tiles := (List.range 16).filter (fun t => s.tileOwner t != s.newOwner c.cfgs t && !(s.retired t))
  let lost := c.cfgs.map (fun x => (x.part, s.lostFrames x))
  let s := forEach lost (fun (p, fs) s => if fs.isEmpty then s else (s.scrubFrames p fs).2.2) s
  let s := forEach tiles tileClear s
  let s := forEach c.cfgs cfgApply s
  let s := ({ s with commit := none }.fset F.TG_STATUS_POOL_PART 0 c.pool).recompute
  s.finish c.ring c.tag 0 0

/-! Ending the work of commands (R152, R153, R257) -/

/-- The buffers a command writes, beside those of a run and of a Caisson operation (R154). -/
def outBufs : TCmd → List BufDesc
  | .dmaCopy _ b => [b]
  | .ksHash 2 _ _ d => [d]
  | .dgRead _ _ d => [d]
  | .trcCfg p => if p.op = 1 then [p.buf] else []
  | _ => []

/-- What the commands that meet `f` (ring and TAG) have going stops: waits, runs, kernels, Caisson operations, hash updates,
retiring handles and commits; what they have not reported as done is undefined, and a reset or switch goes on without its command
(R148, R154, R351; log entry 82). -/
def stopCmds (s : State) (f : Nat → Nat → Bool) : State :=
  let s := s.dropWaiters (fun w => match w with
    | .cmd r t => f r t
    | _ => false)
  let ids := (s.runs.filter (fun r => (r.cmd.map (fun (q, t) => f q t)).getD false)).map (·.id)
  let s := forEach ids (fun id s => s.runStop id 0x0601) s
  let s := forEach (List.range 16) (fun t s => forEach (List.range 2) (fun c s =>
    match (s.stay t c).owner with
    | some (.cmd r g) => if f r g then s.stayStop t c else s
    | _ => s) s) s
  let s := forEach (s.cmds.filter (fun c => f c.ring c.tag && c.checked)) (fun c s => forEach (outBufs c.par) (undefBuf c.part) s) s
  let s := s.jobsDrop f
  let s := forEach (List.range 8) (fun k s => match s.hashCtx k with
    | some x => match x.busy with
      | some (r, t) => if f r t then s.setHashCtx k (some { x with busy := none }) else s
      | none => s
    | none => s) s
  let s := { s with commit := s.commit.filter (fun x => !(f x.ring x.tag)) }
  forEach (s.cmds.filter (fun c => f c.ring c.tag && c.started && c.done == none)) (fun c s => match c.par with
    | .mrDeregister h => s.setMr c.part h {}
    | _ => s) s

/-- The resets and switches whose command meets `f` go on without it (R148, R351). -/
def scrubsOrphan (s : State) (f : Nat → Nat → Bool) : State :=
  forEach (List.range 8) (fun p s => match tabGet none s.scrubs p with
    | some x => if x.cmd.any (fun q => f q.1 q.2) then { s with scrubs := tabSet none s.scrubs p (some { x with cmd := none }) } else s
    | none => s) s

/-! The partition reset (R98, R152, R257) -/

/-- A PWM output of the partition under R98: SAFE duty where the POLICY says so. -/
def pwmReset (o : Nat) (s : State) : State :=
  if s.fget F.ACT_PWM_CFG_POLICY o = 1 then s.pwmSet o (s.fget F.ACT_PWM_SAFE_SAFE o) false else s

/-- Staged values discarded, pulses ended and queues emptied (R98). -/
def outputsReset (s : State) (p : Nat) : State :=
  let s := forEach ((List.range 8).filter (fun g => s.fget F.ACT_GRP_CFG_PART g == p)) (fun g s =>
    let s := (s.setGroup g { s.group g with staged := none }).fset F.ACT_GRP_STAT_FRESH g 0
    forEach (s.groupOuts g) pwmReset s) s
  let s := forEach ((List.range 4).filter (fun t => s.fget F.ACT_TRIG_CFG_PART t == p)) (fun t s => s.triggerEnd t) s
  let qs := (List.range 16).filter (fun q => s.fget F.ACT_DQ_CFG_PART q == p)
  let s := forEach qs (fun q s => (s.setQueue q { s.queue q with staged := none }).fset F.ACT_DQ_STAT_FRESH q 0) s
  let s := forEach (List.range 4) (fun n s => s.setTxFrames n ((s.txFrames n).filter (fun x => !(qs.contains x.queue)))) s
  forEach ((List.range 64).filter (fun k => s.fget F.ACT_ADV_WL0_PART k == p)) (fun k s =>
    (s.setAdvTag k { s.advTag k with staged := none }).fset F.ACT_ADV_TSTAT_FRESH k 0) s

/-- Steps 1 and 2 of R257: fetching stops, every tile stops, waits end, alarms are disarmed, descriptors go QUIET, outputs act
and windows close; every in-flight command of `p` ends (R52, R59, R75, R98, R152). -/
def quiesce (s : State) (p : Nat) : State :=
  let s := (s.fset F.TRH_PART_STAT_RESET_BUSY p 1).fset F.KS_PART_ATT_STATE p 2
  let s := (s.stopCmds (fun r _ => r / 16 == p)).scrubsOrphan (fun r _ => r / 16 == p)
  let s := forEach ((s.runs.filter (fun r => r.part == p)).map (·.id)) (fun id s => s.runStop id 0x0601) s
  let s := forEach ((List.range 16).filter (s.owns p)) (fun t s => forEach (List.range 2) (fun c s => s.stayStop t c) s) s
  let s := { s with cmds := s.cmds.map (fun (c : Cmd) => if c.part == p then { c with done := some (0x0601, 0) } else c) }
  let s := forEach ((List.range 256).filter (fun k => s.flag F.BR_AL_STAT_ARMED k && s.fget F.BR_AL_CFG_PART k == p)) (fun k s => s.alarmOff k) s
  let s := forEach ((List.range 32).filter (fun w => s.fget F.BR_WIN_OWN_PART w == p)) (fun w s => s.windowClose w) s
  let s := forEach ((List.range 128).filter (fun n => s.fget F.ING_D_CFG_PART n == p)) (fun n s => s.descQuiet n) s
  s.outputsReset p

/-- Steps 3 and 4 of R257: its transfers wait at no Tollgate any more, the partition's locks are released ABANDONED, its Deck tags cleared, its completions posted in
submission order, and its rings halted (R152, R183, R185). -/
def drain (s : State) (p : Nat) : State :=
  let s := s.dropHeld p
  let s := forEach (s.heldLocks.filter (fun n => s.fget F.SEM_CFG_PART n == p)) (fun n s => s.lockAbandon n) s
  let s := forEach ((List.range 16).filter (s.owns p)) (fun t s => { s with full := tabClear s.full (slotKey t 0) 32768 }) s
  let s := forEach (s.cmds.filter (fun c => c.part == p)) (fun c s => s.post c) s
  forEach ((List.range 16).map (fun i => 16 * p + i)) (fun r s => s.halt r 0x0601) s

/-- The check of PART_RESET (R257, R339). -/
def partResetCheck (s : State) (c : Cmd) : Nat :=
  match c.par with
  | .partReset p => if s.tdiLocked p then 0x0401 else if s.resetBusy p then 0x0602 else 0
  | _ => 0

/-- A reset or switch in progress. -/
def scrub (s : State) (p : Nat) : Option Scrub := tabGet none s.scrubs p

/-- The end of a reset or switch: RESET_BUSY clears and its command, if it still has one, ends. -/
def resetEnd (s : State) (p st result : Nat) (x : Scrub) : State :=
  let s := { s with scrubs := tabSet none s.scrubs p none }
  let s := (s.fset F.KS_PART_ATT_STATE p st).fset F.TRH_PART_STAT_RESET_BUSY p 0
  match x.cmd with
  | some (r, t) => s.finish r t 0 result
  | none => s

/-! The tenant switch (R340-R346) -/

/-- The outcome of the checks of a policy's 256 bytes (R340, R341; log entry 17). -/
def policyCheck (s : State) (b : List Byte) : Nat :=
  let fl := leField b 4 4
  if leField b 0 4 ≠ 1 ∨ 16 ≤ fl ∨ !(allZero b 12 4) ∨ !(allZero b 0xE0 32) ∨ 63 < leField b 8 4 then 0x0108
  else if !(Config.verify ((b.drop 0x20).take 96) (b.take 128) ((b.drop 0x80).take 96)) then 0x0402
  else if s.fget F.KS_STAT_RUN_SVN 0 < leField b 8 4 ∨ (natBit fl 0 ∧ s.flag F.KS_STAT_DEBUG_OPEN 0) then 0x0401
  else 0

/-- An accepted switch: steps 1 and 2 of R342. -/
def switchBegin (s : State) (c : Cmd) (p : Nat) (pol : Option (List Byte)) : State :=
  let was := s.fget F.KS_PART_ATT_STATE p
  let s := { s with scrubs := tabSet none s.scrubs p (some { cmd := some (c.ring, c.tag), tenant := true, policy := pol, was := was }) }
  let s := (s.tdiEnter p 1).quiesce p
  let s := forEach (List.range 8) (fun k s => match s.hashCtx k with
    | some x => if x.part = p then s.setHashCtx k none else s
    | none => s) s
  let s := forEach (List.range 4) (fun k s =>
    if s.fget F.CS_CTX_STATE k ≠ 0 ∧ s.fget F.CS_CTX_PART k = p then s.ctxFree k else s) s
  forEach ((List.range 4).filter (fun c => s.fget F.EXC_CH_CFG_PART c == p && s.fget F.EXC_CH_STAT_STATE c != 4)) (fun c s =>
    s.excGateOff c 0) s

/-- A TENANT_SWITCH of partition `p`. -/
def switches (p : Nat) : TCmd → Bool
  | .tenantSwitch q _ => q == p
  | _ => false

/-- The check of TENANT_SWITCH at fetch: its policy's bounds (R341). -/
def tenantSwitchCheck (s : State) (c : Cmd) : Nat :=
  match c.par with
  | .tenantSwitch _ (some d) => s.bufsOk c [(d, some false)]
  | _ => 0

/-- The 256 bytes of a policy, read through a handle or a grant of the command's partition and charged to `p`, which is switched
(R21, R341). -/
def policyRead (s : State) (c : Cmd) (p : Nat) (d : BufDesc) : Nat × List Byte × State :=
  if d.kind = 0 then (0, memRead s.host ((s.mr c.part d.mr).base + d.addr) 256, s.charge p 3 256)
  else s.hbmRead p 2 (ringTag c.ring c.tag) d.addr 256

/-- TENANT_SWITCH: the policy read and checked, and the switch begun or refused (R341, R354). -/
def switchTry (c : Cmd) (s : State) : State :=
  match c.par with
  | .tenantSwitch p pol =>
    if s.switching || (s.scrub p).any (fun x => x.cmd == some (c.ring, c.tag)) then s
    else
      let (st, bs, s1) := match pol with
        | none => (0, none, s)
        | some d => match s.policyRead c p d with
          | (st, bs, s1) => (st, some bs, s1)
      if st = waiting then s
      else if st ≠ 0 then s1.finish c.ring c.tag st 0
      else
        let e := match bs with
          | some b => s1.policyCheck b
          | none => 0
        if e ≠ 0 then s1.finish c.ring c.tag e 0
        else if s1.resetBusy p then s1.finish c.ring c.tag 0x0602 0
        else s1.switchBegin c p bs
  | _ => s

/-- The registers of a partition's rings at their reset values (R152). -/
def ringsReset (keepOwner : Bool) (r : Nat) (s : State) : State :=
  let own := s.fget F.TRH_RING_CFG_OWNER r
  let s := (((s.rreset .TRH_RING_CFG r).rreset .TRH_SQ_BASE r).rreset .TRH_CQ_BASE r).rreset .TRH_RING_PTR r
  let s := (s.rreset .TRH_RING_STAT r).rreset .TRH_RING_IRQ r
  let s := { s with phases := if natBit s.phases r then s.phases - 2 ^ r else s.phases, unsig := tabSet 0 s.unsig r 0 }
  if keepOwner then s.fset F.TRH_RING_CFG_OWNER r own else s

/-- Outputs, queues and trigger outputs of a partition at reset (R98, R142). -/
def outputsClear (s : State) (p : Nat) : State :=
  let s := forEach ((List.range 8).filter (fun g => s.fget F.ACT_GRP_CFG_PART g == p)) (fun g s =>
    let s := forEach ((List.range 32).filter (fun o => s.fget F.ACT_PWM_CFG_GROUP o == g)) (fun o s =>
      ((((s.rreset .ACT_PWM_CFG o).rreset .ACT_PWM_PERIOD o).rreset .ACT_PWM_SAFE o).rreset .ACT_PWM_STAT o).setPwm o {}) s
    ((s.rreset .ACT_GRP_CFG g).rreset .ACT_GRP_STAT g).setGroup g {}) s
  let s := forEach ((List.range 4).filter (fun t => s.fget F.ACT_TRIG_CFG_PART t == p)) (fun t s => s.rreset .ACT_TRIG_CFG t) s
  forEach ((List.range 16).filter (fun q => s.fget F.ACT_DQ_CFG_PART q == p)) (fun q s =>
    ((((s.rreset .ACT_DQ_CFG q).rreset .ACT_DQ_SRC q).rreset .ACT_DQ_STAT q).rreset .ACT_DQ_TXTS q).setQueue q {}) s

/-- A descriptor's registers at reset (R75). -/
def descReset (n : Nat) (s : State) : State :=
  let s := (((s.rreset .ING_D_CFG n).rreset .ING_D_SEL n).rreset .ING_D_DATA n).rreset .ING_D_REC n
  let s := (((s.rreset .ING_D_CTRL n).rreset .ING_D_PTR n).rreset .ING_D_RPTR n).rreset .ING_D_CNT0 n
  (s.rreset .ING_D_CNT1 n).setDesc n {}

/-- An excitation channel's registers at reset; RETIRED survives (R94). -/
def excReset (c : Nat) (s : State) : State :=
  let ret := s.fget F.EXC_CH_STAT_STATE c == 4
  let s := (((s.rreset .EXC_CH_CFG c).rreset .EXC_CH_LIM c).rreset .EXC_CH_STAT c).rreset .EXC_CH_MEAS c
  if ret then s.fset F.EXC_CH_STAT_STATE c 4 else s

/-- A semaphore at reset (R179). -/
def semReset (n : Nat) (s : State) : State :=
  (((s.rreset .SEM_CFG n).rreset .SEM_STAT n).rreset .SEM_OWNER n).setSemWaiters n []

/-- The scrub of everything but HBM, and the registers that the rules named in R343 return to reset. -/
def scrubUnits (s : State) (p : Nat) : State :=
  let ts := (List.range 16).filter (s.owns p)
  let s := { s with progs := s.progs.filter (fun g => g.part != p) }
  let s := forEach ts (fun t s => ((tileClear t s).rreset .PT_NUM t).setTile t {}) s
  let s := s.vaultClear (s.fget F.CS_PART_VAULT_BASE p * 0x100000) (s.fget F.CS_PART_VAULT_SIZE p * 0x100000)
  let s := forEach ((List.range 8192).filter (fun n => s.fget F.SEM_CFG_PART n == p)) semReset s
  let s := forEach ((List.range 16).map (fun i => 16 * p + i)) (ringsReset false) s
  let s := forEach ((List.range 128).filter (fun n => s.fget F.ING_D_CFG_PART n == p)) descReset s
  let s := s.outputsClear p
  let s := forEach ((List.range 4).filter (fun c => s.fget F.EXC_CH_CFG_PART c == p)) excReset s
  let s := forEach ((List.range 64).filter (fun i => s.fget F.CW_GRANT_PART i == p)) (fun i s => s.fset F.CW_GRANT_EN i 0) s
  ({ s with digests := tabClear s.digests (digestKey p 0) 4096 }.fset F.DG_PART_NEXT p 0).traceTenant p

/-- Step 7 of R342: the measurement, the flags of the new policy, and SCRUB_DONE. -/
def switchEnd (s : State) (p us : Nat) (x : Scrub) : State :=
  match (s.scrubUnits p).scrubFrames p ((List.range 32768).filter (s.granted p)) with
  | (done, skipped, s) =>
    let b := x.policy.getD []
    let fl := leField b 4 4
    let s := { s with scrubInfo := tabSet (0, 0) s.scrubInfo p (done, skipped)
                      policies := tabSet {} s.policies p { minSvn := leField b 8 4, head := b.take 128 } }
    let s := (s.fadd F.KS_PART_ATT_SCRUB_GEN p 1).fset F.KS_PART_ATT_SCRUB_US p us
    let s := (s.fset F.KS_PART_ATT_CONFIDENTIAL p (natBits fl 0 1)).fset F.KS_PART_ATT_CONSENT p (natBits fl 1 1)
    let s := (s.fset F.KS_PART_ATT_SELF_TRACE p (natBits fl 2 1)).fset F.KS_PART_ATT_LIVE_UPDATE_OK p (natBits fl 3 1)
    (s.resetEnd p 1 us x).event 0x0110 p (s.fget F.KS_PART_ATT_SCRUB_GEN p) us done

/-- A function-level reset of the virtual function of `p`: its commands end without a completion, its rings return to reset
with OWNER kept, its locks are released ABANDONED, its STREAM trace writes no more, and its interface enters ERROR (R153, R183, R339; log entry
101). -/
def flr (s : State) (p : Nat) : State :=
  let mine := fun r => r / 16 == p && s.flag F.TRH_RING_CFG_OWNER r
  let s := (s.stopCmds (fun r _ => mine r)).scrubsOrphan (fun r _ => mine r)
  let s := { s with cmds := s.cmds.filter (fun c => !(mine c.ring)) }
  let s := if s.flag F.TRC_STAT_MODE 0 ∧ s.fget F.TRC_STAT_OWNER 0 = p + 1 then s.streamStop p s.trace.stream.mr else s
  let s := forEach ((List.range 128).filter mine) (ringsReset true) s
  (s.abandonWhere (fun _ kind id => kind == 4 && id == p + 1)).tdiError p 2

end State

open State

/-- DK_RGN_CFG_WRITE: a write of a Deck region (R175). -/
def execDkRgnCfgWrite (t : Fin 16) (g : Fin 16) (v : W32) (s : State) : Host.Outcome State Fault Refusal :=
  .next (s.bar (s.rgnWrite t.val g.val (v.setWidth 64)))

/-- SEM_CFG_WRITE: a write of SEM_CFG; a virtual function has no such register (R118, R179). -/
def execSemCfgWrite (fn : Fn) (sem : Fin 8192) (v : W32) (s : State) : Host.Outcome State Fault Refusal :=
  .next (match fn with
    | .pf => s.bar (s.semWrite sem.val (v.setWidth 64))
    | .vf _ => s)

/-- TG_COMMIT: a configuration checked, admitted and begun (R244-R251). -/
def execTgCommit (r : Fin 128) (tag : Fin 512) (s : State) : Host.Outcome State Fault Refusal :=
  .next (s.begin r.val tag.val (fun | .tgCommit .. => true | _ => false) commitCheck commitBegin (fun _ s => s))

/-- COMMIT_SCRUB_END: the scrub of moved frames and tiles ends, and the commit takes effect as one step (R246, R248). -/
def execCommitScrubEnd (s : State) : Host.Outcome State Fault Refusal :=
  .next (match s.commit with
    | some c => s.gatedAll (List.range 8) .commitScrubEnd (s.commitStep c)
    | none => s)

/-- PART_RESET: a partition quiesced (R257). -/
def execPartReset (r : Fin 128) (tag : Fin 512) (s : State) : Host.Outcome State Fault Refusal :=
  .next (s.begin r.val tag.val (fun | .partReset _ => true | _ => false) partResetCheck
    (fun c s => match c.par with
      | .partReset p =>
        let x : Scrub := { cmd := some (c.ring, c.tag), was := s.fget F.KS_PART_ATT_STATE p }
        { s with scrubs := tabSet none s.scrubs p (some x) }.quiesce p
      | _ => s)
    (fun _ s => s))

/-- PART_RESET_DRAINED: the partition's transfers have drained; a PART_RESET ends, a tenant switch goes on to its scrub
(R257, R342). -/
def execPartResetDrained (p : Fin 8) (s : State) : Host.Outcome State Fault Refusal :=
  .next (match s.scrub p.val with
    | some x =>
      if x.drained then s
      else
        let t := s.drain p.val
        s.gated p.val (.partResetDrained p)
          (if x.tenant then { t with scrubs := tabSet none t.scrubs p.val (some { x with drained := true }) }
          else t.resetEnd p.val x.was 0 x)
    | none => s)

/-- TENANT_SWITCH: a partition handed to a new tenant (R341, R342). -/
def execTenantSwitch (r : Fin 128) (tag : Fin 512) (s : State) : Host.Outcome State Fault Refusal :=
  .next (s.gatedAll ((List.range 8).filter (fun p => (s.findCmd r.val tag.val).any (fun c => switches p c.par))) (.tenantSwitch r tag)
    (s.begin r.val tag.val (fun | .tenantSwitch .. => true | _ => false) tenantSwitchCheck switchTry switchTry))

/-- SCRUB_END: the scrub of a tenant switch ends `us` microseconds after its start (R342, R343). -/
def execScrubEnd (p : Fin 8) (us : W32) (s : State) : Host.Outcome State Fault Refusal :=
  .next (match s.scrub p.val with
    | some x => if x.tenant ∧ x.drained then s.gated p.val (.scrubEnd p us) (s.switchEnd p.val us.toNat x) else s
    | none => s)

/-- FUNCTION_LEVEL_RESET: of the virtual function of a partition (R153). -/
def execFunctionLevelReset (p : Fin 8) (s : State) : Host.Outcome State Fault Refusal := .next (s.flr p.val)

end Sys2Proof.Machine
end

