-- ==== Sys2Proof/Machine/Fetch.lean ====
section
/-! DEFINITION. Fetching: the packet at the head of a ring taken with the checks of R126 (R120-R127). -/

namespace Sys2Proof.Machine
namespace State

/-- Steps 8 to 10 of R126 that need the state, by the rule of each opcode; 0 when they pass. -/
def checkOf (s : State) (c : Cmd) : Nat :=
  match c.par with
  | .nop => 0
  | .mrRegister .. => s.registerCheck c
  | .mrDeregister _ => s.deregisterCheck c
  | .dmaCopy .. => s.copyCheck c
  | .progLoad .. => s.loadCheck c
  | .progRun _ => s.progRunCheck c
  | .progUnload _ => s.unloadCheck c
  | .stayCall .. => s.callCheck c
  | .semOp .. => s.semCheck c
  | .alarmArm .. => s.alarmArmCheck c
  | .alarmDisarm _ => s.alarmDisarmCheck c
  | .descArm .. => s.descArmCheck c
  | .descDisarm _ => s.descDisarmCheck c
  | .qciLoad .. => s.qciCheck c
  | .excCmd .. => s.excCheck c
  | .dqSafeLoad .. => s.dqSafeCheck c
  | .tgCommit .. => s.commitCheck c
  | .partReset _ => s.partResetCheck c
  | .tenantSwitch .. => s.tenantSwitchCheck c
  | .csCtxOpen .. => s.csCtxOpenCheck c
  | .csOp _ => s.csCheck c
  | .csCtxClose _ => s.csCtxCloseCheck c
  | .ksHash .. => s.hashCheck c
  | .dgRead .. => s.dgCheck c
  | .trcCfg _ => s.trcCheck c

/-- What a fetched packet does at once: a command that passed its checks, or the CFG_ERR of an arm that was refused (R46, R74,
R133). -/
def afterCheck (s : State) (c : Cmd) (status : Nat) : State :=
  if status = 0 then s.passed c else (s.alarmMark c).descMark c

/-- A packet of LEN `len` with the checks of steps 3 to 10 (R126). -/
def fetchPacket (s : State) (r : Nat) (b : List Byte) (len : Nat) : State :=
  let p := parsePacket b (leField b 0 1) len (r / 16)
  let c : Cmd := { ring := r, tag := natBits (leField b 2 2) 0 9, part := r / 16, opc := leField b 0 1, par := p.cmd }
  let st := s.packetStatus r b len p
  if st ≠ 0 then s.takePacket r b len st p
  else
    let st := s.checkOf c
    (s.takePacket r b len st p).afterCheck c st

/-- The fetch from ring `r`: a halt, FORMAT_LENGTH_ZERO, or the packet with its checks (R122, R126). -/
def fetchRing (s : State) (r : Nat) : State :=
  let len := s.headLen r
  let b := s.packet r (s.fget F.TRH_RING_PTR_SQ_HEAD r) (max len 1)
  if 2 ^ s.fget F.TRH_RING_CFG_SQ_LOG2 r - 1 < len then s.halt r 0x0103
  else (if len = 0 then s.takePacket r b 1 0x0101 {} else s.fetchPacket r b len).fetchTurn r

end State

/-- FETCH: a packet taken from the ring whose turn it is (R121-R127, R238). -/
def execFetch (r : Fin 128) (s : State) : Host.Outcome State Fault Refusal :=
  .next (if s.nextFetch = some r.val then s.gated (r.val / 16) (.fetch r) (s.fetchRing r.val) else s)

end Sys2Proof.Machine
end

