-- ==== Sys2Proof/Machine/Girder.lean ====
section
/-! DEFINITION. Matrix products and window operators: MATMUL, WINDOW, DEPTHWISE and POOL (R157, R189-R199, R219-R229,
R371). -/

namespace Sys2Proof.Machine

/-! One product (R219, R227, R228) -/

/-- A term of a product: an activation code, a weight code, the side-list entry of an escape (R225), and whether the padding
that gave the activation turned a NaN to 0 (R192, R234). -/
structure Term where
  a : Nat
  w : Nat
  esc : Option W32 := none
  nan : Bool := false

/-- The width of an integer accumulator: I64 or Q32.32 on the iterative path, else I32 (R157). -/
def accWidth (fa fw : Nat) : Nat := if fa = 7 ∨ fa = 0xC ∨ fw = 7 ∨ fw = 0xC then 64 else 32

/-- The fraction bits of a product of two integer codes (R157, R213). -/
def accFrac (fa fw : Nat) : Int := (if fa = 0xC then 16 else 0) + (if fw = 0xC then 16 else 0)

/-- ACC′ of an integer product in its accumulator; an escape counts as code ZP (R225, R227). -/
def accInt (fa fw : Nat) (za zw : Int) (cs : Option Int) (ts : List Term) : Int :=
  let w := fun (t : Term) => if t.esc.isSome then zw else intOf fw t.w
  let cs := cs.getD ((ts.map w).sum)
  let acc := (ts.map (fun t => intOf fa t.a * w t)).sum - za * cs - zw * (ts.map (fun t => intOf fa t.a)).sum +
    ts.length * za * zw
  toSigned (accWidth fa fw) (ofSigned (accWidth fa fw) acc)

/-- What of a plain matrix product sets the order of its F32 sum: its sources, scales, zero points and output format, so that a
1 × 1 WINDOW gives the same bits with padding and without (R195, R219; log entry 10). -/
def plainKey (i : W128) : W128 :=
  BitVec.ofNat 128 (insF i 24 16 + insF i 48 16 * 2 ^ 16 + iImm i * 2 ^ 32)

/-- T of a product before its scale: the F32 sum of a floating product in the order `i` sets, or F32(ACC′) and the escape terms
in storage order (R219, R228). -/
def productT (i : W128) (fa fw : Nat) (za zw : Int) (cs : Option Int) (ts : List Term) : W32 :=
  if isFloat fa then f32Sum i 0 (ts.map (fun t => f32Mul (elemF32 fa t.a) (elemF32 fw t.w)))
  else
    let t0 := toF32 (numOfInt (accInt fa fw za zw cs ts) (-(accFrac fa fw)))
    ts.foldl (fun acc t => match t.esc with
      | some v => f32Add acc (f32Mul v (toF32 (numOfInt (intOf fa t.a - za) 0)))
      | none => acc) t0

/-- The output of a channel from T: scaled, biased and converted, saturating (R218, R228). -/
def productOut (e : W128) (fo : Nat) (zo : Int) (t : W32) : Nat × Bool :=
  convert fo .rne true zo (f32Val (f32Add (f32Mul t (entScale e)) (entBias e)))

/-! Zero points (R227) -/

/-- An 8-bit zero point field read in a format. -/
def zpField (f v : Nat) : Int := if f = 0xA then (v : Int) else toSigned 8 v

/-- Whether a zero point may stand beside a format: in its code range, 0 beside a format that has none. -/
def zpOk (f : Nat) (z : Int) : Bool := if isInt f then decide ((intRange f).1 ≤ z) && decide (z ≤ (intRange f).2) else z == 0

/-- Whether a weight zero point may stand: 0 for I16 and for formats that are no integers. -/
def zwOk (f : Nat) (z : Int) : Bool := if f = 8 then z == 0 else zpOk f z

/-- za and zo of an instruction (R227). -/
def insZa (i : W128) (fa : Nat) : Int := zpField fa (natBits (iImm i) 0 8)
def insZo (i : W128) : Int := zpField (iFmtOut i) (natBits (iImm i) 8 8)

namespace State

/-! Weight blocks (R224-R226) -/

/-- The weights of an instruction in storage order, their escapes, the stored column sums, and the header's counts. -/
structure Weights where
  codes : List Nat := []
  side : List (Option W32) := []
  sums : Option (List Int) := none
  escapes : Nat := 0
  nside : Nat := 0
  bad : Bool := false

/-- The ordinal of each escape in storage order (R225). -/
def escOrd (mark : Nat) : Nat → List Nat → List (Option Nat)
  | _, [] => []
  | n, c :: cs => if c = mark then some n :: escOrd mark (n + 1) cs else none :: escOrd mark n cs

/-- The weights of an operand that is not a weight block. -/
def plainWeights (s : State) (v : View) : Weights :=
  { codes := s.elems v, side := List.replicate v.count none }

/-- A weight block read, for `ch` output channels (R224, R225). -/
def weightBlock (s : State) (o : Opd) (v : View) (ch : Nat) : Weights :=
  let h := s.deckGet v.tile v.base 256
  let esc := leField h 0 1 == 1
  let nside := leField h 4 4
  let cs := leField h 8 4 * 256
  let sd := leField h 12 4 * 256
  let ok := decide (leField h 0 1 ≤ 1) && allZero h 1 3 && allZero h 16 240 && (!esc || o.fmt == 9 || o.fmt == 0xB) &&
    decide (nside ≤ 1048576) && decide (cs + 4 * ch ≤ o.nslots * 256) && decide (sd + 4 * nside ≤ o.nslots * 256)
  let codes := s.elems { v with base := v.base + 256 }
  let word := fun a k => leNat (s.deckGet v.tile (v.base + a + 4 * k) 4)
  let ords := if esc then escOrd (2 ^ (v.bits - 1)) 0 codes else codes.map (fun _ => none)
  { codes := codes
    side := ords.map (fun n => n.map (fun k => BitVec.ofNat 32 (word sd k)))
    sums := some ((List.range ch).map (fun f => toSigned 32 (word cs f)))
    escapes := (ords.filter (·.isSome)).length, nside := nside, bad := !ok }

/-- The weights of SRC1, a weight block for an integer format where R224 says so. -/
def weights (s : State) (x : Issue) (block : Bool) (ch : Nat) : Weights :=
  let o := x.opd (iSrc1 x.i)
  let v := x.view s (iSrc1 x.i)
  if block && isInt o.fmt then s.weightBlock o v ch else s.plainWeights v

/-- An escape without an entry: DST holds undefined values, a DATA record is posted, and the run ends with 0x0503
(R226, R235). -/
def escapeUnderrun (s : State) (x : Issue) (n : Nat) : Did :=
  let s := s.writeUndef (x.view s (outIdx x.i))
  .stop (s.fault { cls := 0x0A, action := 3, part := x.r.part, unit := x.t, cause := 1, info0 := s.rget .PT_RUN x.t
                   info1 := BitVec.ofNat 32 n, ringTag := runRt x.r }) 0x0503

/-- Whether the scale entries that `ch` channels read exist and carry weight zero points that may stand (R223, R227). -/
def entriesOk (s : State) (x : Issue) (ch fw : Nat) : Bool :=
  decide (iScale x.i + ch ≤ 4096) &&
    (List.range ch).all (fun f => zwOk fw (entZp (s.scaleEntry x.t (iScale x.i + f))))

/-- The outputs of a product instruction in DST order: `terms n` gives the channel and the terms of output `n`, `key` the order
of their sum. The phase of R196 says what is read, added and written. -/
def products (s : State) (x : Issue) (w : Weights) (phase : Nat) (key : W128) (terms : Nat → Nat × List Term) : Did :=
  let fa := (x.opd (iSrc0 x.i)).fmt
  let fw := (x.opd (iSrc1 x.i)).fmt
  let old := x.view s (iDst x.i)
  let out := x.view s (outIdx x.i)
  let one := fun n =>
    let (f, ts) := terms n
    let e := s.scaleEntry x.t (iScale x.i + f)
    let t := productT key fa fw (insZa x.i fa) (entZp e) (w.sums.map (fun l => l.getD f 0)) ts
    let prev := BitVec.ofNat 32 (s.elem old (out.index n))
    let (c, nan) := match phase with
      | 0 => productOut e (iFmtOut x.i) (insZo x.i) t
      | 1 => (t.toNat, false)
      | 2 => ((f32Add prev t).toNat, false)
      | _ => productOut e (iFmtOut x.i) (insZo x.i) (f32Add prev t)
    (c, nan || ts.any (·.nan))
  let s1 := if w.escapes < w.nside then s.warnSurplus x else s
  s1.writeOut x out ((List.range out.count).map one)

/-! MATMUL -/

/-- The scales and zero points of a product instruction may stand; FIRST and ACCUM phases of floating products read no
entry (R196, R223, R227). -/
def productOk (s : State) (x : Issue) (ch phase : Nat) : Bool :=
  let fa := (x.opd (iSrc0 x.i)).fmt
  let fw := (x.opd (iSrc1 x.i)).fmt
  zpOk fa (insZa x.i fa) && zpOk (iFmtOut x.i) (insZo x.i) &&
    ((isFloat fw && (phase == 1 || phase == 2)) || s.entriesOk x ch fw)

/-- A ring product modulo 2^64, no scale, bias or zero point (R371). -/
def ringMatmul (s : State) (x : Issue) : Did :=
  let a := x.view s (iSrc0 x.i)
  let w := x.view s (iSrc1 x.i)
  let d := x.view s (iDst x.i)
  s.writeOut x d ((List.range d.count).map (fun n =>
    let (f, r) := d.index n
    let b := (f % w.dim 1, f / w.dim 1 % w.dim 2, f / w.dim 1 / w.dim 2)
    (((List.range (a.dim 0)).map (fun k => s.elem a (k, r) * s.elem w (k, b))).sum % 2 ^ 64, false)))

/-- MATMUL: DST = SRC0 × SRC1; SRC0 has K along DIM0 and a row for each of DIM1-DIM3, SRC1 K along DIM0 and an output
channel for each of DIM1-DIM3 (R164, R224, R227, R228; log entry 43). -/
def doMatmul (x : Issue) (s : State) : Did :=
  if x.ring then s.ringMatmul x
  else
    let a := x.view s (iSrc0 x.i)
    let d := x.view s (iDst x.i)
    let ch := d.dim 0
    let w := s.weights x (natBit (iP8 x.i) 0) ch
    if w.bad || !(s.productOk x ch 0) then .stop s 0x0108
    else if w.nside < w.escapes then s.escapeUnderrun x w.nside
    else
      let k := a.dim 0
      let kw := (x.view s (iSrc1 x.i)).dim 0
      s.products x w 0 (plainKey x.i) (fun n =>
        let (f, r) := d.index n
        (f, (List.range k).map (fun j =>
          { a := s.elem a (j, r), w := w.codes.getD (f * kw + j) 0, esc := w.side.getD (f * kw + j) none })))

/-! The window block (R190-R193) -/

/-- A window block (R190). -/
structure Win where
  kh : Nat
  kw : Nat
  fkh : Nat
  fkw : Nat
  sh : Nat
  sw : Nat
  dh : Nat
  dw : Nat
  pt : Nat
  pb : Nat
  pl : Nat
  pr : Nat
  oy : Nat
  ox : Nat
  ngrp : Nat
  padbase : Nat
  grps : List Nat
  resv : Bool

/-- The 64 bytes of a window block. -/
def parseWin (b : List Byte) : Win :=
  let f := fun o => leField b o 1
  { kh := f 0, kw := f 1, fkh := f 2, fkw := f 3, sh := f 4, sw := f 5, dh := f 6, dw := f 7, pt := f 8, pb := f 9
    pl := f 10, pr := f 11, oy := f 12, ox := f 13, ngrp := f 14, padbase := leField b 16 2
    grps := (List.range 8).map (fun k => leField b (32 + 4 * k) 4), resv := allZero b 15 1 && allZero b 18 14 }

/-- Groups in use: FIRST_CH and MODE (R190). -/
def Win.groups (w : Win) : List (Nat × Nat) := (w.grps.take w.ngrp).map (fun g => (natBits g 0 16, natBits g 16 2))

/-- MODE of channel `c`: the group with the greatest FIRST_CH that does not exceed it (R192). -/
def Win.mode (w : Win) (c : Nat) : Nat :=
  (w.groups.filter (fun g => decide (g.1 ≤ c))).foldl (fun _ g => g.2) 0

/-- OH or OW (R191). -/
def outSize (n p1 p2 d fk st : Nat) : Int :=
  ((n : Int) + p1 + p2 - d * ((fk : Int) - 1) - 1) / st + 1

/-- The ranges of the block's own fields (R190, R193). -/
def Win.ranges (w : Win) : Bool :=
  let r16 := fun v => decide (1 ≤ v) && decide (v ≤ 16)
  r16 w.kh && r16 w.kw && decide (w.kh ≤ w.fkh) && decide (w.kw ≤ w.fkw) && r16 w.sh && r16 w.sw && r16 w.dh && r16 w.dw &&
    decide (w.oy ≤ w.fkh - w.kh) && decide (w.ox ≤ w.fkw - w.kw) && decide (1 ≤ w.ngrp) && decide (w.ngrp ≤ 8) &&
    decide (w.padbase ≤ 4095) && w.resv && (w.grps.drop w.ngrp).all (· == 0) && (w.grps.all (fun g => natBits g 18 14 == 0))

/-- FIRST_CH of the groups: 0 first, strictly ascending, below C (R193). -/
def Win.grpOk (w : Win) (c : Nat) : Bool :=
  ((w.groups.head?).map (fun g => g.1 == 0)).getD false && w.groups.all (fun g => decide (g.1 < c)) &&
    (w.groups.zip (w.groups.drop 1)).all (fun (a, b) => decide (a.1 < b.1))

/-- The checks of R193 against the operands; `ents` are the scale entries the instruction reads, first and count. -/
def Win.check (w : Win) (a d : View) (ents : Nat × Nat) : Bool :=
  let mirror := w.groups.any (fun g => g.2 == 2)
  let const := w.groups.any (fun g => g.2 == 1)
  w.ranges && w.grpOk (a.dim 0) && decide (1 ≤ d.dim 1) && decide (1 ≤ d.dim 2) &&
    outSize (a.dim 2) w.pt w.pb w.dh w.fkh w.sh == (d.dim 2 : Int) &&
    outSize (a.dim 1) w.pl w.pr w.dw w.fkw w.sw == (d.dim 1 : Int) &&
    (!mirror || (decide (w.pt ≤ a.dim 2 - 1) && decide (w.pb ≤ a.dim 2 - 1) && decide (w.pl ≤ a.dim 1 - 1) &&
      decide (w.pr ≤ a.dim 1 - 1))) &&
    (!const || (decide (w.padbase + a.dim 0 ≤ 4096) &&
      (ents.2 == 0 || decide (w.padbase + a.dim 0 ≤ ents.1) || decide (ents.1 + ents.2 ≤ w.padbase))))

/-- An index outside 0 to n − 1, reflected or clamped back (R192). -/
def padIndex (mode n : Nat) (i : Int) : Nat :=
  if mode = 2 then (if i < 0 then (-i).toNat else (2 * ((n : Int) - 1) - i).toNat)
  else if i < 0 then 0 else n - 1

/-- The code of a padded tap whose MODE is ZERO or CONSTANT, rounded once, and whether a NaN became 0 (R192, R217). -/
def padCode (s : State) (t fa : Nat) (za : Int) (mode entry : Nat) : Nat × Bool :=
  if mode = 0 then (if isInt fa then ofSigned (fmtBits fa) za else 0, false)
  else
    let e := s.scaleEntry t entry
    if isInt fa then convert fa .rne true (entZp e) (f32Quot (entBias e) (entScale e))
    else convert fa .rne true 0 (f32Val (entBias e))

/-- What a tap reads: a code, whether it is padded, and whether its padding turned a NaN to 0. -/
structure Tap where
  code : Nat
  padded : Bool := false
  nan : Bool := false

/-- The tap at input row `iy`, column `ix` (R191, R192). -/
def tap (s : State) (a : View) (w : Win) (za : Int) (c n : Nat) (iy ix : Int) : Tap :=
  let inY := decide (0 ≤ iy) && decide (iy < a.dim 2)
  let inX := decide (0 ≤ ix) && decide (ix < a.dim 1)
  if inY && inX then { code := s.elem a (c, ix.toNat, iy.toNat, n) }
  else
    let m := w.mode c
    if m < 2 then
      let (v, nan) := s.padCode a.tile a.fmt za m (w.padbase + c)
      { code := v, padded := true, nan := nan }
    else
      let y := if inY then iy.toNat else padIndex m (a.dim 2) iy
      let x := if inX then ix.toNat else padIndex m (a.dim 1) ix
      { code := s.elem a (c, x, y, n), padded := true }

/-- A term of a window product: a tap and weight `j` in storage order. -/
def tapTerm (b : Weights) (t : Tap) (j : Nat) : Term :=
  { a := t.code, w := b.codes.getD j 0, esc := b.side.getD j none, nan := t.nan }

/-- Input row and column of a tap (R191). -/
def Win.row (w : Win) (oy ky : Nat) : Int := (oy * w.sh : Nat) - (w.pt : Int) + ((w.oy + ky) * w.dh : Nat)
def Win.col (w : Win) (ox kx : Nat) : Int := (ox * w.sw : Nat) - (w.pl : Int) + ((w.ox + kx) * w.dw : Nat)

/-- The rules of the phases (R196). -/
def phaseOk (x : Issue) (w : Win) : Bool :=
  match natBits (iP8 x.i) 0 2 with
  | 0 => w.kh == w.fkh && w.kw == w.fkw
  | 1 => iFmtOut x.i == 0
  | 2 => iFmtOut x.i == 0
  | _ => decide (iDst x.i ≤ 0xFD)

/-- The window block of an instruction. -/
def winOf (s : State) (x : Issue) : Win := parseWin (s.deckGet x.t (x.view s (iAux x.i)).base 64)

/-- WINDOW and DEPTHWISE checked, their weights read, and their outputs formed: `terms` gives the taps of an output. A FINAL
phase holds the partial sums' own dimensions to the block too (R191-R197, R223-R228). -/
def windowed (s : State) (x : Issue) (terms : Win → Weights → View → Nat → Nat × List Term) : Did :=
  let w := s.winOf x
  let a := x.view s (iSrc0 x.i)
  let d := x.view s (outIdx x.i)
  let phase := natBits (iP8 x.i) 0 2
  let ch := d.dim 0
  let reads := if isFloat a.fmt && (phase == 1 || phase == 2) then 0 else ch
  let b := s.weights x true ch
  if !(w.check a d (iScale x.i, reads)) || !(w.check a (x.view s (iDst x.i)) (iScale x.i, reads)) || !(phaseOk x w) || b.bad || !(s.productOk x ch phase) then .stop s 0x0108
  else if b.nside < b.escapes then s.escapeUnderrun x b.nside
  else s.products x b phase (if w.fkh = 1 ∧ w.fkw = 1 then plainKey x.i else x.i) (terms w b a)

/-- WINDOW: an implicit GEMM over KH × KW × C (R191-R196). -/
def doWindow (x : Issue) (s : State) : Did :=
  s.windowed x (fun w b a n =>
    let (f, ox, oy, bn) := (x.view s (outIdx x.i)).index n
    let c := a.dim 0
    (f, (List.range (w.kh * w.kw * c)).map (fun k =>
      let ci := k % c
      let kx := k / c % w.kw
      let ky := k / c / w.kw
      tapTerm b (s.tap a w (insZa x.i a.fmt) ci bn (w.row oy ky) (w.col ox kx)) (k + f * (w.kh * w.kw * c)))))

/-- DEPTHWISE: one filter for each channel (R197). -/
def doDepthwise (x : Issue) (s : State) : Did :=
  s.windowed x (fun w b a n =>
    let (c, ox, oy, bn) := (x.view s (outIdx x.i)).index n
    (c, (List.range (w.kh * w.kw)).map (fun k =>
      tapTerm b (s.tap a w (insZa x.i a.fmt) c bn (w.row oy (k / w.kw)) (w.col ox (k % w.kw))) (c + a.dim 0 * k))))

/-- One pooled output and whether its window held no input tap: the largest element, or an F32 sum and quotient (R198,
R199). -/
def poolOut (s : State) (x : Issue) (w : Win) (a d : View) (n : Nat) : (Nat × Bool) × Bool :=
  let (c, ox, oy, bn) := d.index n
  let taps := (List.range (w.kh * w.kw)).map (fun k => s.tap a w 0 c bn (w.row oy (k / w.kw)) (w.col ox (k % w.kw)))
  let all := natBit (iP8 x.i) 1
  let out := fun v => convert (iFmtOut x.i) .rne true 0 v
  let mean := fun (ts : List Tap) (k : Nat) =>
    let (v, nan) := out (f32Val (f32Div (f32Sum x.i 0 (ts.map (fun t => elemF32 a.fmt t.code))) (toF32 (numOfInt k 0))))
    ((v, nan || ts.any (·.nan)), false)
  if natBit (iP8 x.i) 0 && all then mean taps (w.fkh * w.fkw)
  else match taps.filter (fun t => !t.padded) with
    | [] => ((0, false), true)
    | t :: ts =>
      if natBit (iP8 x.i) 0 then mean (t :: ts) (ts.length + 1)
      else (out (ts.foldl (fun m u => numMax m (value a.fmt u.code)) (value a.fmt t.code)), false)

/-- POOL: max or average over a window (R198, R199). -/
def doPool (x : Issue) (s : State) : Did :=
  let w := s.winOf x
  let a := x.view s (iSrc0 x.i)
  let d := x.view s (iDst x.i)
  if !(w.check a d (0, 0)) then .stop s 0x0108
  else
    let outs := (List.range d.count).map (s.poolOut x w a d)
    let s := if outs.any (·.2) then s.warnRun x.r.id else s
    s.writeOut x d (outs.map (·.1))

end State

open State

/-- MATMUL (R164, R219-R229, R371). -/
def execMatmul (t : Fin 16) (s : State) : Host.Outcome State Fault Refusal := .next (s.issue t.val 0x01 State.doMatmul)

/-- WINDOW (R189-R196). -/
def execWindow (t : Fin 16) (s : State) : Host.Outcome State Fault Refusal := .next (s.issue t.val 0x02 State.doWindow)

/-- DEPTHWISE (R197). -/
def execDepthwise (t : Fin 16) (s : State) : Host.Outcome State Fault Refusal := .next (s.issue t.val 0x03 State.doDepthwise)

/-- POOL (R198, R199). -/
def execPool (t : Fin 16) (s : State) : Host.Outcome State Fault Refusal := .next (s.issue t.val 0x04 State.doPool)

end Sys2Proof.Machine
end

