-- ==== Sys2Proof/Machine/MemFaults.lean ====
section
/-! DEFINITION. HBM errors and retired pseudo-channels (R282-R284), and the event ring's enabling (R264). -/

namespace Sys2Proof.Machine
namespace State

/-- This device's mask of retired pseudo-channels published to every other member (R289). -/
def publishMask (s : State) : State :=
  forEach ((List.range 8).filter (fun nd => nd != s.node && natBit (s.fget F.CW_NODE_MEMBERS 0) nd))
    (fun nd t => t.toPool nd (.mask s.retiredMask)) s

/-- A pseudo-channel retired: its record, the loss of its 512 frames with their poison, PC_RETIRED, the capacity recompute, and
the mask published to the pool (R252, R282, R284, R289, R393). -/
def retirePc (s : State) (pc cause : Nat) (a : W64) (frame : W32) : State :=
  let s := s.fault { cls := 3, action := 4, unit := pc, cause := cause, info0 := a, info1 := frame }
  let s := s.fset F.FLT_PC_RETIRED pc 1
  let s := { s with hbm := s.hbm.filter (fun e => e.1 / 0x200000 % 64 != pc), poisoned := s.poisoned.filter (fun f => f % 64 != pc) }
  (s.event 0x0020 0xFF pc 512 0).recompute.publishMask

/-- A pseudo-channel's 1 s interval ends (R282). The address and frame of a threshold record are of no stated error: they
are free values. -/
def ceEnd (pc : Nat) (s : State) : State :=
  let n := tabGet 0 s.ceNow pc
  let s := s.fset F.FLT_PC_CE_LAST pc (min n 0xFFFF)
  if 64 < n ∧ !(s.flag F.FLT_PC_RETIRED pc) then
    let (a, s) := s.draw
    let (f, s) := s.draw
    s.retirePc pc 1 a (f.setWidth 32)
  else s

end State

open State

/-- HBM_CORRECTED_ERROR: counted for its pseudo-channel (R282, R321). -/
def execHbmCorrectedError (pc : Fin 64) (s : State) : Host.Outcome State Fault Refusal :=
  .next ({ s with ceNow := tabSet 0 s.ceNow pc.val (tabGet 0 s.ceNow pc.val + 1) }.count (0x0C0 + pc.val) none none 1)

/-- HBM_CE_INTERVAL_END: the counts of the interval, the pseudo-channels above 64 retired, and the tiles' counts of corrected Deck
errors at 0 again (R267, R282; log entry 103). -/
def execHbmCeIntervalEnd (s : State) : Host.Outcome State Fault Refusal :=
  .next { forEach (List.range 64) ceEnd s with ceNow := [], deckCe := [] }

/-- HBM_UNCORRECTABLE_ERROR: the first in a pseudo-channel poisons its frame, the second retires it (R282). -/
def execHbmUncorrectableError (addr : BitVec 36) (s : State) : Host.Outcome State Fault Refusal :=
  .next (
    let f := addr.toNat / 0x200000
    let pc := f % 64
    let a : W64 := BitVec.ofNat 64 (s.node * 2 ^ 36 + addr.toNat)
    if s.flag F.FLT_PC_RETIRED pc then s
    else if s.flag F.FLT_PC_UE_SEEN pc then s.retirePc pc 3 a (BitVec.ofNat 32 f)
    else
      let p := (s.frameOwner f).getD 0xFF
      let s := { s.fset F.FLT_PC_UE_SEEN pc 1 with poisoned := if s.poisoned.contains f then s.poisoned else s.poisoned ++ [f] }
      let s := s.fault { cls := 3, part := p, unit := pc, cause := 2, info0 := a, info1 := BitVec.ofNat 32 f }
      s.event 0x0021 p f a.toNat 0)

/-- A write of FLT_EVR_CFG (R264): LOG2 changes only while EN is 0, else that field of the write is discarded and recorded; EN
zeroes HEAD and TAIL and starts posting, or is refused; a BANK_FALLBACK of the boot is posted then (R326, R350). -/
def State.evrCfgWrite (s : State) (v : W32) : State :=
  let w : W64 := v.setWidth 64
  let was := s.flag F.FLT_EVR_CFG_EN 0
  let old := s.fget F.FLT_EVR_CFG_LOG2 0
  let late := was && getBits w 24 5 != old
  let log := if late then old else getBits w 24 5
  let s := if late then s.accessFault .pf 3 (regOffset .FLT_EVR_CFG 0) w else s
  let s := (s.fset F.FLT_EVR_CFG_IRQ_EN 0 (getBits w 30 1)).fset F.FLT_EVR_CFG_LOG2 0 log
  let s := (s.fset F.FLT_EVR_CFG_COAL_N 0 (getBits w 16 8)).fset F.FLT_EVR_CFG_COAL_US 0 (getBits w 0 16)
  if !(v.getLsbD 31) then s.fset F.FLT_EVR_CFG_EN 0 0
  else if log < 4 ∨ 16 < log then s
  else
    let s := (s.fset F.FLT_EVR_CFG_EN 0 1).rset .FLT_EVR_PTR 0 0
    let s := { s with evPhase := true, unsig := tabSet 0 s.unsig 128 0 }.eventsLost
    match s.fallback with
    | some (b, bad) => { s with fallback := none }.event 0x0104 0xFF b bad 0
    | none => s

/-- EVENT_RING_ENABLE: a write of FLT_EVR_CFG (R264). -/
def execEventRingEnable (v : W32) (s : State) : Host.Outcome State Fault Refusal := .next (s.bar (s.evrCfgWrite v))

end Sys2Proof.Machine
end

