-- ==== Sys2Proof/Machine/Spdm.lean ====
section
/-! DEFINITION. The SPDM responder, IDE_KM and TDISP interfaces behind the DOE mailbox (R327, R332-R339). -/

namespace Sys2Proof.Machine
namespace State

/-! Measurements (R333, R334) -/

/-- A SHA-384 measurement of the part `k` of an image, whose contents are Keystone's (R333; log entry 17). -/
def measured (k : Nat) (image : List Byte) : List Byte := digest48 0 (Config.secret k image)

/-- The image whose firmware is measured: the running bank's, in RECOVERY the failed one's (R326, R333). -/
def measuredBank (s : State) : Bank := s.bank (if s.fget F.KS_STAT_STATE 0 = 3 then s.fget F.KS_STAT_NEXT_BANK 0 else s.runBank)

/-- POLICY of a partition state measurement: the incoming policy's during a tenant switch, zero for the default one (R334,
R335). -/
def policyDigest (s : State) (p : Nat) : List Byte :=
  let head := match tabGet none s.scrubs p with
    | some x => if x.tenant then (x.policy.getD []).take 128 else (s.policy p).head
    | none => (s.policy p).head
  if head = [] then List.replicate 48 0#8 else digest48 0 head

/-- The 64 B state of partition `p` (R334). -/
def partState (s : State) (p : Nat) : List Byte :=
  let (frames, skipped) := tabGet (0, 0) s.scrubInfo p
  leBytes 1 (s.fget F.KS_PART_ATT_STATE p) ++ leBytes 1 (s.fget F.KS_PART_ATT_TDI p) ++ leBytes 2 (s.fget F.KS_PART_ATT_SCRUB_GEN p) ++
    leBytes 4 (s.fget F.KS_PART_ATT_SCRUB_US p) ++ leBytes 4 frames ++ leBytes 4 skipped ++ s.policyDigest p

/-- The 16 B consent of partition `p` (R333). -/
def partConsent (s : State) (p : Nat) : List Byte :=
  leBytes 1 (s.fget F.KS_PART_ATT_CONSENT p + 2 * s.fget F.KS_PART_ATT_SELF_TRACE p + 4 * s.fget F.KS_PART_ATT_LIVE_UPDATE_OK p) ++
    leBytes 1 (s.fget F.KS_PART_ATT_CONFIDENTIAL p) ++ leBytes 14 0

/-- The sealed advisory whitelist, as it stands in the device: speed, source address, and every tag with its safe payload
(R106). -/
def sealedBytes (s : State) : List Byte :=
  if !(s.flag F.ACT_ADV_STAT_SEALED 0) then []
  else leBytes 1 (s.fget F.ACT_ADV_STAT_SPEED 0) ++ leBytes 6 s.smac.toNat ++
    ((List.range 64).map (fun k => leBytes 4 (s.rget .ACT_ADV_WL0 k).toNat ++ leBytes 8 (s.rget .ACT_ADV_WL1 k).toNat ++
      leBytes 4 (s.rget .ACT_ADV_WL2 k).toNat ++ (s.advTag k).safe.getD [])).flatten

/-- The measurement of index `i`, if present; index 5 is of the configuration that booted with the whitelist that is sealed
(R106, R333). -/
def measurement (s : State) (i : Nat) : Option (List Byte) :=
  let fw := s.measuredBank.firmware
  if i = 1 then some (measured 10 [])
  else if i = 2 then some (measured 11 fw)
  else if i = 3 then some (measured 12 fw)
  else if i = 4 then some (measured 13 (leBytes 8 s.measuredBank.catalogue))
  else if i = 5 then some (measured 14 (s.config ++ s.sealedBytes))
  else if i = 6 then
    some (leBytes 4 (s.rget .KS_GRADE 0).toNat ++ leBytes 1 ((if s.fuses.tapHold then 1 else 0) + 2 * s.fget F.KS_STAT_DEBUG_OPEN 0) ++
      leBytes 1 (s.fget F.KS_STAT_FUSED_SVN 0) ++ leBytes 10 0)
  else if i = 7 then some (leBytes 8 (s.fget F.KS_STAT_RUN_SVN 0))
  else if i = 8 then
    if s.flag F.KS_STAT_PENDING 0 then
      some (leBytes 8 (s.fget F.KS_STAT_PEND_SVN 0) ++ digest48 0 (s.bank s.otherBank).firmware)
    else none
  else if 0x10 ≤ i ∧ i < 0x18 then some (s.partState (i - 0x10))
  else if 0x18 ≤ i ∧ i < 0x20 then some (s.partConsent (i - 0x18))
  else none

/-- Every measurement present, by rising index (R333). -/
def measurements (s : State) : List (Nat × List Byte) :=
  (List.range 0x20).filterMap (fun i => (s.measurement i).map (fun b => (i, b)))

/-! Answers -/

/-- Whether secured session `k` is open (R332). -/
def sessionOpen (s : State) (k : Nat) : Bool := s.spdm.sessions.getD k false

/-- A session opened or closed. -/
def setSession (s : State) (k : Nat) (handshake open_ : Bool) : State :=
  { s with spdm := { s.spdm with sessions := s.spdm.sessions.set k open_, handshake := s.spdm.handshake.set k handshake } }

/-- The chain of certificate slot 0 or 1; slot 0 ends in the alias certificate of the running firmware (R327). -/
def certChain (s : State) (slot : Nat) : List Byte := if slot = 0 then Config.secret 0 s.measuredBank.firmware else s.spdm.slot1

/-- GET_VERSION: 1.2 and 1.3 (R332). -/
def ansVersion (s : State) : Resp × State := (.version [0x12, 0x13], s)

/-- GET_CAPABILITIES (R332). -/
def ansCapabilities (s : State) : Resp × State :=
  (.capabilities ["CERT", "CHAL", "MEAS with signature", "MEAS_FRESH", "ENCRYPT", "MAC", "KEY_EX", "HBEAT", "KEY_UPD", "CHUNK",
    "SET_CERT", "CSR"], s)

/-- NEGOTIATE_ALGORITHMS (R332). -/
def ansAlgorithms (s : State) : Resp × State :=
  (.algorithms ["ECDSA P-384", "SHA-384", "DHE secp384r1", "AES-256-GCM", "SPDM key schedule"], s)

/-- GET_DIGESTS: of the slots that hold a chain (R327, R332). -/
def ansDigests (s : State) : Resp × State :=
  (.digests ([digest48 0 (s.certChain 0)] ++ if s.spdm.slot1 = [] then [] else [digest48 0 s.spdm.slot1]), s)

/-- GET_CERTIFICATE: slots 2 to 7 are not supported (R327). -/
def ansCertificate (slot : Nat) (s : State) : Resp × State :=
  (if 2 ≤ slot then .unsupported else if slot = 1 ∧ s.spdm.slot1 = [] then .refused else .certificate slot (s.certChain slot), s)

/-- CHALLENGE: a signature over the nonce by the slot's key (R332). -/
def ansChallenge (slot : Nat) (nonce : List Byte) (s : State) : Resp × State :=
  (if 2 ≤ slot then .unsupported
   else if slot = 1 ∧ s.spdm.slot1 = [] then .refused
   else .challengeAuth slot (Config.secret 1 (s.certChain slot ++ nonce)), s)

/-- GET_MEASUREMENTS: the total, one index or all, signed over the nonce (R333; log entry 58). -/
def ansMeasurements (i : Nat) (nonce : List Byte) (s : State) : Resp × State :=
  let all := s.measurements
  let ms := if i = 0xFF then all else all.filter (fun e => e.1 == i)
  (if i ≠ 0 ∧ ms = [] then .refused
   else .measurements all.length ms (Config.secret 2 (nonce ++ (ms.map (·.2)).flatten)), s)

/-- KEY_EXCHANGE: one of the four sessions begins its handshake (R332). -/
def ansKeyExchange (slot : Nat) (exch : List Byte) (s : State) : Resp × State :=
  if 2 ≤ slot then (.unsupported, s)
  else if slot = 1 ∧ s.spdm.slot1 = [] then (.refused, s)
  else match (List.range 4).find? (fun k => !(s.sessionOpen k) && !(s.spdm.handshake.getD k false)) with
    | some k => (.keyExchange k (Config.secret 3 (s.certChain slot ++ exch)), s.setSession k true false)
    | none => (.refused, s)

/-- FINISH: the handshake of a session completes, or is given up (R332). -/
def ansFinish (k : Nat) (verify : List Byte) (s : State) : Resp × State :=
  if !(s.spdm.handshake.getD k false) then (.refused, s)
  else if Config.finishOk k verify then (.finish k, s.setSession k false true)
  else (.refused, s.setSession k false false)

/-- HEARTBEAT (R332). -/
def ansHeartbeat (k : Nat) (s : State) : Resp × State := (.heartbeat k, s)

/-- KEY_UPDATE (R332). -/
def ansKeyUpdate (k : Nat) (s : State) : Resp × State := (.keyUpdate k, s)

/-- END_SESSION (R332). -/
def ansEndSession (k : Nat) (s : State) : Resp × State := (.endSession k, s.setSession k false false)

/-- CHUNK_SEND: a chunk of a large request, which is whole with its last (R332; log entry 58). -/
def ansChunkSend (handle : Byte) (last : Bool) (data : List Byte) (s : State) : Resp × State :=
  let m := s.spdm.chunk ++ data
  (.chunkSendAck handle.toNat,
   { s with spdm := { s.spdm with chunk := if last then [] else m, large := if last then m else s.spdm.large } })

/-- CHUNK_GET: a chunk of a large response, whose encoding is SPDM's own (R332; log entry 58). -/
def ansChunkGet (handle : Byte) (seq : Nat) (s : State) : Resp × State :=
  (.chunk handle.toNat (Config.secret 4 (leBytes 1 handle.toNat ++ leBytes 4 seq ++ s.spdm.large)), s)

/-- GET_CSR, over a secured session (R327). -/
def ansCsr (ses : Session) (s : State) : Resp × State :=
  (if ses = none then .refused else .csr (Config.secret 5 s.measuredBank.firmware), s)

/-- SET_CERTIFICATE: the owner's chain installed in slot 1 over a secured session (R327). -/
def ansSetCertificate (ses : Session) (slot : Nat) (chain : List Byte) (s : State) : Resp × State :=
  if 2 ≤ slot then (.unsupported, s)
  else if ses = none ∨ slot = 0 then (.refused, s)
  else (.setCertificate slot, { s with spdm := { s.spdm with slot1 := chain } })

/-- K_SET_GO: an IDE stream's keys start, or are refreshed (R337): stream 0 is the link stream, p + 1 the selective stream of
the function of partition p. -/
def ansKeyGo (ses : Session) (n : Nat) (s : State) : Resp × State :=
  if ses = none then (.refused, s) else (.keyGo n, { s with ide := if natBit s.ide n then s.ide else s.ide + 2 ^ n })

/-- A TDISP message, accepted only within a secured session (R338). -/
def tdisp (ses : Session) (ans : State → Resp × State) (s : State) : Resp × State := if ses = none then (.refused, s) else ans s

/-- Whether LOCK_INTERFACE_REQUEST is refused (R338). -/
def lockRefused (s : State) (p : Nat) : Bool :=
  (List.range 16).any (fun i => !(s.flag F.TRH_RING_CFG_OWNER (16 * p + i))) || s.resetBusy p || !(natBit s.ide (p + 1)) ||
    s.fget F.KS_PART_ATT_TDI p != 0

/-- LOCK_INTERFACE_REQUEST (R338). -/
def ansLock (p : Nat) (s : State) : Resp × State :=
  if s.lockRefused p then (.refused, s) else (.tdispLocked p, s.fset F.KS_PART_ATT_TDI p 1)

/-- GET_DEVICE_INTERFACE_REPORT: TILES, RES on each resource, and the partition state measurement (R338). -/
def ansReport (p : Nat) (s : State) : Resp × State :=
  (.tdispReport p (s.fget F.TG_PART_TILES p) ((List.range 5).map (fun r => s.fget F.TG_CFG_RES (tgIdx p r))) (s.partState p), s)

/-- GET_DEVICE_INTERFACE_STATE (R338). -/
def ansState (p : Nat) (s : State) : Resp × State := (.tdispState p (s.fget F.KS_PART_ATT_TDI p), s)

/-- START_INTERFACE_REQUEST: from CONFIG_LOCKED to RUN (R338, R339). -/
def ansStart (p : Nat) (s : State) : Resp × State :=
  if s.fget F.KS_PART_ATT_TDI p = 1 then (.tdispStarted p, s.fset F.KS_PART_ATT_TDI p 2) else (.refused, s)

/-- STOP_INTERFACE_REQUEST: to CONFIG_UNLOCKED (R339). -/
def ansStop (p : Nat) (s : State) : Resp × State := (.tdispStopped p, s.fset F.KS_PART_ATT_TDI p 0)

/-! The mailbox -/

/-- Whether configuration requests, the DOE mailbox among them, are completed normally (R395, R400). -/
def configOpen (s : State) : Bool := s.power.hostReady && !s.power.perst && decide (s.power.since ≤ s.ticks)

/-- The answer to a deferred request (R336). -/
def answerOf : Instr → State → Resp × State
  | .spdmGetVersion _, s => ansVersion s
  | .spdmGetCapabilities _, s => ansCapabilities s
  | .spdmNegotiateAlgorithms _, s => ansAlgorithms s
  | .spdmGetDigests _, s => ansDigests s
  | .spdmGetCertificate _ slot, s => ansCertificate slot.val s
  | .spdmChallenge _ slot nonce, s => ansChallenge slot.val nonce s
  | .spdmGetMeasurements _ i nonce, s => ansMeasurements i.val nonce s
  | .spdmKeyExchange _ slot exch, s => ansKeyExchange slot.val exch s
  | .spdmFinish k v, s => ansFinish k.val v s
  | .spdmHeartbeat k, s => ansHeartbeat k.val s
  | .spdmKeyUpdate k, s => ansKeyUpdate k.val s
  | .spdmEndSession k, s => ansEndSession k.val s
  | .spdmChunkSend _ h l d, s => ansChunkSend h l d s
  | .spdmChunkGet _ h q, s => ansChunkGet h q s
  | .spdmGetCsr ses, s => ansCsr ses s
  | .spdmSetCertificate ses slot chain, s => ansSetCertificate ses slot.val chain s
  | .ideKSetGo ses n, s => ansKeyGo ses n.val s
  | .tdispGetVersion ses _, s => tdisp ses (fun s => (.tdispVersion, s)) s
  | .tdispGetCapabilities ses _, s => tdisp ses (fun s => (.tdispCapabilities, s)) s
  | .tdispLock ses p, s => tdisp ses (ansLock p.val) s
  | .tdispGetReport ses p, s => tdisp ses (ansReport p.val) s
  | .tdispGetState ses p, s => tdisp ses (ansState p.val) s
  | .tdispStart ses p, s => tdisp ses (ansStart p.val) s
  | .tdispStop ses p, s => tdisp ses (ansStop p.val) s
  | _, s => (.unsupported, s)

/-- A response sent and counted (R321, R332). -/
def respond (s : State) (r : Resp) : State := (s.emit (.resp r)).count 0x174 none none 1

/-- Whether a message names a secured session that is not open: it cannot be read. -/
def lostSession (s : State) : Session → Bool
  | some k => !(s.sessionOpen k.val)
  | none => false

/-- One request `i` in session `ses`: Configuration Request Retry Status before host-ready (R395), no answer in RECOVERY but to
the messages of R326, ResponseNotReady in a bank switch window (R336), or its answer. -/
def request (s : State) (i : Instr) (ses : Session) (inRecovery : Bool) : State :=
  if s.power.perst then s
  else if !s.configOpen then s.emit (.config false)
  else if (s.fget F.KS_STAT_STATE 0 = 3 ∧ !inRecovery) ∨ s.lostSession ses then s
  else if s.switching then
    let n := s.spdm.token
    { s with spdm := { s.spdm with token := n + 1, deferred := s.spdm.deferred ++ [(n, i)] } }.respond (.notReady 16 4 n)
  else
    let (r, s) := answerOf i s
    s.respond r

/-- RESPOND_IF_READY: after the window, the response to the request deferred under the token (R336). -/
def requestDeferred (s : State) (token : Nat) (ses : Session) : State :=
  if s.power.perst then s
  else if !s.configOpen then s.emit (.config false)
  else if s.fget F.KS_STAT_STATE 0 = 3 ∨ s.lostSession ses then s
  else if s.switching then s.respond (.notReady 16 4 token)
  else
    match s.spdm.deferred.find? (fun e => e.1 == token) with
    | some (_, i) =>
      let (r, s) := answerOf i { s with spdm := { s.spdm with deferred := s.spdm.deferred.filter (fun e => e.1 != token) } }
      s.respond r
    | none => s.respond .refused

end State

open State

/-- GET_VERSION (R332). -/
def execSpdmGetVersion (ses : Session) (s : State) : Host.Outcome State Fault Refusal :=
  .next (s.request (.spdmGetVersion ses) ses true)
/-- GET_CAPABILITIES (R332). -/
def execSpdmGetCapabilities (ses : Session) (s : State) : Host.Outcome State Fault Refusal :=
  .next (s.request (.spdmGetCapabilities ses) ses true)
/-- NEGOTIATE_ALGORITHMS (R332). -/
def execSpdmNegotiateAlgorithms (ses : Session) (s : State) : Host.Outcome State Fault Refusal :=
  .next (s.request (.spdmNegotiateAlgorithms ses) ses true)
/-- GET_DIGESTS (R332). -/
def execSpdmGetDigests (ses : Session) (s : State) : Host.Outcome State Fault Refusal :=
  .next (s.request (.spdmGetDigests ses) ses true)
/-- GET_CERTIFICATE (R327). -/
def execSpdmGetCertificate (ses : Session) (slot : Fin 8) (s : State) : Host.Outcome State Fault Refusal :=
  .next (s.request (.spdmGetCertificate ses slot) ses true)
/-- CHALLENGE (R332). -/
def execSpdmChallenge (ses : Session) (slot : Fin 8) (nonce : List Byte) (s : State) : Host.Outcome State Fault Refusal :=
  .next (s.request (.spdmChallenge ses slot nonce) ses false)
/-- GET_MEASUREMENTS (R333). -/
def execSpdmGetMeasurements (ses : Session) (index : Fin 256) (nonce : List Byte) (s : State) : Host.Outcome State Fault Refusal :=
  .next (s.request (.spdmGetMeasurements ses index nonce) ses true)
/-- KEY_EXCHANGE (R332). -/
def execSpdmKeyExchange (ses : Session) (slot : Fin 8) (exch : List Byte) (s : State) : Host.Outcome State Fault Refusal :=
  .next (s.request (.spdmKeyExchange ses slot exch) ses false)
/-- FINISH (R332). -/
def execSpdmFinish (ses : Fin 4) (verify : List Byte) (s : State) : Host.Outcome State Fault Refusal :=
  .next (s.request (.spdmFinish ses verify) none false)
/-- HEARTBEAT (R332). -/
def execSpdmHeartbeat (ses : Fin 4) (s : State) : Host.Outcome State Fault Refusal :=
  .next (s.request (.spdmHeartbeat ses) (some ses) false)
/-- KEY_UPDATE (R332). -/
def execSpdmKeyUpdate (ses : Fin 4) (s : State) : Host.Outcome State Fault Refusal :=
  .next (s.request (.spdmKeyUpdate ses) (some ses) false)
/-- END_SESSION (R332). -/
def execSpdmEndSession (ses : Fin 4) (s : State) : Host.Outcome State Fault Refusal :=
  .next (s.request (.spdmEndSession ses) (some ses) false)
/-- RESPOND_IF_READY (R336). -/
def execSpdmRespondIfReady (ses : Session) (token : Nat) (s : State) : Host.Outcome State Fault Refusal :=
  .next (s.requestDeferred token ses)
/-- CHUNK_SEND (R332). -/
def execSpdmChunkSend (ses : Session) (handle : Byte) (last : Bool) (data : List Byte) (s : State) :
    Host.Outcome State Fault Refusal :=
  .next (s.request (.spdmChunkSend ses handle last data) ses false)
/-- CHUNK_GET (R332). -/
def execSpdmChunkGet (ses : Session) (handle : Byte) (seq : Nat) (s : State) : Host.Outcome State Fault Refusal :=
  .next (s.request (.spdmChunkGet ses handle seq) ses false)
/-- GET_CSR (R327). -/
def execSpdmGetCsr (ses : Session) (s : State) : Host.Outcome State Fault Refusal :=
  .next (s.request (.spdmGetCsr ses) ses false)
/-- SET_CERTIFICATE (R327). -/
def execSpdmSetCertificate (ses : Session) (slot : Fin 8) (chain : List Byte) (s : State) : Host.Outcome State Fault Refusal :=
  .next (s.request (.spdmSetCertificate ses slot chain) ses false)
/-- K_SET_GO of IDE_KM (R337). -/
def execIdeKSetGo (ses : Session) (stream : Fin 9) (s : State) : Host.Outcome State Fault Refusal :=
  .next (s.request (.ideKSetGo ses stream) ses false)
/-- GET_TDISP_VERSION (R338). -/
def execTdispGetVersion (ses : Session) (p : Fin 8) (s : State) : Host.Outcome State Fault Refusal :=
  .next (s.request (.tdispGetVersion ses p) ses false)
/-- GET_TDISP_CAPABILITIES (R338). -/
def execTdispGetCapabilities (ses : Session) (p : Fin 8) (s : State) : Host.Outcome State Fault Refusal :=
  .next (s.request (.tdispGetCapabilities ses p) ses false)
/-- LOCK_INTERFACE_REQUEST (R338). -/
def execTdispLock (ses : Session) (p : Fin 8) (s : State) : Host.Outcome State Fault Refusal :=
  .next (s.request (.tdispLock ses p) ses false)
/-- GET_DEVICE_INTERFACE_REPORT (R338). -/
def execTdispGetReport (ses : Session) (p : Fin 8) (s : State) : Host.Outcome State Fault Refusal :=
  .next (s.request (.tdispGetReport ses p) ses false)
/-- GET_DEVICE_INTERFACE_STATE (R338). -/
def execTdispGetState (ses : Session) (p : Fin 8) (s : State) : Host.Outcome State Fault Refusal :=
  .next (s.request (.tdispGetState ses p) ses false)
/-- START_INTERFACE_REQUEST (R339). -/
def execTdispStart (ses : Session) (p : Fin 8) (s : State) : Host.Outcome State Fault Refusal :=
  .next (s.request (.tdispStart ses p) ses false)
/-- STOP_INTERFACE_REQUEST (R339). -/
def execTdispStop (ses : Session) (p : Fin 8) (s : State) : Host.Outcome State Fault Refusal :=
  .next (s.request (.tdispStop ses p) ses false)

end Sys2Proof.Machine
end

