-- ==== Sys2Proof/Machine/PowerUp.lean ====
section
/-! DEFINITION. Supplies, device reset and the timeline of the first second (R326, R387-R400, R412, R416), PERST# and the PCIe
link (R239, R252, R400). -/

namespace Sys2Proof.Machine
namespace State

/-! Device reset (R381, R390) -/

/-- What no device reset touches: the queue, fuses and flash, the owner's certificate chain, host memory, the test access port,
the supplies and inputs, and the model's own log; TRIP_CAUSE and the bank to boot survive too (R327, R328, R381, R390, R412). -/
def deviceReset (s : State) (cause : Nat) : State :=
  let t : State := { State.reset with
    pending := s.pending, host := s.host, fuses := s.fuses, bankA := s.bankA, bankB := s.bankB, outs := s.outs, draws := s.draws
    jtag := s.jtag, spdm := { slot1 := s.spdm.slot1 }
    power := { rails := s.power.rails, pwrGood := s.power.pwrGood, resetLow := s.power.resetLow, tripped := s.power.tripped, tripOut := s.power.tripOut
               scanHeld := s.power.scanHeld, outsDriven := s.power.outsDriven, perst := s.power.perst, cause := cause } }
  (t.fset F.KS_STAT_NEXT_BANK 0 (s.fget F.KS_STAT_NEXT_BANK 0)).fset F.TH_STAT_TRIP_CAUSE 0 (s.fget F.TH_STAT_TRIP_CAUSE 0)

/-- The internal reset is released unless something holds it: RESET_N, a trip, a scan instruction, or no supply-good (R390,
R391 step 1, R414). -/
def release (s : State) : State :=
  let p := s.power
  if p.pwrGood && !p.resetLow && !p.tripped && !p.scanHeld && !p.released then
    { s with power := { p with released := true } }.fset F.KS_BOOT_RESET_SRC 0 p.cause
  else s

/-- A thermal trip: THERM_TRIP_N is asserted, the outputs go to their reset levels and the device is held in reset; TRIP_CAUSE
records why (R381, R412). -/
def trip (s : State) (cause : Nat) : State :=
  ({ s with power := { s.power with tripped := true, tripOut := true } }.deviceReset s.power.cause).fset F.TH_STAT_TRIP_CAUSE 0 cause

/-! Boot (R326, R391 step 4) -/

/-- Whether the boot ROM accepts a bank: its signature, and an SVN not below FUSED_SVN (R326). -/
def bankOk (s : State) (b : Nat) : Bool := (s.bank b).signed && decide (s.fuses.svn ≤ (s.bank b).svn)

/-- The thermal design power of the grade, in 0.1 W (R2, R376). -/
def tdp (s : State) : Nat :=
  match s.fget F.KS_GRADE_GRADE 0 with
  | 0 => 1800
  | 1 => 1500
  | _ => 1200

/-- The fuse-loaded fields (R3, R328, R381, R391). -/
def loadFuses (s : State) : State :=
  let f := s.fuses
  let s := ((s.fset F.KS_GRADE_STEPPING 0 f.stepping).fset F.KS_GRADE_GRADE 0 f.grade).fset F.KS_GRADE_TILE_MASK 0 f.mask
  let s := (s.fset F.KS_STAT_FUSED_SVN 0 f.svn).fset F.TH_STATIC_P_STATIC 0 f.pStatic
  s.fset F.TH_POWER_P_CAP 0 s.tdp

/-- One tag of the whitelist image (R106). -/
def sealTag (k : Nat) (w : WlTag) (s : State) : State :=
  let s := (s.rset .ACT_ADV_WL0 k (w.wl0.setWidth 64 &&& regMask .ACT_ADV_WL0 .ro)).rset .ACT_ADV_WL1 k w.wl1
  (s.rset .ACT_ADV_WL2 k (w.wl2.setWidth 64 &&& regMask .ACT_ADV_WL2 .ro)).setAdvTag k { s.advTag k with safe := some w.safe }

/-- The whitelist sealed, when the configuration carries a valid image (R106, R326). -/
def sealWhitelist (s : State) (w : Option WlImage) : State :=
  match w with
  | none => s
  | some w =>
    let s := forEach (w.tags.take 64).zipIdx (fun (t, k) s => sealTag k t s) { s with smac := w.smac }
    (s.fset F.ACT_ADV_STAT_SPEED 0 w.speed).fset F.ACT_ADV_STAT_SEALED 0 1

/-- The pool settings of the signed configuration (R287, R394). -/
def loadPool (s : State) (b : Bank) : State :=
  let s := match b.exportRun with
    | some v => s.rset .CW_EXPORT 0 (v &&& regMask .CW_EXPORT .rw)
    | none => s
  match b.poolEn with
  | some true =>
    let s := (s.fset F.CW_NODE_POOL_EN 0 1).fset F.CW_NODE_ID 0 (s.fuses.straps % 8)
    s.fset F.CW_NODE_MEMBERS 0 s.membersNow
  | _ => s

/-- Bank `b` runs, and its image's configuration is the device's until the next boot (R326, R328, R333). -/
def bootBank (s : State) (b : Nat) : State :=
  let x := s.bank b
  let s := { (s.fset F.KS_STAT_RUN_BANK 0 b).fset F.KS_STAT_RUN_SVN 0 x.svn with config := x.firmware }
  (s.sealWhitelist x.whitelist).loadPool x

/-- The boot steps: the bank named by NEXT_BANK, else the other one with a BANK_FALLBACK to post, else RECOVERY (R326, R352). -/
def boot (s : State) : State :=
  let s := s.loadFuses
  let s := { s with power := { s.power with boot := true } }
  let b := s.fget F.KS_STAT_NEXT_BANK 0
  if s.bankOk b then s.bootBank b
  else if s.bankOk (1 - b) then { s.bootBank (1 - b) with fallback := some (1 - b, b) }
  else { s with power := { s.power with recovery := true } }.fset F.KS_STAT_STATE 0 3

/-! Later steps (R391, R393, R398) -/

/-- A pseudo-channel that fails training (R393, R402). -/
def trainFail (pc : Nat) (s : State) : State := s.retirePc pc 4 0#64 0#32

/-- The end of HBM training (R393, R399). -/
def trainEnd (s : State) (failed : W64) : State :=
  let pcs := (List.range 64).filter (fun c => failed.getLsbD c)
  let s := forEach pcs trainFail s
  let ok := (List.range 4).filter (fun k => (List.range 16).any (fun c => !(failed.getLsbD (16 * k + c))))
  let s := (s.fset F.KS_BOOT_PC_FAIL 0 pcs.length).fset F.KS_BOOT_STACK_OK 0 (ok.map (2 ^ ·)).sum
  { s with power := { s.power with trained := true } }

/-- Milliseconds since the last device reset, as the 250 MHz clock has counted them (R399; log entry 59). -/
def msNow (s : State) : Nat := s.ticks / 250000

/-! PERST# and the PCIe link (R239, R252, R400) -/

/-- PERST#: every ring ends as under R153, the event ring is disabled, a STREAM trace stops, IDE keys and SPDM sessions go, every
interface enters ERROR, and locks of host functions are released ABANDONED (R400). -/
def perst (s : State) : State :=
  let s := s.fset F.FLT_EVR_CFG_EN 0 0
  let s := (s.stopCmds (fun _ _ => true)).scrubsOrphan (fun _ _ => true)
  let s := { s with cmds := [] }
  let s := forEach (List.range 128) (ringsReset true) s
  let st := s.fget F.TRC_STAT_STATE 0
  let s := if s.flag F.TRC_STAT_MODE 0 ∧ st ≠ 0 then s.fset F.TRC_STAT_STATE 0 4 else s
  let s := { s with ide := 0, spdm := { slot1 := s.spdm.slot1, token := s.spdm.token }, power := { s.power with perst := true } }
  let s := forEach (List.range 8) (fun p s => s.tdiEnter p 2) s
  s.abandonWhere (fun _ kind _ => kind == 4)

/-- LF of a negotiated rate in GT/s and width (R239). -/
def linkFactor (gts width : Nat) : Nat := min 64 (64 * gts * width / (32 * 16))

/-! Supplies (R387-R389, R412) -/

/-- A rail's bit in `rails`: set while the rail is within tolerance (R409). -/
def railBit : Rail → Nat
  | .aux => 0
  | .io => 1
  | .core => 2
  | .sram => 3
  | .phy => 4
  | .hbm => 5
  | .vddq => 6

/-- Whether a level in percent of nominal is within a rail's tolerance (R409). -/
def railOk (r : Rail) (pct : Nat) : Bool :=
  match r with
  | .core => decide (97 ≤ pct) && decide (pct ≤ 103)
  | _ => decide (95 ≤ pct) && decide (pct ≤ 105)

/-- A rail's new level: VDD_IO within tolerance drives the plant outputs, THERM_TRIP_N deasserted; VDD_AUX below 10 % clears
TRIP_CAUSE and ends the trip output too (R389, R412; log entry 91). -/
def railLevel (s : State) (r : Rail) (pct : Nat) : State :=
  let b := railBit r
  let old := natBit s.power.rails b
  let rails := if railOk r pct = old then s.power.rails else if old then s.power.rails - 2 ^ b else s.power.rails + 2 ^ b
  let ends := (r = .aux ∧ pct < 10) ∨ (r = .io ∧ railOk r pct ∧ !old)
  let s := { s with power := { s.power with rails := rails, outsDriven := natBit rails 1, tripOut := s.power.tripOut && !ends } }
  if r = .aux ∧ pct < 10 then { s with power := { s.power with cause := 0 } }.fset F.TH_STAT_TRIP_CAUSE 0 0 else s

end State

open State

/-- SUPPLY_GOOD: the rising edge of PWR_GOOD is a device reset, and a power-up ends a trip (R388, R390, R391 step 1, R416). -/
def execSupplyGood (s : State) : Host.Outcome State Fault Refusal :=
  .next (if s.power.pwrGood then s
    else ({ s with power := { s.power with pwrGood := true, tripped := false } }.deviceReset s.power.cause).release)

/-- PWR_GOOD_FALL: a device reset; the device restarts at the next supply-good (R388, R390). -/
def execPwrGoodFall (s : State) : Host.Outcome State Fault Refusal :=
  .next (if s.power.pwrGood then { s with power := { s.power with pwrGood := false } }.deviceReset 1 else s)

/-- RESET_N: held low it resets the device; its release runs the timeline again, unless a trip or a scan instruction holds the
device (R390, R414). -/
def execResetN (low : Bool) (s : State) : Host.Outcome State Fault Refusal :=
  .next (
    if low then { s with power := { s.power with resetLow := true } }.deviceReset 2
    else if s.power.resetLow then
      { s with power := { s.power with resetLow := false, scanHeld := s.power.scanHeld || s.jtag.active } }.release
    else s)

/-- SUPPLY_DROP: VDD_CORE or VDD_HBM below 90 % resets the device as a falling edge of PWR_GOOD would (R416). -/
def execSupplyDrop (s : State) : Host.Outcome State Fault Refusal :=
  .next (if s.power.pwrGood then { s with power := { s.power with pwrGood := false } }.deviceReset 1 else s)

/-- PLL_LOCK: the timebase counts from 0 (R391 step 2). -/
def execPllLock (s : State) : Host.Outcome State Fault Refusal :=
  .next (if s.power.released then { s with power := { s.power with pll := true } } else s)

/-- BOOT_COMPLETE: the boot steps of R326 (R391 step 4). -/
def execBootComplete (s : State) : Host.Outcome State Fault Refusal :=
  .next (if s.power.pll && !s.power.boot then s.boot else s)

/-- HUB_RELEASE: the hubs are released and every EN tag of a sealed whitelist is due (R391 step 5, R398). -/
def execHubRelease (s : State) : Host.Outcome State Fault Refusal :=
  .next (if s.power.boot && !s.power.hubs then
      let s := forEach ((List.range 64).filter (fun k => s.flag F.ACT_ADV_WL0_EN k)) (fun k s =>
        s.setAdvTag k { s.advTag k with due := true }) s
      { s with power := { s.power with hubs := true } }
    else s)

/-- HBM_TRAINING_END: the pseudo-channels that failed training are retired (R391 step 6, R393). -/
def execHbmTrainingEnd (failed : W64) (s : State) : Host.Outcome State Fault Refusal :=
  .next (if s.power.hubs && !s.power.trained then s.trainEnd failed else s)

/-- MEMORY_READY: every in-service frame holds zeros, and HELD links enter ACTIVE (R391 steps 8 and 9, R394). -/
def execMemoryReady (s : State) : Host.Outcome State Fault Refusal :=
  .next (if s.power.trained && !s.power.memReady then
      ({ s with power := { s.power with memReady := true } }.fset F.KS_BOOT_T_MEM 0 s.msNow).heldActive
    else s)

/-- HOST_READY: configuration requests are completed and STATE reads READY, or RECOVERY; it waits for PERST# (R391 step 10,
R395, R401). -/
def execHostReady (s : State) : Host.Outcome State Fault Refusal :=
  .next (if s.power.memReady && !s.power.hostReady && !s.power.perst && decide (s.power.since ≤ s.ticks) then
      let s := { s with power := { s.power with hostReady := true } }.fset F.KS_BOOT_T_HOST 0 s.msNow
      if s.power.recovery then s else s.fset F.KS_STAT_STATE 0 1
    else s)

/-- PTP_SERVO_START: the servo starts on the port named by PTP_PORT (R391 step 7, R396). -/
def execPtpServoStart (s : State) : Host.Outcome State Fault Refusal :=
  .next (if s.power.hubs && !s.power.recovery && !s.power.servo then
      { s with power := { s.power with servo := true } }.fset F.KS_BOOT_PTP_RUN 0 1
    else s)

/-- PERST_ASSERT: the host side is reset while the device keeps running (R400). -/
def execPerstAssert (s : State) : Host.Outcome State Fault Refusal := .next (if s.power.perst then s else s.perst)

/-- PERST_DEASSERT: the link trains; configuration requests are completed from 20 ms after link-up, taken as this moment (R400;
log entry 60). -/
def execPerstDeassert (s : State) : Host.Outcome State Fault Refusal :=
  .next (if s.power.perst then { s with power := { s.power with perst := false, since := s.ticks + 5000000 } } else s)

/-- CONFIG_REQUEST: Configuration Request Retry Status before host-ready or the 20 ms, a normal completion after (R395, R400). -/
def execConfigRequest (s : State) : Host.Outcome State Fault Refusal :=
  .next (if s.power.perst || !s.power.released then s else s.emit (.config s.configOpen))

/-- PCIE_RETRAIN: a new rate or width changes LF, and a change of LF the capacities (R239, R252). -/
def execPcieRetrain (gts : Nat) (width : Nat) (s : State) : Host.Outcome State Fault Refusal :=
  .next (
    let lf := linkFactor gts width
    if !s.power.released || s.power.perst || lf == s.fget F.TG_SERVICE_LF 0 then s else (s.fset F.TG_SERVICE_LF 0 lf).recompute)

/-- SUPPLY_RAIL_CHANGE: a rail's new level in percent of nominal (R389, R412). -/
def execSupplyRailChange (rail : Rail) (percent : Nat) (s : State) : Host.Outcome State Fault Refusal :=
  .next (s.railLevel rail percent)

end Sys2Proof.Machine
end

