-- ==== Sys2Proof/Machine/RegView.lean ====
section
/-! DEFINITION. What a register access reaches and what a read returns: the map of BAR0 (R12-R14, R118), field types (R8,
R9), the values computed from other state, and what confidential mode hides (R346). -/

namespace Sys2Proof.Machine
namespace State

/-- Whether register `r`, index `k` is there: not in the window of a fused-off tile, not of a reserved source (R13, R62). -/
def regThere (s : State) (r : Reg) (k : Nat) : Bool :=
  let a := regOffset r k
  if 0x2000000 ≤ a then s.fused (a / 0x100000 % 16)
  else if 0x300000 ≤ a ∧ a < 0x301000 then srcListed k
  else true

/-- The BAR0 offset of the physical function that a VF's offset reaches: the registers and doorbells of the pairs it owns
and TRH_PART_STAT (R118). -/
def vfOffset (s : State) (p a : Nat) : Option Nat :=
  if a < 0x400 then
    let r := 16 * p + a / 0x40
    if s.flag F.TRH_RING_CFG_OWNER r then some (0x1000000 + r * 0x40 + a % 0x40) else none
  else if 0x10000 ≤ a ∧ a < 0x20000 then
    let r := 16 * p + (a - 0x10000) / 0x1000
    if s.flag F.TRH_RING_CFG_OWNER r then some (0x1200000 + r * 0x1000 + a % 0x1000) else none
  else if 0x20000 ≤ a ∧ a < 0x20004 then some (0x1004004 + p * 0x10 + (a - 0x20000))
  else none

/-- The register byte that an offset in a function's BAR0 reaches, if any (R12-R14, R118). -/
def regByte (s : State) (fn : Fn) (a : Nat) : Option (Reg × Nat × Nat) :=
  let o := match fn with
    | .pf => some a
    | .vf p => s.vfOffset p.val a
  match o.bind decodeAddr with
  | some (r, k, b) => if s.regThere r k then some (r, k, b) else none
  | none => none

/-- The bits of a register that read as stored: WO and reserved bits read 0 (R9). -/
def readMask (r : Reg) : W64 := regMask r .ro ||| regMask r .rw ||| regMask r .rw1c

/-- DK_TAGS word `w` of tile `t`: the tags of 32 slots, 0 outside TAGGED regions (R174). -/
def tagWord (s : State) (t w : Nat) : W64 :=
  BitVec.ofNat 64 (packFields ((List.range 32).map (fun b =>
    (1, if s.isFull t (32 * w + b) && (List.range 16).any (fun g => s.tagged t g && s.inRegion t g (32 * w + b) 1) then 1 else 0))))

/-- Whether the partition that owns a tile is confidential without consent, so that PT_RUN, PT_STAY, PT_NUM and DK_TAGS of
the tile read 0 (R346). -/
def tileHidden (s : State) (t : Nat) : Bool := (s.tileOwner t).any s.confid

/-- The value of register `r`, index `k`, with the fields that other state gives (R117, R174, R179, R186, R243, R309). -/
def regNow (s : State) (r : Reg) (k : Nat) : W64 :=
  let v := s.rget r k
  let put := fun (v : W64) (f : Fld) (x : Nat) => setBits v f.lo f.w x
  match r with
  | .TB_NOW => s.now.setWidth 64
  | .TRH_RING_STAT => put v F.TRH_RING_STAT_INFLIGHT (s.cmds.filter (fun c => c.ring == k)).length
  | .TRH_PART_STAT => put v F.TRH_PART_STAT_INFLIGHT (s.cmds.filter (fun c => c.part == k)).length
  | .DK_STAT => BitVec.ofNat 64 (packFields ((List.range 16).map (fun g => (1, s.fget F.DK_RGN_CFG_EN (rgnIdx k g)))))
  | .DK_TAGS => if s.tileHidden (k / 1024) then 0 else s.tagWord (k / 1024) (k % 1024)
  | .SEM_STAT => put v F.SEM_STAT_WAITERS (s.semWaiters k).length
  | .PT_STAT =>
    match s.tileOwner k with
    | some p => put (put v F.PT_STAT_PART p) F.PT_STAT_OWNED 1
    | none => v
  | .PT_RUN | .PT_STAY | .PT_NUM => if s.tileHidden k then 0 else v
  | .CS_CTX =>
    if s.fget F.CS_CTX_STATE k != 0 && s.confid (s.fget F.CS_CTX_PART k) then put (put v F.CS_CTX_OP 0) F.CS_CTX_STEPS 0 else v
  | .TG_STATUS => put v F.TG_STATUS_DERATE s.derate
  | .TG_SERVICE => put (put (put v F.TG_SERVICE_TILES_IN s.tilesIn) F.TG_SERVICE_LINKS_IN s.linksIn) F.TG_SERVICE_PC_IN s.pcIn
  | .DG_PART => put v F.DG_PART_HELD
      ((List.range 16).foldl (fun n t => if s.owns k t then max n (s.tile t).held.length else n) 0)
  | .ING_PORT_STAT =>
    if (k = 0x0C ∨ k = 0x0D) ∧ s.fuses.tapHold then put v F.ING_PORT_STAT_TX_HELD 1
    else if 0x30 ≤ k ∧ k ≤ 0x37 then put v F.ING_PORT_STAT_LINK 1 else v
  | _ => v

/-- The 32 bytes of a fault record (R262); a tile record of a confidential partition without consent shows INFO0 as 0
(R346). -/
def faultBytes (s : State) (f : FaultRec) : List Byte :=
  let hide := f.cls == 2 && decide (f.part < 8) && s.confid f.part
  leBytes 4 f.seq.toNat ++ leBytes 4 f.time.toNat ++ [f.wrap] ++ leBytes 1 f.cls ++ leBytes 1 f.action ++ leBytes 1 f.part ++
    leBytes 2 f.unit ++ leBytes 2 f.cause ++ leBytes 8 (if hide then 0 else f.info0.toNat) ++ leBytes 4 f.info1.toNat ++
    leBytes 2 f.ringTag ++ leBytes 2 f.rep

/-- A byte of the fault record area: the record of sequence number s lies at (s mod 256) × 0x20 (R261). -/
def faultByte (s : State) (o : Nat) : Byte :=
  match s.faults.find? (fun f => f.seq.toNat % 256 == o / 0x20) with
  | some f => (s.faultBytes f).getD (o % 0x20) 0
  | none => 0

/-- One byte that a read returns (R8, R9, R13, R118, R261). -/
def readByte (s : State) (fn : Fn) (a : Nat) : Byte :=
  match s.regByte fn a with
  | some (r, k, b) => BitVec.ofNat 8 ((s.regNow r k &&& readMask r).toNat / 256 ^ b)
  | none => if fn = .pf ∧ 0x708000 ≤ a ∧ a < 0x70A000 then s.faultByte (a - 0x708000) else 0

/-- The value a read of `n` bytes returns (R8). -/
def busRead (s : State) (fn : Fn) (a n : Nat) : Nat := leNat ((List.range n).map (fun i => s.readByte fn (a + i)))

end State
end Sys2Proof.Machine
end

