-- ==== Sys2Proof/Machine/RegWrite.lean ====
section
/-! DEFINITION. Register writes: by field type (R8-R10), by the rule of each register, under the TDISP lock (R339), and the
port configuration (R63). -/

namespace Sys2Proof.Machine
namespace State

/-- A write by field type: RW bits take the data, RW1C bits written 1 clear, all others keep (R9). -/
def fieldsWrite (s : State) (r : Reg) (k : Nat) (v : W64) : State :=
  s.rset r k ((s.rget r k &&& ~~~ (regMask r .rw ||| (regMask r .rw1c &&& v))) ||| (v &&& regMask r .rw))

/-- A write allowed only while the unit is not `busy`; otherwise it is discarded and recorded with CAUSE 3 (R46, R54, R71,
R90, R99, R103, R264). -/
def idleWrite (s : State) (r : Reg) (k : Nat) (v : W64) (busy : Bool) : State :=
  if busy then s.accessFault .pf 3 (regOffset r k) v else s.fieldsWrite r k v

/-- Whether a PARAM value is in the ranges of its source's class; bits of no field are 0, and the SSI fields bind in SSI
mode (R63). -/
def paramOk (n v : Nat) : Bool :=
  if n ≤ 0x07 then natBits v 0 2 != 3 && decide (80 ≤ natBits v 2 12) && decide (natBits v 2 12 ≤ 2500) && v / 2 ^ 15 == 0
  else if n ≤ 0x0B then natBits v 0 2 != 3 && v / 16 == 0
  else if n ≤ 0x0D then decide (v < 3)
  else if n ≤ 0x1F then v / 2 ^ 14 == 0 && (natBits v 0 1 == 0 || (decide (natBits v 4 3 ≤ 5) && decide (7 ≤ natBits v 7 5)))
  else if n ≤ 0x27 then decide (2 ≤ natBits v 2 6) && decide (7 ≤ natBits v 8 5)
  else if n ≤ 0x2A then decide (v < 256)
  else natBits v 0 2 != 0 && decide (v < 1024)

/-- OFF of a port written: a receiver that is held off drops what it has in progress, and one that is enabled counts from 0
(R63, R70; log entry 105). -/
def portOff (s : State) (n off : Nat) : State :=
  let was := s.fget F.ING_PORT_CFG_OFF n
  let s := s.fset F.ING_PORT_CFG_OFF n off
  if off = was then s else if off = 1 then s.portHeld n else s.setPort n { s.port n with count := 0 }

/-- A write of ING_PORT_CFG: OFF is taken; a PARAM out of range is not, and sets ERR (R63). -/
def portCfg (s : State) (n : Nat) (v : W64) : State :=
  if !(srcListed n) then s
  else
    let s := s.portOff n (getBits v 31 1)
    let p := getBits v 0 24
    if paramOk n p then s.fset F.ING_PORT_CFG_PARAM n p else s.fset F.ING_PORT_STAT_ERR n 1

/-- A write of BR_AL_STAT: the RW1C bits, then ARM, then DISARM; ARM of a slot with ACTION 0x1 discards the write
(R45, R46). -/
def alStatWrite (s : State) (k : Nat) (v : W64) : State :=
  if v.getLsbD 31 ∧ s.fget F.BR_AL_CFG_ACTION k = 1 then s.accessFault .pf 2 (regOffset .BR_AL_STAT k) v
  else
    let s := s.fieldsWrite .BR_AL_STAT k v
    let s := if v.getLsbD 31 then s.alarmArmBit k else s
    if v.getLsbD 30 then s.alarmDisarmBit k else s

/-- A write of BR_WIN_STAT: the RW1C bits, then ARM, then DISARM (R53, R54, R59). -/
def winStatWrite (s : State) (w : Nat) (v : W64) : State :=
  let s := s.fieldsWrite .BR_WIN_STAT w v
  let s := if v.getLsbD 31 then s.windowArm w else s
  if v.getLsbD 30 then s.windowDisarm w else s

/-- A write of ING_D_CTRL: the RW1C bits, then ARM, then DISARM; ARM with DEST 1 discards the write (R71, R74, R75). -/
def dCtrlWrite (s : State) (n : Nat) (v : W64) : State :=
  if v.getLsbD 31 ∧ s.flag F.ING_D_CFG_DEST n then s.accessFault .pf 2 (regOffset .ING_D_CTRL n) v
  else
    let s := s.fieldsWrite .ING_D_CTRL n v
    let s := if v.getLsbD 31 then s.descArmBit n else s
    if v.getLsbD 30 then s.descDisarm n else s

/-- A write of EXC_CH_CTRL: the command of CMD (R90, R92). -/
def excCtrlWrite (s : State) (c : Nat) (v : W64) : State :=
  match getBits v 30 2 with
  | 1 => excTurnOn c s
  | 2 => excTurnOff c s
  | 3 => excClear c s
  | _ => s

/-- A write of ACT_TRIG_CFG; a disabled output is inactive (R102). -/
def trigWrite (s : State) (t : Nat) (v : W64) : State :=
  let s := s.fieldsWrite .ACT_TRIG_CFG t v
  if v.getLsbD 31 then s else s.triggerEnd t

/-- A physical-function write of a ring register other than TRH_RING_CFG: read-only while OWNER is 1 (R117). -/
def ringPfWrite (s : State) (r : Reg) (k : Nat) (v : W64) (base : Bool) : State :=
  if s.flag F.TRH_RING_CFG_OWNER k then s else s.idleWrite r k v (base && s.ringState k != 0)

/-- A write of TAG_SHARE, discarded when the sum over all partitions would pass 512 (R117). -/
def shareTags (s : State) (p : Nat) (v : W64) : State :=
  let sum := (List.range 8).foldl (fun n q => n + if q = p then getBits v 0 10 else s.fget F.TRH_PART_CFG_TAG_SHARE q) 0
  s.idleWrite .TRH_PART_CFG p v (decide (512 < sum))

/-- A write of FLT_EVR_PTR: a HEAD that passes TAIL is ignored; room gives EVENTS_LOST (R264, R266). -/
def evrHeadWrite (s : State) (v : W64) : State :=
  let n := 2 ^ s.fget F.FLT_EVR_CFG_LOG2 0
  let h := getBits v 32 16
  let head := s.fget F.FLT_EVR_PTR_HEAD 0
  if h < n ∧ (h + n - head) % n ≤ (s.fget F.FLT_EVR_PTR_TAIL 0 + n - head) % n then
    (s.fset F.FLT_EVR_PTR_HEAD 0 h).eventsLost
  else s

/-- A write of CW_LINK_CTRL: RESTORE, then DISABLE (R290). -/
def linkCtrlWrite (s : State) (l : Nat) (v : W64) : State :=
  let s := if v.getLsbD 31 then s.linkRestore l else s
  if v.getLsbD 30 then s.linkDisable l else s

/-- A write of KS_FW_CTRL by its CMD; another value starts no command (R328). -/
def fwCtrlWrite (s : State) (v : W64) : State :=
  let w : W32 := v.setWidth 32
  match getBits v 28 4 with
  | 1 => s.fwStage w
  | 2 => s.fwCtrl 2 w State.fwLive
  | 3 => s.fwCtrl 3 w State.fwAtReset
  | 4 => s.fwCtrl 4 w State.fwCommit
  | 5 => s.fwCtrl 5 w State.fwDrop
  | _ => s.fieldsWrite .KS_FW_CTRL 0 v

/-- The partition whose TDISP lock covers a register: the PART of its unit (R339). -/
def lockPart (s : State) (r : Reg) (k : Nat) : Option Nat :=
  match r with
  | .BR_AL_CFG | .BR_AL_TARGET | .BR_AL_PERIOD | .BR_AL_STAT => some (s.fget F.BR_AL_CFG_PART k)
  | .BR_WIN_CFG | .BR_WIN_STAT | .BR_WIN_OWN => some (s.fget F.BR_WIN_OWN_PART k)
  | .ING_D_CFG | .ING_D_SEL | .ING_D_DATA | .ING_D_REC | .ING_D_CTRL | .ING_D_PTR | .ING_D_RPTR => some (s.fget F.ING_D_CFG_PART k)
  | .EXC_CH_CFG | .EXC_CH_LIM | .EXC_CH_CTRL | .EXC_CH_STAT => some (s.fget F.EXC_CH_CFG_PART k)
  | .ACT_GRP_CFG | .ACT_GRP_STAT => some (s.fget F.ACT_GRP_CFG_PART k)
  | .ACT_TRIG_CFG => some (s.fget F.ACT_TRIG_CFG_PART k)
  | .ACT_DQ_CFG | .ACT_DQ_SRC | .ACT_DQ_STAT => some (s.fget F.ACT_DQ_CFG_PART k)
  | .ACT_ADV_SRC | .ACT_ADV_TSTAT => some (s.fget F.ACT_ADV_WL0_PART k)
  | .TRH_RING_CFG | .TRH_SQ_BASE | .TRH_CQ_BASE | .TRH_RING_STAT | .TRH_RING_IRQ | .TRH_RING_PTR => some (k / 16)
  | .SEM_CFG | .SEM_STAT => some (s.fget F.SEM_CFG_PART k)
  | .PT_STAT => s.tileOwner k
  | .CW_GRANT => some (s.fget F.CW_GRANT_PART k)
  | .CS_PART_VAULT => some k
  | _ => none

/-- A write of a whole register by the physical function, by the rule of its register, else by field type (R9). -/
def pfWrite (s : State) (r : Reg) (k : Nat) (v : W64) : State :=
  let w : W32 := v.setWidth 32
  match r with
  | .TB_INC => s.incWrite w
  | .TB_STEP => s.stepWrite w
  | .BR_CH_CFG => s.channelCfg k w
  | .BR_AL_CFG | .BR_AL_TARGET | .BR_AL_PERIOD => s.idleWrite r k v (s.flag F.BR_AL_STAT_ARMED k)
  | .BR_AL_STAT => s.alStatWrite k v
  | .BR_WIN_CFG | .BR_WIN_OWN => s.idleWrite r k v (s.flag F.BR_WIN_STAT_ARMED k)
  | .BR_WIN_STAT => s.winStatWrite k v
  | .ING_PORT_CFG => s.portCfg k v
  | .ING_D_CFG | .ING_D_SEL | .ING_D_DATA | .ING_D_REC => s.idleWrite r k v (s.fget F.ING_D_CTRL_STATE k != 0)
  | .ING_D_CTRL => s.dCtrlWrite k v
  | .EXC_CH_CFG | .EXC_CH_LIM => s.idleWrite r k v (s.fget F.EXC_CH_STAT_STATE k != 0 && s.fget F.EXC_CH_STAT_STATE k != 4)
  | .EXC_CH_CTRL => s.excCtrlWrite k v
  | .ACT_PWM_CFG => s.pwmCfgWrite k w
  | .ACT_PWM_PERIOD | .ACT_PWM_SAFE => s.idleWrite r k v (s.flag F.ACT_PWM_CFG_EN k)
  | .ACT_GRP_CFG => s.grpCfgWrite k w
  | .ACT_TRIG_CFG => s.trigWrite k v
  | .ACT_DQ_CFG => s.dqCfgWrite k w
  | .ACT_DQ_SRC => s.idleWrite r k v (s.flag F.ACT_DQ_CFG_EN k)
  | .ACT_ADV_SRC => s.advSrcWrite k w
  | .TRH_RING_CFG => s.ringCfgWrite .pf k w
  | .TRH_SQ_BASE | .TRH_CQ_BASE => s.ringPfWrite r k v true
  | .TRH_RING_STAT | .TRH_RING_IRQ => s.ringPfWrite r k v false
  | .TRH_PART_CFG => s.shareTags k v
  | .TRH_DB_SQ => s.doorbell .pf k 0 (v.setWidth 16) (dbSq k (v.setWidth 16))
  | .TRH_DB_CQ => s.doorbell .pf k 4 (v.setWidth 16) (dbCq .pf k (v.setWidth 16))
  | .DK_RGN_CFG => s.rgnWrite (k / 16) (k % 16) v
  | .SEM_CFG => s.semWrite k v
  | .FLT_EVR_CFG => s.evrCfgWrite w
  | .FLT_EVR_BASE => s.idleWrite r k v (s.flag F.FLT_EVR_CFG_EN 0)
  | .FLT_EVR_PTR => s.evrHeadWrite v
  | .CW_NODE => s.nodeWrite v
  | .CW_EXPORT => s.exportWrite v
  | .CW_GRANT => s.grantWrite k v
  | .CW_LINK_CTRL => s.linkCtrlWrite k v
  | .EVC_CTRL => s.evcCtrl w
  | .EVC_CFG => s.evcCfg k w
  | .KS_FW_CTRL => s.fwCtrlWrite v
  | .KS_DBG_CTRL => s.debugWrite w
  | .CS_PART_VAULT => s.shareWrite k v
  | .TH_CFG => s.idleWrite r k v (getBits v 30 2 == 3)
  | .TH_RTH => s.idleWrite r k v (getBits v 16 16 == 0 || getBits v 0 16 == 0)
  | _ => s.fieldsWrite r k v

/-- A write of a whole register by a virtual function, in its own window (R118). -/
def vfWrite (s : State) (p : Fin 8) (off : Nat) (r : Reg) (k : Nat) (v : W64) : State :=
  match r with
  | .TRH_RING_CFG => s.ringCfgWrite (.vf p) k (v.setWidth 32)
  | .TRH_SQ_BASE | .TRH_CQ_BASE =>
    if s.ringState k ≠ 0 then s.accessFault (.vf p) 3 off v else s.fieldsWrite r k v
  | .TRH_RING_STAT | .TRH_RING_IRQ => s.fieldsWrite r k v
  | .TRH_DB_SQ => s.doorbell (.vf p) k 0 (v.setWidth 16) (dbSq k (v.setWidth 16))
  | .TRH_DB_CQ => s.doorbell (.vf p) k 4 (v.setWidth 16) (dbCq (.vf p) k (v.setWidth 16))
  | _ => s

/-- A write of one register's own width at its first byte (R8), under the TDISP lock (R339). -/
def wholeWrite (s : State) (fn : Fn) (a : Nat) (r : Reg) (k : Nat) (v : W64) : State :=
  match fn with
  | .pf => if (s.lockPart r k).any s.tdiLocked then s.accessFault .pf 2 a v else s.pfWrite r k v
  | .vf p => s.vfWrite p a r k v

/-- A write of `width` bits at an offset of a function's BAR0: by its register's rule, discarded and recorded when it
touches a register in another way, ignored elsewhere, the fault record area of R261 included (R8, R13, R118; log entry 66). -/
def busWrite (s : State) (fn : Fn) (a width : Nat) (data : W64) : State :=
  let v := BitVec.ofNat 64 (data.toNat % 2 ^ width)
  match s.regByte fn a with
  | some (r, k, 0) => if (regPlace r).width = width then s.wholeWrite fn a r k v else s.accessFault fn 1 a v
  | _ => if (List.range (ceilDiv width 8)).any (fun i => (s.regByte fn (a + i)).isSome) then s.accessFault fn 1 a v else s

/-- When a write reaches the device: the KS_ window from the end of boot, in RECOVERY too; all else from host-ready (R326,
R391, R392, R395). -/
def reach (s : State) (fn : Fn) (a : Nat) (t : State) : State :=
  if fn = .pf ∧ a < 0x100000 then (if s.fget F.KS_STAT_STATE 0 = 0 then s else t) else s.bar t

end State

open State

/-- PORT_CFG_WRITE: a write of ING_PORT_CFG (R63). -/
def execPortCfgWrite (n : Fin 64) (v : W32) (s : State) : Host.Outcome State Fault Refusal :=
  .next (s.bar (s.portCfg n.val (v.setWidth 64)))

/-- REGISTER_WRITE: a bus write of any width at an offset of a function's BAR0 (R8-R10, R12-R14); a wider write than 64 bits
carries its lowest 64 in the command, which is all that a discarded write leaves in its record. -/
def execRegisterWrite (fn : Fn) (addr width : Nat) (data : W64) (s : State) : Host.Outcome State Fault Refusal :=
  .next (s.reach fn addr (s.busWrite fn addr width data))

end Sys2Proof.Machine
end

