-- ==== Sys2Proof/Machine/Serving.lean ====
section
/-! DEFINITION. The Span scheduler of a serving run: the batch table and its step boundaries (R207-R212). -/

namespace Sys2Proof.Machine
namespace State

/-- A row of the batch table (R207), as its 64 bytes. -/
abbrev Row := List Byte

/-- Bytes with a little-endian field replaced. -/
def setLe (b : List Byte) (o n v : Nat) : List Byte := b.take o ++ leBytes n v ++ b.drop (o + n)

def rowState (r : Row) : Nat := leField r 0 1
def rowClass (r : Row) : Nat := leField r 1 1
def rowPt (r : Row) : Nat := leField r 8 8
def rowSum (r : Row) : Nat := leField r 16 8
def rowPos (r : Row) : Nat := leField r 24 4
def rowMax (r : Row) : Nat := leField r 28 4
def rowOut (r : Row) : Nat := leField r 32 8
def rowSteps (r : Row) : Nat := leField r 40 4
def setRowState (r : Row) (v : Nat) : Row := setLe r 0 1 v

/-- The header's lock, rows, and LPG and largest MAXPOS of a class (R207). -/
def hdrLock (h : List Byte) : Nat := natBits (leField h 0 2) 0 13
def hdrRows (h : List Byte) : Nat := min (leField h 4 2) 256
def hdrLpg (h : List Byte) (c : Nat) : Nat := natBits (leField h (8 + 8 * c) 4) 0 4
def hdrMax (h : List Byte) (c : Nat) : Nat := leField h (12 + 8 * c) 4

/-- The outcome of a check of a row: it passed, it failed, or the access it makes ended with a status or must wait. -/
inductive Checked where
  | pass | fail | access (status : Nat)
  deriving DecidableEq, Repr

/-- The JOIN checks of a row, the first page table entry among them (R208). -/
def joinOk (s : State) (r : Run) (h : List Byte) (x : Row) : Checked × State :=
  let ok := decide (rowClass x ≤ 3) && decide (rowPos x < rowMax x) && decide (rowMax x ≤ hdrMax h (rowClass x)) &&
    [rowPt x, rowSum x, rowOut x].all (fun a => a % 256 == 0 && s.hbmCheck r.part a 8 == 0)
  if !ok then (.fail, s)
  else match s.hbmRead r.part 1 (runRt r) (rowPt x) 8 with
    | (0, bs, s) => (if natBits (leNat bs) 40 4 = hdrLpg h (rowClass x) then .pass else .fail, s)
    | (st, _, s) => (.access st, s)

/-- Rows checked one after the other by `f`: the new rows, whether one became ERROR, and a status that ends the visit. -/
def overRows (f : Row → State → Row × Checked × State) : List Row → State → List Row × Bool × Nat × State
  | [], s => ([], false, 0, s)
  | x :: xs, s =>
    match f x s with
    | (y, .access st, s) => (y :: xs, false, st, s)
    | (y, c, s) =>
      let (ys, e, st, s) := overRows f xs s
      (y :: ys, c == .fail || e, st, s)

/-- The re-check of a row after an ABANDONED grant: a STATE above 5 becomes ERROR, and so does a RUNNING row that fails the JOIN
checks (R210). -/
def recheckRow (r : Run) (h : List Byte) (x : Row) (s : State) : Row × Checked × State :=
  if 5 < rowState x then (setRowState x 5, .fail, s)
  else if rowState x = 2 then
    match s.joinOk r h x with
    | (.fail, s) => (setRowState x 5, .fail, s)
    | (c, s) => (x, c, s)
  else (x, .pass, s)

/-- A row visited at a boundary: LEAVE becomes DONE, a JOIN is checked and one that fails becomes ERROR; one that passes is marked
here and placed by `placeRows` (R208). -/
def visitRow (r : Run) (h : List Byte) (x : Row) (s : State) : Row × Checked × State :=
  match rowState x with
  | 1 =>
    match s.joinOk r h x with
    | (.fail, s) => (setRowState x 5, .fail, s)
    | (c, s) => (x, c, s)
  | 3 => (setRowState x 4, .pass, s)
  | _ => (x, .pass, s)

/-- The JOIN rows left after their checks, in ascending index, become RUNNING while fewer than `b` rows are; `n` are so far
(R208). -/
def placeRows (b : Nat) : Nat → List Row → List Row
  | _, [] => []
  | n, x :: xs => if rowState x = 1 ∧ n < b then setRowState x 2 :: placeRows b (n + 1) xs else x :: placeRows b n xs

/-- Whether a row is RUNNING. -/
def rowRuns (x : Row) : Bool := rowState x == 2

/-- The rows at a boundary: re-checked all first after an ABANDONED grant, then visited, then placed (R208, R210). -/
def visitRows (s : State) (r : Run) (h : List Byte) (ab : Bool) (rows : List Row) : List Row × Bool × Nat × State :=
  match if ab then overRows (recheckRow r h) rows s else (rows, false, 0, s) with
  | (rows, e, 0, s) =>
    let (ys, e2, st, s) := overRows (visitRow r h) rows s
    (placeRows (r.dims.getD 1 0) (ys.countP rowRuns) ys, e || e2, st, s)
  | o => o

/-- A row advanced by the step just ended: its output appended, POS and STEPS up by 1, DONE at MAXPOS or where the model
ends it, ERROR where its page table failed in the step (R208; log entry 19). -/
def advanceRow (r : Run) (i : Nat) (x : Row) (s : State) : Row × Checked × State :=
  if rowState x = 2 ∨ rowState x = 3 then
    let bs := Config.rowOutput r.steps i
    let a := rowOut x + rowSteps x * bs.length
    match if bs.isEmpty then (0, s) else if s.hbmCheck r.part a bs.length = 0 then s.hbmWrite r.part (runRt r) a bs else (0x0201, s) with
    | (0, s) =>
      let x := setLe (setLe x 24 4 (rowPos x + 1)) 40 4 (rowSteps x + 1)
      if r.failed.contains i then (setRowState x 5, .fail, s)
      else (if decide (rowMax x ≤ rowPos x) || Config.rowEnds r.steps i then setRowState x 4 else x, .pass, s)
    | (st, s) => if st = waiting then (x, .access st, s) else (setRowState x 5, .fail, s)
  else (x, .pass, s)

/-- All rows advanced. -/
def advanceRows (r : Run) : Nat → List Row → State → List Row × Bool × Nat × State
  | _, [], s => ([], false, 0, s)
  | i, x :: xs, s =>
    match advanceRow r i x s with
    | (y, .access st, s) => (y :: xs, false, st, s)
    | (y, c, s) =>
      let (ys, e, st, s) := advanceRows r (i + 1) xs s
      (y :: ys, c == .fail || e, st, s)

/-- Bytes cut into rows of 64. -/
def rowsOf (b : List Byte) : Nat → List Row
  | 0 => []
  | n + 1 => (b.take 64) :: rowsOf (b.drop 64) n

/-- The rows of a batch table read from HBM: a status, the rows. -/
def readRows (s : State) (r : Run) (a : Nat) (h : List Byte) : Nat × List Row × State :=
  if hdrRows h = 0 then (0, [], s)
  else match s.hbmRead r.part 1 (runRt r) (a + 64) (64 * hdrRows h) with
    | (st, bs, s) => (st, rowsOf bs (hdrRows h), s)

/-- The rows written back. -/
def writeRows (s : State) (r : Run) (a : Nat) (rows : List Row) : State :=
  if rows.isEmpty then s else (s.hbmWrite r.part (runRt r) (a + 64) rows.flatten).2

/-- The step just ended, applied once before the boundary takes its lock (R208). -/
def stepRows (s : State) (r : Run) (a : Nat) (h : List Byte) : Nat × State :=
  if !r.stepping then (0, s)
  else match s.readRows r a h with
    | (0, rows, s) =>
      match advanceRows r 0 rows s with
      | (ys, bad, 0, s) =>
        (0, (s.writeRows r a ys).modRun r.id (fun r => { r with stepping := false, failed := [], warn := r.warn || bad }))
      | (_, _, st, s) => (st, s)
    | (st, _, s) => (st, s)

/-- An access of the scheduler ended with a status: it waits where that says so, and else ends the run (R28, R29, R208). -/
def boundaryFail (s : State) (r : Run) (st : Nat) (t : State) : State := if st = waiting then s else t.runStop r.id st

/-- The boundary under the lock: the rows visited, the lock released, and the run ended or the next step begun
(R208, R210). -/
def boundary (s : State) (r : Run) (t a : Nat) (h : List Byte) : State :=
  let ab := s.flag F.SEM_STAT_ABANDONED (hdrLock h)
  match s.readRows r a h with
  | (0, rows, s1) =>
    match s1.visitRows r h ab rows with
    | (ys, e, 0, s) =>
      let s := (s.writeRows r a ys).lockRelease (hdrLock h)
      let s := s.modTile t (fun y => { y with reqDone := false, locks := y.locks.filter (· != hdrLock h) })
      let s := s.modRun r.id (fun r => { r with warn := r.warn || e || ab })
      match s.runOf r.id with
      | some r =>
        if !(ys.any rowRuns) || decide (r.dims.getD 0 0 ≤ r.steps) then s.endRun r
        else s.modRun r.id (fun r => { r with steps := r.steps + 1, stepping := true })
      | none => s
    | (_, _, st, s2) => s.boundaryFail r st s2
  | (st, _, s1) => s.boundaryFail r st s1

/-- A step boundary on the lead tile: the step's rows, then the lock, then the rows (R208). A boundary that waits for a path after
its lock was granted keeps the grant. -/
def batchBoundary (s : State) (r : Run) (t : Nat) (b : BufDesc) : State :=
  match s.hbmRead r.part 1 (runRt r) b.addr 64 with
  | (0, h, s1) =>
    match s1.stepRows r b.addr h with
    | (0, s) =>
      let n := hdrLock h
      let r := (s.runOf r.id).getD r
      if !(s.semOk n r.part) then s.runStop r.id 0x0400
      else if !(s.semLock n) || (s.lockHeldBy n 1 t && !((s.tile t).reqDone)) then s.runStop r.id 0x0501
      else if (s.tile t).reqDone then s.boundary r t b.addr h
      else match s.semRequest n { who := .tile t, acquire := true } with
        | (true, s) => (s.modTile t (fun y => { y with reqDone := true })).boundary r t b.addr h
        | (false, s) => s.waitSem t r.part n
    | (st, s2) => s.boundaryFail r st s2
  | (st, _, s1) => s.boundaryFail r st s1

end State

/-- BATCH_BOUNDARY: the Span scheduler's preamble before a step, on the lead tile of a run whose buffer 0 is a batch
table, at the start of a span (R207-R210). -/
def execBatchBoundary (t : Fin 16) (s : State) : Host.Outcome State Fault Refusal :=
  .next (s.gated (s.tilePart t.val) (.batchBoundary t) (match s.current t.val with
    | none => s
    | some x =>
      match x.r.bufs[0]? with
      | some b =>
        if x.r.lead = t.val ∧ b.kind = 1 ∧ 64 ≤ b.count ∧ s.fget F.PT_RUN_INDEX t.val = (s.tile t.val).spanFrom ∧
            (s.tile t.val).moved = 0 then s.batchBoundary x.r t.val b
        else s
      | none => s))

end Sys2Proof.Machine
end

