-- ==== Sys2Proof/Machine/TestAccess.lean ====
section
/-! DEFINITION. The IEEE 1149.1 test access port (R413, R414). -/

namespace Sys2Proof.Machine
namespace State

/-- IDCODE (R413): the stepping ordinal counts A0, A1, B0, B1 and so on (log entry 63). -/
def idcode (s : State) : W32 :=
  let step := s.fuses.stepping / 16 % 8 * 2 + s.fuses.stepping % 2
  BitVec.ofNat 32 (step % 16 * 2 ^ 28 + 0x4A14 * 2 ^ 12 + Config.jedec.toNat * 2 + 1)

/-- A scan instruction loaded: it takes effect only while RESET_N is held low, and acts as BYPASS otherwise (R414). -/
def scanLoad (s : State) (code : Nat) : State := { s with jtag := { ir := code, active := s.power.resetLow } }

/-- An instruction without effect on the pins loaded: a scan instruction in effect ends (R413). -/
def plainLoad (s : State) (code : Nat) : State := { s with jtag := { ir := code, active := false } }

end State

open State

/-- EXTEST (R414). -/
def execJtagExtest (s : State) : Host.Outcome State Fault Refusal := .next (s.scanLoad 0x00)
/-- IDCODE: the identification register is selected (R413). -/
def execJtagIdcode (s : State) : Host.Outcome State Fault Refusal := .next ((s.plainLoad 0x01).emit (.tdo 0x01 s.idcode))
/-- SAMPLE/PRELOAD (R413). -/
def execJtagSamplePreload (s : State) : Host.Outcome State Fault Refusal := .next (s.plainLoad 0x02)
/-- CLAMP (R414). -/
def execJtagClamp (s : State) : Host.Outcome State Fault Refusal := .next (s.scanLoad 0x03)
/-- HIGHZ (R414). -/
def execJtagHighz (s : State) : Host.Outcome State Fault Refusal := .next (s.scanLoad 0x04)
/-- EXTEST_PULSE (R414). -/
def execJtagExtestPulse (s : State) : Host.Outcome State Fault Refusal := .next (s.scanLoad 0x05)
/-- EXTEST_TRAIN (R414). -/
def execJtagExtestTrain (s : State) : Host.Outcome State Fault Refusal := .next (s.scanLoad 0x06)
/-- BYPASS (R413). -/
def execJtagBypass (s : State) : Host.Outcome State Fault Refusal := .next (s.plainLoad 0xFF)

/-- TEST_LOGIC_RESET: IDCODE is the instruction again, and a device held in reset by a scan instruction is released (R413,
R414). -/
def execTestLogicReset (s : State) : Host.Outcome State Fault Refusal :=
  .next (({ s with jtag := {}, power := { s.power with scanHeld := false } } : State).release)

end Sys2Proof.Machine
end

