-- ==== Sys2Proof/Machine/Thermal.lean ====
section
/-! DEFINITION. Thermal sensing, the estimator and cap, throttle and shutdown (R375-R383). -/

namespace Sys2Proof.Machine
namespace State

/-- PMAX of the declared cooling class, in 0.1 W (R376). -/
def pMax (s : State) : Nat :=
  match s.fget F.TH_CFG_CLASS 0 with
  | 0 => s.tdp
  | 1 => s.tdp * 8 / 10
  | _ => s.tdp * 5 / 10

/-- FALLBACK in 1/16 °C (R376, R381). -/
def fallbackTemp (s : State) : Int := s.fget F.TH_CFG_FALLBACK 0 * 16

/-- The inlet temperature in use: the sensor's last good reading, or FALLBACK (R375, R376). -/
def inletNow (s : State) : Int :=
  if s.flag F.TH_CFG_INLET_SRC 0 || s.flag F.TH_STAT_INLET_LOST 0 then s.fallbackTemp else s.thermal.inletGood.getD s.fallbackTemp

/-- TH_INLET as a new inlet temperature leaves it. -/
def setInlet (s : State) : State := s.fset F.TH_INLET_T_IN 0 (ofSigned 16 s.inletNow)

/-- Whether tile `t` has a sensor in use (R375). -/
def tileIn (s : State) (t : Nat) : Bool := s.fused t && !(s.retired t)

/-- The mean of a list of integers, toward minus infinity (log entry 61). -/
def meanInt (l : List Int) : Int := if l = [] then 0 else l.foldl (· + ·) 0 / l.length

/-- The sensors at or above a point of their kind, in order: 0-3 stacks, 0x10 + n tiles, with their temperatures (R380, R382). -/
def above (s : State) (stack die : Int) (st tl : List Int) : List (Nat × Int) :=
  (st.zipIdx.filter (fun (x, _) => decide (stack ≤ x))).map (fun (x, k) => (k, x)) ++
    (tl.zipIdx.filter (fun (x, t) => s.tileIn t && decide (die ≤ x))).map (fun (x, t) => (0x10 + t, x))

/-- A THERMAL record (R382). -/
def thermalFault (s : State) (unit cause : Nat) (temp : Int) : State :=
  s.fault { cls := 0xD, unit := unit, cause := cause, info0 := BitVec.ofInt 64 temp
            info1 := BitVec.ofNat 32 (s.fget F.TH_POWER_P_CAP 0) }

/-- A temperature as an event argument carries it. -/
def tempArg (t : Int) : Nat := ofSigned 64 t

/-- The throttle of a sample (R380, R382). -/
def throttle (s : State) (st tl : List Int) : State :=
  match s.above 1520 1680 st tl with
  | (n, t) :: _ =>
    if s.flag F.TH_STAT_THROTTLE 0 then s
    else ((s.fset F.TH_STAT_THROTTLE 0 1).thermalFault n 1 t).event 0x0200 0xFF n (tempArg t) s.derate
  | [] => s

/-- The shutdown of a sample: imminent at the first, a trip at the third in a row (R381, R382). -/
def shutdown (s : State) (st tl : List Int) : State :=
  match s.above 1680 1840 st tl with
  | [] => { s with thermal := { s.thermal with shut := 0 } }
  | (n, t) :: _ =>
    let k := s.thermal.shut + 1
    let s := { s with thermal := { s.thermal with shut := k } }
    if k = 1 then (s.thermalFault n 3 t).event 0x0204 0xFF n (tempArg t) 0
    else if k = 3 then s.trip (if n < 0x10 then 1 else 2)
    else s

/-- One 1 ms sample of every sensor in use (R375, R380, R381). -/
def sample (s : State) (st tl : List Int) (power : Int) : State :=
  let s := forEach st.zipIdx (fun (x, k) s => s.fset F.TH_STACK_TEMP k (ofSigned 16 x)) s
  let s := forEach (tl.zipIdx.filter (fun (_, t) => s.tileIn t)) (fun (x, t) s => s.fset F.TH_TILE_TEMP t (ofSigned 16 x)) s
  let hot := (tl.zipIdx.filter (fun (_, t) => s.tileIn t)).map (·.1)
  let s := match hot with
    | x :: xs => s.fset F.TH_DIE_TEMP 0 (ofSigned 16 (xs.foldl max x))
    | [] => s
  let tin := toSigned 16 (s.fget F.TH_INLET_T_IN 0)
  let w := s.thermal.window ++ [(st, tl, tin, power)]
  let w := w.drop (w.length - 1000)
  let s := { s with thermal := { s.thermal with window := w } }
  let s := s.fset F.TH_POWER_P_NOW 0 (meanInt ((w.drop (w.length - 100)).map (·.2.2.2))).toNat
  let s : State := s.throttle st tl
  let s := if s.derate < 1024 ∨ s.flag F.TH_STAT_THROTTLE 0 then s.count 0x1A0 none none 1 else s
  s.shutdown st tl

/-! The estimator (R377, R378; log entry 62 for the rounding of each F32 step) -/

/-- An exact quotient of integers as F32. -/
def ratF32 (n : Int) (d : Nat) : W32 := f32Div (toF32 (numOfInt n 0)) (toF32 (numOfInt d 0))

/-- The mean of a window column, in F32, of values in units of 1/`unit`. -/
def meanF32 (l : List Int) (unit : Nat) : W32 := ratF32 (l.foldl (· + ·) 0) (l.length * unit)

/-- A nominal resistance of `n` units of 0.001 °C/W, in F32. -/
def nominal (n : Nat) : W32 := ratF32 n 1000

/-- The value of a finite F32 word times `k`, toward minus infinity. -/
def floorTimes (k : Nat) (a : W32) : Int :=
  match f32Val a with
  | .fin neg m e =>
    let x := if 0 ≤ e then m * k * 2 ^ e.toNat else m * k / 2 ^ (-e).toNat
    let exact := decide (0 ≤ e) || m * k % 2 ^ (-e).toNat == 0
    if neg then (if exact then -(x : Int) else -(x : Int) - 1) else x
  | _ => 0

/-- An estimate in units of 0.001 °C/W for its register, to nearest, within 16 bits (R381; log entry 62). -/
def estUnits (a : W32) : Nat := min 65535 ((floorTimes 2000 a + 1) / 2).toNat

/-- The mean temperatures of the window in 1/16 °C: stacks, then the hottest in-service tile with its number (R377). -/
def windowMeans (s : State) : List W32 × Nat :=
  let w := s.thermal.window
  let four := (List.range 4).map (fun k => meanF32 (w.map (fun x => x.1.getD k 0)) 16)
  let sums := ((List.range 16).filter s.tileIn).map (fun t => ((w.map (fun x => x.2.1.getD t 0)).foldl (· + ·) 0, t))
  match sums with
  | [] => (four ++ [0#32], 0)
  | x :: xs =>
    let hot := xs.foldl (fun a b => if a.1 < b.1 then b else a) x
    (four ++ [meanF32 (w.map (fun x => x.2.1.getD hot.2 0)) 16], hot.2)

/-- The estimates of the window: stacks 0 to 3, then the die; kept when the mean power is below 0.1 × TDP (R377). -/
def estimates (s : State) (noms : List W32) : List W32 :=
  let w := s.thermal.window
  let old := if s.thermal.est = [] then noms else s.thermal.est
  let p := meanF32 (w.map (·.2.2.2)) 10
  if w.length < 1000 then noms
  else if (w.map (·.2.2.2)).foldl (fun (a b : Int) => a + b) 0 * 10 < ((s.tdp * w.length : Nat) : Int) then old
  else s.windowMeans.1.map (fun t => f32Div (f32Sub t (meanF32 (w.map (·.2.2.1)) 16)) p)

/-- The cap in 0.1 W (R377). -/
def powerCap (s : State) (ests noms : List W32) : Nat :=
  let tin := meanF32 (s.thermal.window.map (·.2.2.1)) 16
  let lims := (ests.zip noms).zipIdx.map (fun ((e, n), k) =>
    f32Div (f32Sub (toF32 (numOfInt (if k < 4 then 95 else 105) 0)) tin) (f32Max e n))
  let m := match lims with
    | x :: xs => xs.foldl f32Min x
    | [] => 0#32
  let cap := floorTimes 10 (f32Sub m (toF32 (numOfInt (s.fget F.TH_CFG_MARGIN 0) 0)))
  min s.pMax (max (s.fget F.TH_STATIC_P_STATIC 0) cap.toNat)

/-- DERATE_t of a cap (R378). -/
def derateTarget (s : State) (cap : Nat) : Nat :=
  min 1024 (1024 * (cap - s.fget F.TH_STATIC_P_STATIC 0) / (s.pMax - s.fget F.TH_STATIC_P_STATIC 0))

/-- DERATE after an evaluation: down at once, up by at most 64 (R378). -/
def derateNext (old target : Nat) : Nat := if target < old then target else min target (old + 64)

/-- DERATE changed, with its record and event, and the capacities recomputed (R252, R311, R378). -/
def setDerate (s : State) (d : Nat) : State :=
  if d = s.derate then s
  else (((s.fset F.TH_STAT_DERATE 0 d).traceEv 0x2A 0xC0 none [(16, d)]).count 0x1A1 none none 1).recompute

/-- RTH_HIGH: the sensors whose estimate exceeds 1.5 × nominal, an event for each that newly does (R381, R382). -/
def rthHigh (s : State) (ests noms : List W32) (hot : Nat) : State :=
  let hi := ((ests.zip noms).zipIdx.filter (fun ((e, n), _) => f32Lt (f32Mul (toF32 (numOfInt 3 (-1))) n) e)).map (·.2)
  let s1 := if hi = [] then s else s.fset F.TH_STAT_RTH_HIGH 0 1
  let s2 := forEach (hi.filter (fun k => !(s.thermal.high.contains k))) (fun k s1 =>
    s1.event 0x0203 0xFF (if k < 4 then k else 0x10 + hot) (estUnits (ests.getD k 0))
      (if k < 4 then s.fget F.TH_RTH_RTH_HBM 0 else s.fget F.TH_RTH_RTH_DIE 0)) s1
  { s2 with thermal := { s2.thermal with high := hi } }

/-- One evaluation of the most recent window (R377, R378). -/
def evaluate (s : State) : State :=
  let s := s.setInlet
  let noms := List.replicate 4 (nominal (s.fget F.TH_RTH_RTH_HBM 0)) ++ [nominal (s.fget F.TH_RTH_RTH_DIE 0)]
  let ests := s.estimates noms
  let cap := s.powerCap ests noms
  let valid := decide (1000 ≤ s.thermal.window.length)
  let s := if valid then
      let s := forEach (List.range 4) (fun k s => s.fset F.TH_STACK_RTH_EST k (estUnits (ests.getD k 0))) s
      let s := (s.fset F.TH_DIE_RTH_EST 0 (estUnits (ests.getD 4 0))).fset F.TH_STAT_EST_VALID 0 1
      { s with thermal := { s.thermal with est := ests } }.rthHigh ests noms s.windowMeans.2
    else s
  let s := s.fset F.TH_POWER_P_CAP 0 cap
  s.setDerate (derateNext s.derate (s.derateTarget cap))

/-- Whether every sensor in use has been at least 3 °C below its throttle point in each sample of the last 1 s (R380). -/
def cooled (s : State) : Bool :=
  let tiles := (List.range 16).filter s.tileIn
  decide (1000 ≤ s.thermal.window.length) && s.thermal.window.all (fun x =>
    x.1.all (fun c => decide (c ≤ 1472)) && tiles.all (fun t => decide (x.2.1.getD t 0 ≤ 1632)))

/-- The issue limit of tile `t`'s Girder, in cycles of every 1,024: DERATE for the tiles of P1-P7, 256 at most while the throttle
limiter acts, and none for P0's (R379, R380). -/
def issueLimit (s : State) (t : Nat) : Nat :=
  match s.tileOwner t with
  | some 0 => 1024
  | _ => if s.flag F.TH_STAT_THROTTLE 0 then min s.derate 256 else s.derate

/-- A read of the inlet sensor (R375, R382). -/
def readInlet (s : State) (r : Option W16) : State :=
  match r with
  | some v =>
    let s := { s with thermal := { s.thermal with inletGood := some (v.toInt / 16), inletFails := 0 } }
    (s.fset F.TH_STAT_INLET_LOST 0 0).setInlet
  | none =>
    let n := s.thermal.inletFails + 1
    let s := { s with thermal := { s.thermal with inletFails := n } }
    if n = 3 then
      let s := (s.fset F.TH_STAT_INLET_LOST 0 1).setInlet
      (s.thermalFault 0xFF 2 s.fallbackTemp).event 0x0202 0xFF (s.fget F.TH_CFG_SMB_ADDR 0) (s.fget F.TH_CFG_FALLBACK 0) 0
    else s

end State

open State

/-- THERMAL_SAMPLE: the 1 ms sample: four stacks and sixteen tiles in 1/16 °C, and the package power in 0.1 W (R375, R380,
R381). -/
def execThermalSample (stackT : Vector W16 4) (tileT : Vector W16 16) (power : W16) (s : State) :
    Host.Outcome State Fault Refusal :=
  .next (if s.power.pll then s.sample (stackT.toList.map (·.toInt)) (tileT.toList.map (·.toInt)) power.toNat else s)

/-- THROTTLE_CLEAR: every sensor has stayed 3 °C below its point for 1 s (R380, R382). -/
def execThrottleClear (s : State) : Host.Outcome State Fault Refusal :=
  .next (if s.flag F.TH_STAT_THROTTLE 0 && s.cooled then (s.fset F.TH_STAT_THROTTLE 0 0).event 0x0201 0xFF 0 0 s.derate else s)

/-- INLET_READ: the 100 ms read of the SMBus sensor in 1/256 °C, while INLET_SRC names it (R375, R376). -/
def execInletRead (reading : Option W16) (s : State) : Host.Outcome State Fault Refusal :=
  .next (if s.power.pll && !(s.flag F.TH_CFG_INLET_SRC 0) then s.readInlet reading else s)

/-- THERMAL_EVALUATION: the 100 ms evaluation (R377, R378). -/
def execThermalEvaluation (s : State) : Host.Outcome State Fault Refusal :=
  .next (if s.power.pll && s.thermal.window != [] then s.evaluate else s)

end Sys2Proof.Machine
end

