-- ==== Sys2Proof/Machine/Vector.lean ====
section
/-! DEFINITION. The vector lane: ELTWISE, CONVERT, CONVERT_SR, REDUCE_LOCAL, OPT_STEP and OPT_STEP_SR (R164, R165,
R217-R219, R230-R236, R371). -/

namespace Sys2Proof.Machine

/-! ELTWISE (R165) -/

/-- An ELTWISE function of a, b and the channel's entry (R165). -/
def eltwiseF (c : Nat) (a b : W32) (e : W128) : W32 :=
  match c with
  | 0x01 => f32Add a b
  | 0x02 => f32Sub a b
  | 0x03 => f32Neg a
  | 0x04 => f32Mul a b
  | 0x05 => f32Max a b
  | 0x06 => f32Min a b
  | 0x07 => a &&& 0x7FFFFFFF#32
  | 0x08 => f32Add (f32Mul a (entScale e)) (entBias e)
  | 0x09 => f32Min (f32Max a (entScale e)) (entBias e)
  | 0x10 => f32Max a 0
  | 0x11 => if f32Neg? a || f32IsNaN a then f32Mul a (entScale e) else a
  | _ => eltApprox c a

/-- Whether a function reads scale entries (R165). -/
def eltReads (c : Nat) : Bool := c == 0x08 || c == 0x09 || c == 0x11

/-- Ring arithmetic of two elements modulo 2^64 (R371). -/
def eltRing (c a b : Nat) : Nat :=
  (if c = 1 then a + b else if c = 2 then a + (2 ^ 64 - b % 2 ^ 64) else 2 ^ 64 - a % 2 ^ 64) % 2 ^ 64

/-- An index with the dimensions of size 1 broadcast (R165). -/
def bcast (v : View) (x : Nat × Nat × Nat × Nat) : Nat × Nat × Nat × Nat :=
  let f := fun k i => if v.dim k = 1 then 0 else i
  (f 0 x.1, f 1 x.2.1, f 2 x.2.2.1, f 3 x.2.2.2)

namespace State

/-- Whether each dimension of `b` equals that of `a` or is 1 (R165). -/
def bcastOk (a b : View) : Bool := (List.range 4).all (fun k => b.dim k == a.dim k || b.dim k == 1)

/-- ELTWISE (R165, R371). -/
def doEltwise (x : Issue) (s : State) : Did :=
  let c := natBits (iImm x.i) 0 8
  let zo := if isInt (iFmtOut x.i) then (if iFmtOut x.i = 0xA then ((natBits (iImm x.i) 8 8 : Nat) : Int) else toSigned 8 (natBits (iImm x.i) 8 8)) else 0
  let two := (eltBinary x.ring c).getD false
  let a := x.view s (iSrc0 x.i)
  let b := x.view s (iSrc1 x.i)
  let d := x.view s (iDst x.i)
  if two && !(bcastOk a b) then .stop s 0x0108
  else if x.ring then
    s.writeOut x d ((List.range d.count).map (fun n =>
      (eltRing c (s.elem a (a.index n)) (if two then s.elem b (bcast b (a.index n)) else 0), false)))
  else if (eltReads c && decide (4096 < iScale x.i + a.dim 0)) ||
      (isInt (iFmtOut x.i) && !(decide ((intRange (iFmtOut x.i)).1 ≤ zo) && decide (zo ≤ (intRange (iFmtOut x.i)).2))) then
    .stop s 0x0108
  else
    s.writeOut x d ((List.range d.count).map (fun n =>
      let p := a.index n
      let v := elemF32 a.fmt (s.elem a p)
      let w := if two then elemF32 b.fmt (s.elem b (bcast b p)) else 0
      convert (iFmtOut x.i) .rne true zo (f32Val (eltwiseF c v w (s.scaleEntry x.t (iScale x.i + p.1))))))

/-! Blocks (R231) -/

/-- E of a narrow target (R231). -/
def blockE (fo : Nat) : Int := if fo = 3 then 7 else if fo = 4 then 14 else if fo = 5 then 3 else 1

/-- The magnitude of a value as floor(log2 |v|), for the values that are not 0. -/
def mag : Num → Option Int
  | .fin _ m e => if m = 0 then none else some (log2Floor m e)
  | _ => none

/-- Whether a value is finite. -/
def finite : Num → Bool
  | .fin .. => true
  | _ => false

/-- The scale exponent of a block of values (R231). -/
def blockExp (fo : Nat) (vs : List Num) : Int :=
  if vs.any (fun v => !(finite v)) then 0
  else match vs.filterMap mag with
    | [] => 0
    | m :: ms => max (-127) (min 127 (ms.foldl max m - blockE fo))

/-- A value divided by 2^x and rounded once to the narrow target (R217, R218, R231). -/
def blockCode (fo : Nat) (rd : Rounding) (sat : Bool) (x : Int) (v : Num) : Nat × Bool :=
  convert fo rd sat 0 (match v with
    | .fin n m e => .fin n m (e - x)
    | o => o)

/-- A code of a narrow format times 2^(e − 127), exactly (R230). -/
def blockNum (f c e : Nat) : Num :=
  match value f c, value 0xD e with
  | .fin n m k, .fin _ _ q => .fin n m (k + q)
  | .nan, _ => .nan
  | _, .nan => .nan
  | v, _ => v

/-- The rounding of an instruction's next element: to nearest even, or with 16 fresh bits (R217, R232). -/
def nextRounding (s : State) (sr : Bool) : Rounding × State :=
  if sr then let (b, s) := s.draw; (.stoch (b.toNat % 65536), s) else (.rne, s)

/-- Values encoded one after the other, each with its own rounding. -/
def encodeAll (s : State) (sr : Bool) (f : Rounding → Num → Nat × Bool) : List Num → List (Nat × Bool) × State
  | [] => ([], s)
  | v :: vs =>
    let (rd, s) := s.nextRounding sr
    let (cs, s) := s.encodeAll sr f vs
    (f rd v :: cs, s)

/-- Values encoded in blocks of 32 in a narrow target: the codes and the scale codes (R231). -/
def encodeBlocks (s : State) (sr sat : Bool) (fo : Nat) : Nat → List Num → List (Nat × Bool) × List Nat × State
  | 0, _ => ([], [], s)
  | k + 1, vs =>
    let x := blockExp fo (vs.take 32)
    let (cs, s) := s.encodeAll sr (fun rd v => blockCode fo rd sat x v) (vs.take 32)
    let (ds, es, s) := s.encodeBlocks sr sat fo k (vs.drop 32)
    (cs ++ ds, (x + 127).toNat :: es, s)

/-! CONVERT (R230) -/

/-- Whether a format is a floating one of 8 bits or fewer that takes block scales (R230). -/
def narrow (f : Nat) : Bool := decide (3 ≤ f) && decide (f ≤ 6)

/-- The scale entry of element `n`: SCALE + its index along CH_DIM (R230). -/
def convertEntry (s : State) (x : Issue) (a : View) (n : Nat) : W128 :=
  let p := a.index n
  let ch := match natBits (iP8 x.i) 3 2 with
    | 0 => p.1
    | 1 => p.2.1
    | 2 => p.2.2.1
    | _ => p.2.2.2
  s.scaleEntry x.t (iScale x.i + ch)

/-- The value of an element that is converted: exact, with its block scale; multiplied in F32 when SCALED (R230; log entry
11). -/
def convertValue (s : State) (x : Issue) (a : View) (n : Nat) : Num :=
  let c := s.elem a (a.index n)
  let v := if natBit (iP8 x.i) 2 && narrow a.fmt then
      blockNum a.fmt c (leNat (s.deckGet x.t ((x.view s (iAux x.i)).base + n / 32) 1))
    else value a.fmt c
  if natBit (iP8 x.i) 0 then f32Val (f32Mul (toF32 v) (entScale (s.convertEntry x a n))) else v

/-- The zero point of an integer target (R230). -/
def convertZ (s : State) (x : Issue) (a : View) (n : Nat) : Int :=
  if natBit (iP8 x.i) 0 && isInt (iFmtOut x.i) then entZp (s.convertEntry x a n) else 0

/-- The conversion of the elements of CONVERT and CONVERT_SR in order (R217, R230, R232). -/
def convertAll (s : State) (x : Issue) (sr : Bool) (a : View) : List Nat → List (Nat × Bool) × State
  | [] => ([], s)
  | n :: ns =>
    let (rd, s1) := s.nextRounding sr
    let (cs, s2) := s1.convertAll x sr a ns
    (convert (iFmtOut x.i) rd (natBit (iP8 x.i) 1) (s.convertZ x a n) (s.convertValue x a n) :: cs, s2)

/-- CONVERT and CONVERT_SR (R230-R232). -/
def doConvert (sr : Bool) (x : Issue) (s : State) : Did :=
  let a := x.view s (iSrc0 x.i)
  let d := x.view s (iDst x.i)
  let fo := iFmtOut x.i
  let block := natBit (iP8 x.i) 2
  if (block && (a.dim 0 % 32 != 0 || narrow a.fmt == narrow fo)) ||
      (natBit (iP8 x.i) 0 && decide (4096 < iScale x.i + a.dim (natBits (iP8 x.i) 3 2))) then .stop s 0x0108
  else if block && narrow fo then
    match s.encodeBlocks sr (natBit (iP8 x.i) 1) fo (a.count / 32) ((List.range a.count).map (s.convertValue x a)) with
    | (cs, es, s1) => (s1.deckPut x.t (x.view s (iAux x.i)).base (es.map (BitVec.ofNat 8))).writeOut x d cs
  else
    match s.convertAll x sr a (List.range a.count) with
    | (cs, s1) => s1.writeOut x d cs

/-! REDUCE_LOCAL (R164, R371) -/

/-- The source elements summed into one output: those that agree with it where DST is not 1 (R164; log entry 43). -/
def reduceTerms (a d : View) (x : Nat × Nat × Nat × Nat) : List Nat :=
  (List.range a.count).filter (fun n => bcast d (a.index n) == x)

/-- REDUCE_LOCAL: sums in a fixed order: floating in F32, integers modulo 2^32, a ring image modulo 2^64 (R164, R219, R371;
log entry 43). -/
def doReduceLocal (x : Issue) (s : State) : Did :=
  let a := x.view s (iSrc0 x.i)
  let d := x.view s (iDst x.i)
  let fo := iFmtOut x.i
  let one := fun n =>
    let cs := (reduceTerms a d (d.index n)).map (fun k => s.elem a (a.index k))
    if x.ring then (cs.sum % 2 ^ 64, false)
    else if isFloat a.fmt then convert fo .rne false 0 (f32Val (f32Sum x.i 0 (cs.map (elemF32 a.fmt))))
    else convert fo .rne false 0 (numOfInt (toSigned 32 (ofSigned 32 ((cs.map (intOf a.fmt)).sum))) (if a.fmt = 0xC then -16 else 0))
  s.writeOut x d ((List.range d.count).map one)

/-! OPT_STEP (R233) -/

/-- Bytes rounded up to whole slots. -/
def slotUp (n : Nat) : Nat := ceilDiv n 256 * 256

/-- The offsets of m, v and their scales in a state block of n parameters, and its end (R233). -/
def optM (n : Nat) : Nat := slotUp (4 * n)
def optV (n : Nat) : Nat := optM n + slotUp n
def optMs (n : Nat) : Nat := optV n + slotUp n
def optVs (n : Nat) : Nat := optMs n + slotUp (n / 32)
def optEnd (n : Nat) : Nat := optVs n + slotUp (n / 32)

/-- The hyperparameters (R233). -/
structure Hyper where
  lr : W32
  b1 : W32
  b2 : W32
  eps : W32
  wd : W32
  gscale : W32
  bc1 : W32
  bc2 : W32

/-- The hyperparameter block. -/
def parseHyper (b : List Byte) : Hyper :=
  let f := fun k => BitVec.ofNat 32 (leField b (4 * k) 4)
  { lr := f 0, b1 := f 1, b2 := f 2, eps := f 3, wd := f 4, gscale := f 5, bc1 := f 6, bc2 := f 7 }

/-- One AdamW step: the new m, v and w (R233). -/
def adamw (h : Hyper) (grad m v w : W32) : W32 × W32 × W32 :=
  let one : W32 := 0x3F800000#32
  let g := f32Mul grad h.gscale
  let m := f32Add (f32Mul h.b1 m) (f32Mul (f32Sub one h.b1) g)
  let v := f32Add (f32Mul h.b2 v) (f32Mul (f32Sub one h.b2) (f32Mul g g))
  let u := f32Div (f32Mul m h.bc1) (f32Add (f32Sqrt (f32Mul v h.bc2)) h.eps)
  (m, v, f32Sub w (f32Mul h.lr (f32Add u (f32Mul h.wd w))))

/-- The byte ranges of DST and another operand of the step do not meet. -/
def apart (s : State) (x : Issue) (a b : Nat) : Bool :=
  (s.opdSlots x.t (x.opd a)).all (fun k => !((s.opdSlots x.t (x.opd b)).contains k))

/-- OPT_STEP and OPT_STEP_SR: one AdamW step, or an exact copy of the state when a gradient is not finite (R233,
R236). -/
def doOptStep (sr : Bool) (x : Issue) (s : State) : Did :=
  let g := x.view s (iSrc0 x.i)
  let old := (x.view s (iSrc1 x.i)).base
  let new := (x.view s (iDst x.i)).base
  let hb := s.deckGet x.t (x.view s (iAux x.i)).base 64
  let h := parseHyper hb
  let n := g.dim 0
  let t := x.t
  let byte := fun a => leNat (s.deckGet t a 1)
  let word := fun a => BitVec.ofNat 32 (leNat (s.deckGet t a 4))
  if n % 32 ≠ 0 ∨ n < 32 ∨ 1048576 < n ∨ !([0, 1, 2, 4].contains g.fmt) ∨ !(allZero hb 32 32) ∨
      !(s.apart x (iDst x.i) (iSrc1 x.i) && s.apart x (iDst x.i) (iSrc0 x.i)) then .stop s 0x0108
  else
    let grads := (List.range n).map (fun k => elemF32 g.fmt (s.elem g (k, 0, 0, 0)))
    if grads.any (fun v => !(f32Finite v) || !(f32Finite (f32Mul v h.gscale))) then
      let s := (s.deckPut t new (s.deckGet t old (optEnd n))).warnSkip x
      .ok s 32 (s.elems (x.view s (iDst x.i)))
    else
      let step := fun k =>
        adamw h (grads.getD k 0) (toF32 (blockNum 3 (byte (old + optM n + k)) (byte (old + optMs n + k / 32))))
          (toF32 (blockNum 3 (byte (old + optV n + k)) (byte (old + optVs n + k / 32)))) (word (old + 4 * k))
      let rs := (List.range n).map step
      match s.encodeBlocks sr true 3 (n / 32) (rs.map (fun r => f32Val r.1)) with
      | (mc, me, s1) => match s1.encodeBlocks sr true 3 (n / 32) (rs.map (fun r => f32Val r.2.1)) with
        | (vc, ve, s2) =>
          let bytes := fun (l : List Nat) => l.map (BitVec.ofNat 8)
          let s3 := s2.deckPut t new ((rs.map (fun r => leBytes 4 r.2.2.toNat)).flatten)
          let s3 := (s3.deckPut t (new + optM n) (bytes (mc.map (·.1)))).deckPut t (new + optV n) (bytes (vc.map (·.1)))
          let s3 := (s3.deckPut t (new + optMs n) (bytes me)).deckPut t (new + optVs n) (bytes ve)
          .ok s3 32 (s3.elems (x.view s3 (iDst x.i)))

end State

open State

/-- ELTWISE (R165). -/
def execEltwise (t : Fin 16) (s : State) : Host.Outcome State Fault Refusal := .next (s.issue t.val 0x08 State.doEltwise)

/-- CONVERT: rounds to nearest even (R230). -/
def execConvert (t : Fin 16) (s : State) : Host.Outcome State Fault Refusal := .next (s.issue t.val 0x09 (State.doConvert false))

/-- CONVERT_SR: rounds stochastically (R230, R232). -/
def execConvertSr (t : Fin 16) (s : State) : Host.Outcome State Fault Refusal := .next (s.issue t.val 0x0A (State.doConvert true))

/-- REDUCE_LOCAL (R164). -/
def execReduceLocal (t : Fin 16) (s : State) : Host.Outcome State Fault Refusal := .next (s.issue t.val 0x0B State.doReduceLocal)

/-- OPT_STEP (R233). -/
def execOptStep (t : Fin 16) (s : State) : Host.Outcome State Fault Refusal := .next (s.issue t.val 0x0E (State.doOptStep false))

/-- OPT_STEP_SR: m and v encoded stochastically (R232, R233). -/
def execOptStepSr (t : Fin 16) (s : State) : Host.Outcome State Fault Refusal := .next (s.issue t.val 0x0F (State.doOptStep true))

end Sys2Proof.Machine
end

