-- ==== Sys2Proof/Machine/Dispatch.lean ====
section
/-! DEFINITION. One arm per command: a direct call of its meaning. -/

namespace Sys2Proof.Machine

/-- The effect of a command on everything but the queue. -/
def exec (i : Instr) (s : State) : Host.Outcome State Fault Refusal :=
  match i with
  | .nop r tag => Sys2Proof.Machine.execNop r tag s
  | .mrRegister r tag => Sys2Proof.Machine.execMrRegister r tag s
  | .mrDeregister r tag => Sys2Proof.Machine.execMrDeregister r tag s
  | .dmaCopy r tag => Sys2Proof.Machine.execDmaCopy r tag s
  | .progLoad r tag => Sys2Proof.Machine.execProgLoad r tag s
  | .progRun r tag => Sys2Proof.Machine.execProgRun r tag s
  | .progUnload r tag => Sys2Proof.Machine.execProgUnload r tag s
  | .stayCall r tag => Sys2Proof.Machine.execStayCall r tag s
  | .semSignal r tag => Sys2Proof.Machine.execSemSignal r tag s
  | .semWait r tag => Sys2Proof.Machine.execSemWait r tag s
  | .semTrywait r tag => Sys2Proof.Machine.execSemTrywait r tag s
  | .semAcquire r tag => Sys2Proof.Machine.execSemAcquire r tag s
  | .semTryacquire r tag => Sys2Proof.Machine.execSemTryacquire r tag s
  | .semRelease r tag => Sys2Proof.Machine.execSemRelease r tag s
  | .semRead r tag => Sys2Proof.Machine.execSemRead r tag s
  | .alarmArm r tag => Sys2Proof.Machine.execAlarmArm r tag s
  | .alarmDisarm r tag => Sys2Proof.Machine.execAlarmDisarm r tag s
  | .descArm r tag => Sys2Proof.Machine.execDescArm r tag s
  | .descDisarm r tag => Sys2Proof.Machine.execDescDisarm r tag s
  | .qciLoad r tag => Sys2Proof.Machine.execQciLoad r tag s
  | .excOn src => Sys2Proof.Machine.execExcOn src s
  | .excOff src => Sys2Proof.Machine.execExcOff src s
  | .excClearRetired src => Sys2Proof.Machine.execExcClearRetired src s
  | .dqSafeLoad r tag => Sys2Proof.Machine.execDqSafeLoad r tag s
  | .tgCommit r tag => Sys2Proof.Machine.execTgCommit r tag s
  | .partReset r tag => Sys2Proof.Machine.execPartReset r tag s
  | .tenantSwitch r tag => Sys2Proof.Machine.execTenantSwitch r tag s
  | .csCtxOpen r tag => Sys2Proof.Machine.execCsCtxOpen r tag s
  | .csLoad r tag => Sys2Proof.Machine.execCsLoad r tag s
  | .csStore r tag => Sys2Proof.Machine.execCsStore r tag s
  | .csNtt r tag => Sys2Proof.Machine.execCsNtt r tag s
  | .csIntt r tag => Sys2Proof.Machine.execCsIntt r tag s
  | .csAdd r tag => Sys2Proof.Machine.execCsAdd r tag s
  | .csSub r tag => Sys2Proof.Machine.execCsSub r tag s
  | .csMul r tag => Sys2Proof.Machine.execCsMul r tag s
  | .csMac r tag => Sys2Proof.Machine.execCsMac r tag s
  | .csMulc r tag => Sys2Proof.Machine.execCsMulc r tag s
  | .csAuto r tag => Sys2Proof.Machine.execCsAuto r tag s
  | .csBconv r tag => Sys2Proof.Machine.execCsBconv r tag s
  | .csCtxClose r tag => Sys2Proof.Machine.execCsCtxClose r tag s
  | .hashOpen r tag => Sys2Proof.Machine.execHashOpen r tag s
  | .hashUpdate r tag => Sys2Proof.Machine.execHashUpdate r tag s
  | .hashFinal r tag => Sys2Proof.Machine.execHashFinal r tag s
  | .hashClose r tag => Sys2Proof.Machine.execHashClose r tag s
  | .dgRead r tag => Sys2Proof.Machine.execDgRead r tag s
  | .traceConfigure r tag => Sys2Proof.Machine.execTraceConfigure r tag s
  | .traceReadout r tag => Sys2Proof.Machine.execTraceReadout r tag s
  | .traceRelease r tag => Sys2Proof.Machine.execTraceRelease r tag s
  | .matmul t => Sys2Proof.Machine.execMatmul t s
  | .window t => Sys2Proof.Machine.execWindow t s
  | .depthwise t => Sys2Proof.Machine.execDepthwise t s
  | .pool t => Sys2Proof.Machine.execPool t s
  | .kvRetrieve t => Sys2Proof.Machine.execKvRetrieve t s
  | .attn t => Sys2Proof.Machine.execAttn t s
  | .eltwise t => Sys2Proof.Machine.execEltwise t s
  | .convert t => Sys2Proof.Machine.execConvert t s
  | .convertSr t => Sys2Proof.Machine.execConvertSr t s
  | .reduceLocal t => Sys2Proof.Machine.execReduceLocal t s
  | .reduceXt t => Sys2Proof.Machine.execReduceXt t s
  | .atomicAdd t => Sys2Proof.Machine.execAtomicAdd t s
  | .optStep t => Sys2Proof.Machine.execOptStep t s
  | .optStepSr t => Sys2Proof.Machine.execOptStepSr t s
  | .fill t => Sys2Proof.Machine.execFill t s
  | .drain t => Sys2Proof.Machine.execDrain t s
  | .xfer t => Sys2Proof.Machine.execXfer t s
  | .scaleLoad t => Sys2Proof.Machine.execScaleLoad t s
  | .tileSemWait t => Sys2Proof.Machine.execTileSemWait t s
  | .tileSemSignal t => Sys2Proof.Machine.execTileSemSignal t s
  | .lock t => Sys2Proof.Machine.execLock t s
  | .unlock t => Sys2Proof.Machine.execUnlock t s
  | .stayInvoke t => Sys2Proof.Machine.execStayInvoke t s
  | .stayJoin t => Sys2Proof.Machine.execStayJoin t s
  | .loop t => Sys2Proof.Machine.execLoop t s
  | .endRole t => Sys2Proof.Machine.execEndRole t s
  | .prepNorm t c => Sys2Proof.Machine.execPrepNorm t c s
  | .prepUnpack t c => Sys2Proof.Machine.execPrepUnpack t c s
  | .prepGrid t c => Sys2Proof.Machine.execPrepGrid t c s
  | .tidyTopk t c => Sys2Proof.Machine.execTidyTopk t c s
  | .tidyNms t c => Sys2Proof.Machine.execTidyNms t c s
  | .clPid t c => Sys2Proof.Machine.execClPid t c s
  | .clStatespace t c => Sys2Proof.Machine.execClStatespace t c s
  | .clLimit t c => Sys2Proof.Machine.execClLimit t c s
  | .qCalib t c => Sys2Proof.Machine.execQCalib t c s
  | .qRequant t c => Sys2Proof.Machine.execQRequant t c s
  | .qColsum t c => Sys2Proof.Machine.execQColsum t c s
  | .batchBoundary t => Sys2Proof.Machine.execBatchBoundary t s
  | .runStart t => Sys2Proof.Machine.execRunStart t s
  | .tagWaitResume w => Sys2Proof.Machine.execTagWaitResume w s
  | .semaphoreGrant sem => Sys2Proof.Machine.execSemaphoreGrant sem s
  | .cutBarrierRelease run => Sys2Proof.Machine.execCutBarrierRelease run s
  | .watchdogExpiry t bistPass => Sys2Proof.Machine.execWatchdogExpiry t bistPass s
  | .tileFault t cause bist => Sys2Proof.Machine.execTileFault t cause bist s
  | .rollbackRestoreEnd run => Sys2Proof.Machine.execRollbackRestoreEnd run s
  | .tbNowRead req => Sys2Proof.Machine.execTbNowRead req s
  | .tbIncWrite v => Sys2Proof.Machine.execTbIncWrite v s
  | .tbStepWrite v => Sys2Proof.Machine.execTbStepWrite v s
  | .ptpSync port twoStep offset => Sys2Proof.Machine.execPtpSync port twoStep offset s
  | .syncTimeout => Sys2Proof.Machine.execSyncTimeout s
  | .brChCfgWrite ch v => Sys2Proof.Machine.execBrChCfgWrite ch v s
  | .quadratureEdge enc forward fast => Sys2Proof.Machine.execQuadratureEdge enc forward fast s
  | .zPulse enc => Sys2Proof.Machine.execZPulse enc s
  | .ssiFrame enc resp parityErr => Sys2Proof.Machine.execSsiFrame enc resp parityErr s
  | .ssiPoll enc => Sys2Proof.Machine.execSsiPoll enc s
  | .zeroCrossing m periodNs => Sys2Proof.Machine.execZeroCrossing m periodNs s
  | .lineBreak enc => Sys2Proof.Machine.execLineBreak enc s
  | .mainsTimeout m => Sys2Proof.Machine.execMainsTimeout m s
  | .frameStartTimeout port => Sys2Proof.Machine.execFrameStartTimeout port s
  | .timeAlarmFire k => Sys2Proof.Machine.execTimeAlarmFire k s
  | .alArm k => Sys2Proof.Machine.execAlArm k s
  | .alDisarm k => Sys2Proof.Machine.execAlDisarm k s
  | .winArm w => Sys2Proof.Machine.execWinArm w s
  | .winDisarm w => Sys2Proof.Machine.execWinDisarm w s
  | .triggerEdge n rising => Sys2Proof.Machine.execTriggerEdge n rising s
  | .portCfgWrite n v => Sys2Proof.Machine.execPortCfgWrite n v s
  | .dArm n => Sys2Proof.Machine.execDArm n s
  | .dDisarm n => Sys2Proof.Machine.execDDisarm n s
  | .frameStart port vc => Sys2Proof.Machine.execFrameStart port vc s
  | .linePacket port vc dt data eccLost crcOk => Sys2Proof.Machine.execLinePacket port vc dt data eccLost crcOk s
  | .frameEnd port vc => Sys2Proof.Machine.execFrameEnd port vc s
  | .ethFrame port data fcsOk => Sys2Proof.Machine.execEthFrame port data fcsOk s
  | .tapFrame tap data fcsOk => Sys2Proof.Machine.execTapFrame tap data fcsOk s
  | .periodicSample n => Sys2Proof.Machine.execPeriodicSample n s
  | .spiTransactionStart port => Sys2Proof.Machine.execSpiTransactionStart port s
  | .spiTransferEnd port words => Sys2Proof.Machine.execSpiTransferEnd port words s
  | .landing n => Sys2Proof.Machine.execLanding n s
  | .stagingCopy o => Sys2Proof.Machine.execStagingCopy o s
  | .pwmEnable o v => Sys2Proof.Machine.execPwmEnable o v s
  | .groupEnable g v => Sys2Proof.Machine.execGroupEnable g v s
  | .dqEnable q v => Sys2Proof.Machine.execDqEnable q v s
  | .advSrcEnable k v => Sys2Proof.Machine.execAdvSrcEnable k v s
  | .pwmPeriodStart o => Sys2Proof.Machine.execPwmPeriodStart o s
  | .triggerPulseEnd t => Sys2Proof.Machine.execTriggerPulseEnd t s
  | .driveFrameTransmit port => Sys2Proof.Machine.execDriveFrameTransmit port s
  | .gateListEntry g => Sys2Proof.Machine.execGateListEntry g s
  | .pacerTick => Sys2Proof.Machine.execPacerTick s
  | .advisoryLink up => Sys2Proof.Machine.execAdvisoryLink up s
  | .rampEnd c => Sys2Proof.Machine.execRampEnd c s
  | .overload c => Sys2Proof.Machine.execOverload c s
  | .waitEnd c => Sys2Proof.Machine.execWaitEnd c s
  | .ringEnable fn r v => Sys2Proof.Machine.execRingEnable fn r v s
  | .ringDisable fn r v => Sys2Proof.Machine.execRingDisable fn r v s
  | .ringDrained r => Sys2Proof.Machine.execRingDrained r s
  | .trhDbSq fn r v => Sys2Proof.Machine.execTrhDbSq fn r v s
  | .trhDbCq fn r v => Sys2Proof.Machine.execTrhDbCq fn r v s
  | .fetch r => Sys2Proof.Machine.execFetch r s
  | .completionPost r tag => Sys2Proof.Machine.execCompletionPost r tag s
  | .hostReadError what err => Sys2Proof.Machine.execHostReadError what err s
  | .functionLevelReset p => Sys2Proof.Machine.execFunctionLevelReset p s
  | .perstAssert => Sys2Proof.Machine.execPerstAssert s
  | .perstDeassert => Sys2Proof.Machine.execPerstDeassert s
  | .configRequest => Sys2Proof.Machine.execConfigRequest s
  | .dkRgnCfgWrite t g v => Sys2Proof.Machine.execDkRgnCfgWrite t g v s
  | .semCfgWrite fn sem v => Sys2Proof.Machine.execSemCfgWrite fn sem v s
  | .commitScrubEnd => Sys2Proof.Machine.execCommitScrubEnd s
  | .degradedClear => Sys2Proof.Machine.execDegradedClear s
  | .partResetDrained p => Sys2Proof.Machine.execPartResetDrained p s
  | .hbmCorrectedError pc => Sys2Proof.Machine.execHbmCorrectedError pc s
  | .hbmCeIntervalEnd => Sys2Proof.Machine.execHbmCeIntervalEnd s
  | .hbmUncorrectableError addr => Sys2Proof.Machine.execHbmUncorrectableError addr s
  | .vaultUncorrectable ctx addr => Sys2Proof.Machine.execVaultUncorrectable ctx addr s
  | .eventRingEnable v => Sys2Proof.Machine.execEventRingEnable v s
  | .signalDetect l => Sys2Proof.Machine.execSignalDetect l s
  | .trainingEnd l res => Sys2Proof.Machine.execTrainingEnd l res s
  | .linkAlignmentLoss l => Sys2Proof.Machine.execLinkAlignmentLoss l s
  | .retrainAttempt l ok => Sys2Proof.Machine.execRetrainAttempt l ok s
  | .linkRestore l => Sys2Proof.Machine.execLinkRestore l s
  | .linkDisable l => Sys2Proof.Machine.execLinkDisable l s
  | .cwGrantWrite m v => Sys2Proof.Machine.execCwGrantWrite m v s
  | .inboundRequest req => Sys2Proof.Machine.execInboundRequest req s
  | .tracePostEnd => Sys2Proof.Machine.execTracePostEnd s
  | .traceLostRecord src => Sys2Proof.Machine.execTraceLostRecord src s
  | .streamFlush => Sys2Proof.Machine.execStreamFlush s
  | .evcSnap v => Sys2Proof.Machine.execEvcSnap v s
  | .evcClear v => Sys2Proof.Machine.execEvcClear v s
  | .evcCfgWrite k v => Sys2Proof.Machine.execEvcCfgWrite k v s
  | .fwStage v => Sys2Proof.Machine.execFwStage v s
  | .fwStageVerified => Sys2Proof.Machine.execFwStageVerified s
  | .fwActivateLive v => Sys2Proof.Machine.execFwActivateLive v s
  | .fwActivateAtReset v => Sys2Proof.Machine.execFwActivateAtReset v s
  | .fwCommitSvn v => Sys2Proof.Machine.execFwCommitSvn v s
  | .fwDiscard v => Sys2Proof.Machine.execFwDiscard v s
  | .firmwareReady => Sys2Proof.Machine.execFirmwareReady s
  | .switchTimeout => Sys2Proof.Machine.execSwitchTimeout s
  | .ksDbgOpen v => Sys2Proof.Machine.execKsDbgOpen v s
  | .scrubEnd p us => Sys2Proof.Machine.execScrubEnd p us s
  | .vaultShareWrite p v => Sys2Proof.Machine.execVaultShareWrite p v s
  | .limbStepEnd => Sys2Proof.Machine.execLimbStepEnd s
  | .spdmGetVersion ses => Sys2Proof.Machine.execSpdmGetVersion ses s
  | .spdmGetCapabilities ses => Sys2Proof.Machine.execSpdmGetCapabilities ses s
  | .spdmNegotiateAlgorithms ses => Sys2Proof.Machine.execSpdmNegotiateAlgorithms ses s
  | .spdmGetDigests ses => Sys2Proof.Machine.execSpdmGetDigests ses s
  | .spdmGetCertificate ses slot => Sys2Proof.Machine.execSpdmGetCertificate ses slot s
  | .spdmChallenge ses slot nonce => Sys2Proof.Machine.execSpdmChallenge ses slot nonce s
  | .spdmGetMeasurements ses index nonce => Sys2Proof.Machine.execSpdmGetMeasurements ses index nonce s
  | .spdmKeyExchange ses slot exch => Sys2Proof.Machine.execSpdmKeyExchange ses slot exch s
  | .spdmFinish ses verify => Sys2Proof.Machine.execSpdmFinish ses verify s
  | .spdmHeartbeat ses => Sys2Proof.Machine.execSpdmHeartbeat ses s
  | .spdmKeyUpdate ses => Sys2Proof.Machine.execSpdmKeyUpdate ses s
  | .spdmEndSession ses => Sys2Proof.Machine.execSpdmEndSession ses s
  | .spdmRespondIfReady ses token => Sys2Proof.Machine.execSpdmRespondIfReady ses token s
  | .spdmChunkSend ses handle last data => Sys2Proof.Machine.execSpdmChunkSend ses handle last data s
  | .spdmChunkGet ses handle seq => Sys2Proof.Machine.execSpdmChunkGet ses handle seq s
  | .spdmGetCsr ses => Sys2Proof.Machine.execSpdmGetCsr ses s
  | .spdmSetCertificate ses slot chain => Sys2Proof.Machine.execSpdmSetCertificate ses slot chain s
  | .ideKSetGo ses stream => Sys2Proof.Machine.execIdeKSetGo ses stream s
  | .tdispGetVersion ses p => Sys2Proof.Machine.execTdispGetVersion ses p s
  | .tdispGetCapabilities ses p => Sys2Proof.Machine.execTdispGetCapabilities ses p s
  | .tdispLock ses p => Sys2Proof.Machine.execTdispLock ses p s
  | .tdispGetReport ses p => Sys2Proof.Machine.execTdispGetReport ses p s
  | .tdispGetState ses p => Sys2Proof.Machine.execTdispGetState ses p s
  | .tdispStart ses p => Sys2Proof.Machine.execTdispStart ses p s
  | .tdispStop ses p => Sys2Proof.Machine.execTdispStop ses p s
  | .thermalSample stackT tileT power => Sys2Proof.Machine.execThermalSample stackT tileT power s
  | .throttleClear => Sys2Proof.Machine.execThrottleClear s
  | .inletRead reading => Sys2Proof.Machine.execInletRead reading s
  | .thermalEvaluation => Sys2Proof.Machine.execThermalEvaluation s
  | .supplyGood => Sys2Proof.Machine.execSupplyGood s
  | .pwrGoodFall => Sys2Proof.Machine.execPwrGoodFall s
  | .resetN low => Sys2Proof.Machine.execResetN low s
  | .supplyDrop => Sys2Proof.Machine.execSupplyDrop s
  | .pllLock => Sys2Proof.Machine.execPllLock s
  | .bootComplete => Sys2Proof.Machine.execBootComplete s
  | .hubRelease => Sys2Proof.Machine.execHubRelease s
  | .hbmTrainingEnd failed => Sys2Proof.Machine.execHbmTrainingEnd failed s
  | .memoryReady => Sys2Proof.Machine.execMemoryReady s
  | .hostReady => Sys2Proof.Machine.execHostReady s
  | .ptpServoStart => Sys2Proof.Machine.execPtpServoStart s
  | .jtagExtest => Sys2Proof.Machine.execJtagExtest s
  | .jtagIdcode => Sys2Proof.Machine.execJtagIdcode s
  | .jtagSamplePreload => Sys2Proof.Machine.execJtagSamplePreload s
  | .jtagClamp => Sys2Proof.Machine.execJtagClamp s
  | .jtagHighz => Sys2Proof.Machine.execJtagHighz s
  | .jtagExtestPulse => Sys2Proof.Machine.execJtagExtestPulse s
  | .jtagExtestTrain => Sys2Proof.Machine.execJtagExtestTrain s
  | .jtagBypass => Sys2Proof.Machine.execJtagBypass s
  | .testLogicReset => Sys2Proof.Machine.execTestLogicReset s
  | .registerWrite fn addr width data => Sys2Proof.Machine.execRegisterWrite fn addr width data s
  | .mainsPllTick m => Sys2Proof.Machine.execMainsPllTick m s
  | .excSenseSample c vcode icode => Sys2Proof.Machine.execExcSenseSample c vcode icode s
  | .portLinkChange n up => Sys2Proof.Machine.execPortLinkChange n up s
  | .pcieRetrain gts width => Sys2Proof.Machine.execPcieRetrain gts width s
  | .coalescingTimeout who => Sys2Proof.Machine.execCoalescingTimeout who s
  | .linkCrcError l => Sys2Proof.Machine.execLinkCrcError l s
  | .retiredMaskUpdate node mask => Sys2Proof.Machine.execRetiredMaskUpdate node mask s
  | .hostWriteError err => Sys2Proof.Machine.execHostWriteError err s
  | .supplyRailChange rail percent => Sys2Proof.Machine.execSupplyRailChange rail percent s

end Sys2Proof.Machine
end

