-- ==== Sys2Proof/WellFormed.lean ====
section
/-! DEFINITION. Which commands carry data that a happening of the device can carry. -/

namespace Sys2Proof

/-- Whether a command carries data that its source can deliver: a bus write covers whole bytes inside the function's BAR0
(R8, R12, R14), a CSI-2 line is no longer than a packet's 16-bit byte count (R65), an SPI transfer has at most 8 words
(R63), and a sensor reads whole degrees of a stack and quarters of a tile, in 1/16 °C (R375). A meaning needs none of this: on
other data it does what the spec's rules say of it. -/
def Instr.wf : Instr → Bool
  | .registerWrite fn addr width _ =>
    decide (0 < width) && width % 8 == 0 &&
      (match fn with | .pf => decide (addr + width / 8 ≤ 0x4000000) | .vf _ => decide (addr + width / 8 ≤ 0x100000))
  | .linePacket _ _ _ data _ _ => decide (data.length < 65536)
  | .spiTransferEnd _ words => decide (words.length ≤ 8)
  | .thermalSample st tl _ => st.toList.all (fun x => x.toNat % 16 == 0) && tl.toList.all (fun x => x.toNat % 4 == 0)
  | _ => true

end Sys2Proof
end

