-- ==== Sys2Proof/Safety.lean ====
section
/-! DEFINITION. What claims call a sound state, a safe step, a command that may start or has ended, and what a command
leaves alone. -/

namespace Sys2Proof.Safety

open Sys2Proof.Machine

/-- Memories and the register table in canonical form (equal contents are equal data). -/
def Canonical (s : State) : Prop :=
  memWf s.deck = true ∧ memWf s.hbm = true ∧ memWf s.host = true ∧ memWf s.vault = true ∧ tabSorted s.regs = true

/-- Every command that waits, in the queue or at a Tollgate, carries data that a happening of the device can carry. -/
def WfQueue (s : State) : Prop := (∀ c ∈ s.pending, c.wf = true) ∧ ∀ e ∈ s.held, e.1.wf = true

/-- A step answers a next state: no fault, no refusal. -/
def Runs (s : State) : Prop := ∃ t, step s = .next t

/-- A memory agrees with another outside `n` bytes from `a`. -/
def SameOutside (m m' : Memory) (a n : Nat) : Prop := ∀ x, ¬ (a ≤ x ∧ x < a + n) → memGet m' x = memGet m x

/-! ## Kinds of state -/

/-- The kinds of state outside the registers that a claim can name. The logs (trace buffer, fault records, events, charge
buckets, draws, what left the device) are not among them. -/
inductive Part where
  | time | phase | ingress | egress | cmds | regions | programs | tiles | stays | scales | deck | deckTags | waiters
  | hbm | poison | host | held | commit | ceNow | causeway | digests | keystone | scrubs | hashes | caisson | thermal | power | jtag
  deriving DecidableEq, Repr

/-! ## Commands in flight -/

/-- Command `c`, in flight on ring `r` with TAG `tag`, may start now: its partition is not in reset, no bank switch window
is open, it has passed its checks and not started, its FENCE is met, and no other command of the ring that has not ended
carries its TAG, which InFlight keeps (R125-R127, R152, R331). -/
def Ready (s : State) (r tag : Nat) (c : Cmd) : Prop :=
  s.findCmd r tag = some c ∧ s.resetBusy c.part = false ∧ s.switching = false ∧ c.checked = true ∧ c.started = false ∧
    s.fenceMet c = true ∧ ∀ x ∈ s.cmds, x.ring = r → x.tag = tag → x.done = none → x = c

/-- No transfer of partition `p` has to wait: none of its ceiling buckets is empty, and every lane has credits (R241, R292). -/
def Flowing (s : State) (p : Nat) : Prop := (∀ k, k < 5 → s.dry (State.tgIdx p k) = false) ∧ ∀ l, l < 16 → s.laneDry l = false

/-- No two commands of a ring that have not ended carry one TAG (R126, R127). -/
def UniqueTags (s : State) : Prop :=
  (s.cmds.filter (fun c => c.done == none)).Pairwise (fun a b => a.ring ≠ b.ring ∨ a.tag ≠ b.tag)

/-- What holds of the commands in flight: their TAGs are unique, and those that have not ended have passed their checks and
belong to the partition of their ring (R126, R127). -/
def InFlight (s : State) : Prop :=
  UniqueTags s ∧ ∀ c ∈ s.cmds, c.ring < 128 ∧ c.part = c.ring / 16 ∧ (c.done = none → c.checked = true)

/-- The command has started and has not ended: it waits. -/
def Waits (t : State) (r tag : Nat) : Prop := ∃ c, t.findCmd r tag = some c ∧ c.started = true

/-- The command has ended with STATUS `st` and RESULT `res`, and waits for its completion (R143). -/
def Ended (t : State) (r tag st res : Nat) : Prop := ∃ c ∈ t.cmds, c.ring = r ∧ c.tag = tag ∧ c.done = some (st, res)

/-- No command, run or Caisson operation that a predicate on rings and TAGs names is in flight. -/
def NoWork (s : State) (f : Nat → Nat → Bool) : Prop :=
  (∀ c ∈ s.cmds, f c.ring c.tag = false) ∧ (∀ x ∈ s.runs, ∀ q g, x.cmd = some (q, g) → f q g = false) ∧
    ∀ k, k < 4 → ∀ j ∈ (s.ctx k).jobs, f j.ring j.tag = false

/-- Register writes act: host-ready has been reached and no bank switch window is open (R326, R391, R392). -/
def Live (s : State) : Prop := s.fget F.KS_STAT_STATE 0 = 1

/-- The memory of this device that a buffer's KIND names (R128). -/
def bufMem (s : State) (d : BufDesc) : Memory :=
  match d.kind with
  | 0 => s.host
  | 1 => s.hbm
  | _ => s.deck

/-- The kind of state that memory is. -/
def bufPart (d : BufDesc) : Part :=
  match d.kind with
  | 0 => .host
  | 1 => .hbm
  | _ => .deck

/-- The place of a buffer's first byte in its memory (R128). -/
def bufAt (s : State) (p : Nat) (d : BufDesc) : Nat :=
  match d.kind with
  | 0 => (s.mr p d.mr).base + d.addr
  | 1 => d.addr % 2 ^ 36
  | _ => State.deckAddr (State.bufTile d) (State.bufSlot d) 0

/-- Every frame of `n` bytes from offset `o` is in service, and for a read none of them is poisoned (R28, R284). -/
def FramesGood (s : State) (o n : Nat) (read : Bool) : Prop :=
  ∀ f ∈ State.framesOf o n, s.frameIn f = true ∧ (read = true → f ∉ s.poisoned)

/-- A buffer that can be read or written whole at once: host memory, this device's own HBM with its frames in service, or a Deck
region without tags (R28, R130, R284). -/
def BufHere (s : State) (d : BufDesc) (read : Bool) : Prop :=
  (d.kind = 1 → d.addr / 2 ^ 36 = s.node ∧ FramesGood s (d.addr % 2 ^ 36) d.count read) ∧
    (2 ≤ d.kind → s.tagged (State.bufTile d) (State.bufRgn d) = false)

/-- The bytes of a buffer. -/
def bufBytes (s : State) (p : Nat) (d : BufDesc) : List Byte := memRead (bufMem s d) (bufAt s p d) d.count

/-! ## Tile instructions -/

/-- Tile `t` issues instruction `x`, of opcode `op`, and carries it out now: its WAIT_EN is met, the tags of its operands are as it
needs them, and it is held at no cut barrier (R161, R176, R275). -/
def Issues (s : State) (t op : Nat) (x : Issue) : Prop :=
  s.current t = some x ∧ iOp x.i = op ∧ s.waitFirst x = false ∧ s.tagNeed x = none ∧ s.barred x = false

/-- The tile's next instruction is the one after `x`, or the first of a LOOP's body that has repetitions left (R164). -/
def MovesOn (s u : State) (x : Issue) : Prop :=
  u.fget F.PT_RUN_INDEX x.t = (nextIns (s.tile x.t).loop x.i (s.fget F.PT_RUN_INDEX x.t)).1 % 2 ^ 16

/-- The Deck memory is that of `s` with an operand's elements set, in storage order, to `count` codes given by `code`. -/
def Writes (s u : State) (d : View) (count : Nat) (code : Nat → Nat) : Prop :=
  u.deck = (s.putElems d ((List.range count).map code)).deck

/-! ## What a command leaves alone -/

/-- The registers that count or log what happens, beside what a command is for: event counters (R320), bytes moved (R243),
trace status and counts (R319), the next fault number (R261), the event ring's pointers (R264). -/
def ledger : Reg → Bool
  | .EVC_VAL | .TG_BYTES_RSV | .TG_BYTES_EXC | .TRC_STAT | .TRC_CNT | .FLT_STAT | .FLT_EVR_PTR | .FLT_EVR_STAT => true
  | _ => false

/-- A byte of host memory that the device itself may log into: an entry of the enabled event ring (R264), or the region of
a STREAM trace (R317). -/
def LogByte (s : State) (a : Nat) : Prop :=
  (s.flag F.FLT_EVR_CFG_EN 0 = true ∧
    ∃ i, i < 2 ^ 16 ∧ (s.fget F.FLT_EVR_BASE_ADDR 0 * 4096 + i * 32) % 2 ^ 64 ≤ a ∧
      a < (s.fget F.FLT_EVR_BASE_ADDR 0 * 4096 + i * 32) % 2 ^ 64 + 32) ∨
  (s.flag F.TRC_STAT_MODE 0 = true ∧ ∃ o j, j < 16 ∧ a = s.streamAddr o % 2 ^ 64 + j ∧
    (o = 0 ∨ ∃ k, o = 256 + k % s.streamRecs * 16))

/-- The two states agree in one kind of state. Host memory: every byte outside the device's own logs. -/
def Same (s t : State) : Part → Prop
  | .time => t.tb = s.tb ∧ t.wrap = s.wrap ∧ t.ticks = s.ticks ∧ t.goodSyncs = s.goodSyncs ∧ t.servoStepped = s.servoStepped
  | .phase => t.bearings = s.bearings ∧ t.entries = s.entries ∧ t.holds = s.holds ∧ t.windows = s.windows
  | .ingress => t.ports = s.ports ∧ t.descs = s.descs ∧ t.filters = s.filters ∧ t.meters = s.meters ∧
      t.tokens = s.tokens ∧ t.gates = s.gates
  | .egress => t.pwms = s.pwms ∧ t.pulses = s.pulses ∧ t.groups = s.groups ∧ t.queues = s.queues ∧ t.txq = s.txq ∧
      t.tags = s.tags ∧ t.smac = s.smac ∧ t.lastTag = s.lastTag ∧ t.rampUs = s.rampUs
  | .cmds => t.cmds = s.cmds ∧ t.phases = s.phases ∧ t.turnPart = s.turnPart ∧ t.turnRing = s.turnRing
  | .regions => t.mrs = s.mrs
  | .programs => t.progs = s.progs ∧ t.runs = s.runs ∧ t.nextRun = s.nextRun ∧ t.nextProg = s.nextProg
  | .tiles => t.tiles = s.tiles
  | .stays => t.stays = s.stays
  | .scales => t.scales = s.scales
  | .deck => t.deck = s.deck
  | .deckTags => t.full = s.full ∧ t.fedOut = s.fedOut
  | .waiters => t.waiters = s.waiters
  | .hbm => t.hbm = s.hbm
  | .poison => t.poisoned = s.poisoned
  | .host => ∀ a, ¬ LogByte s a → memGet t.host a = memGet s.host a
  | .held => t.held = s.held ∧ t.turnRsv = s.turnRsv ∧ t.turnExc = s.turnExc
  | .commit => t.commit = s.commit ∧ t.degradedRes = s.degradedRes
  | .ceNow => t.ceNow = s.ceNow ∧ t.deckCe = s.deckCe ∧ t.ceDue = s.ceDue
  | .causeway => t.peerMasks = s.peerMasks ∧ t.conflicts = s.conflicts ∧ t.restores = s.restores ∧ t.applied = s.applied ∧
      t.credits = s.credits ∧ t.replays = s.replays ∧ t.atomicSeq = s.atomicSeq
  | .digests => t.digests = s.digests
  | .keystone => t.fuses = s.fuses ∧ t.bankA = s.bankA ∧ t.bankB = s.bankB ∧ t.reverted = s.reverted ∧
      t.config = s.config ∧ t.fallback = s.fallback ∧ t.swStart = s.swStart ∧ t.policies = s.policies ∧ t.spdm = s.spdm ∧ t.ide = s.ide
  | .scrubs => t.scrubs = s.scrubs ∧ t.scrubInfo = s.scrubInfo
  | .hashes => t.hashes = s.hashes ∧ t.hashLast = s.hashLast
  | .caisson => t.csCtx = s.csCtx ∧ t.vault = s.vault ∧ t.vaultBad = s.vaultBad
  | .thermal => t.thermal = s.thermal
  | .power => t.power = s.power
  | .jtag => t.jtag = s.jtag

/-- Nothing changes but the registers that `regs` names, the kinds of state in `parts`, and the ledgers and logs; the
queue of waiting commands stays. -/
def Frame (regs : Reg → Nat → Prop) (parts : List Part) (s t : State) : Prop :=
  t.pending = s.pending ∧ (∀ q k, ledger q = false → ¬ regs q k → t.rget q k = s.rget q k) ∧ ∀ p, p ∉ parts → Same s t p

/-- What any tile instruction may change: the sequencer's state, its run's marks, and tags at the end of its span. -/
def tileParts : List Part := [.tiles, .programs, .deckTags]

/-- No register is named. -/
def noReg (_ : Reg) (_ : Nat) : Prop := False

/-- One register, at one index, is named. -/
def oneReg (r : Reg) (k : Nat) (q : Reg) (j : Nat) : Prop := q = r ∧ j = k

/-- The registers of a list, at one index, are named. -/
def theRegs (rs : List Reg) (k : Nat) (q : Reg) (j : Nat) : Prop := q ∈ rs ∧ j = k

/-- The registers of a list, at the indices of a list, are named. -/
def regsAt (rs : List Reg) (ks : List Nat) (q : Reg) (j : Nat) : Prop := q ∈ rs ∧ j ∈ ks

/-- Of register `r`, index `k`, no bit changes but those of the fields in `fs`. -/
def OnlyBits (s t : State) (r : Reg) (k : Nat) (fs : List Fld) : Prop :=
  ∀ i, (∀ f ∈ fs, ¬ (f.lo ≤ i ∧ i < f.lo + f.w)) → (t.rget r k).getLsbD i = (s.rget r k).getLsbD i

/-- The newest fault record has this class and cause (R261, R262). -/
def Newest (t : State) (cls cause : Nat) : Prop := ∃ f, t.faults.head? = some f ∧ f.cls = cls ∧ f.cause = cause

/-- Bearing channel `c` is valid and has just taken a source phase `x` (R39, R42). -/
def AtPhase (s t : State) (c x : Nat) : Prop :=
  t.fget F.BR_CH_PHASE_PHASE c = (x + s.fget F.BR_CH_OFFSET_OFFSET c) % 2 ^ 32 ∧ t.fget F.BR_CH_STAMP_NS c = s.now.toNat ∧
    t.flag F.BR_CH_STAT_VALID c = true

/-- Bearing channel `c` has lost its source (R44). -/
def Lost (t : State) (c : Nat) : Prop := t.flag F.BR_CH_STAT_VALID c = false ∧ t.flag F.BR_CH_STAT_SRC_LOST c = true

/-- No phase alarm is armed on a channel of the list. -/
def Quiet (s : State) (cs : List Nat) : Prop := ∀ c ∈ cs, s.phaseAlarms c = []

/-- No phase window is armed on a channel of the list. -/
def Unwatched (s : State) (cs : List Nat) : Prop :=
  ∀ w, w < 32 → s.flag F.BR_WIN_STAT_ARMED w = true → s.flag F.BR_WIN_CFG_DOMAIN w = true → s.fget F.BR_WIN_CFG_CHANNEL w ∉ cs

/-- Every armed phase window on a channel of the list that lacks a stamp has closed INCOMPLETE, and is armed again only with
REPEAT (R59, R60). -/
def WindowsClosed (s t : State) (cs : List Nat) : Prop :=
  ∀ w, w < 32 → s.flag F.BR_WIN_STAT_ARMED w = true → s.flag F.BR_WIN_CFG_DOMAIN w = true → s.fget F.BR_WIN_CFG_CHANNEL w ∈ cs →
    ((s.win w).start = none ∨ (s.win w).stop = none) → t.flag F.BR_WIN_STAT_INCOMPLETE w = true ∧ t.flag F.BR_WIN_STAT_DONE w = true ∧
      t.fget F.BR_WIN_STAT_COUNT w = (s.fget F.BR_WIN_STAT_COUNT w + 1) % 2 ^ F.BR_WIN_STAT_COUNT.w ∧
      t.flag F.BR_WIN_STAT_ARMED w = s.flag F.BR_WIN_CFG_REPEAT w

/-- Descriptor `n` can take a whole unit of `len` bytes now: armed, a record free, the ring not skipping, no window gating it, no
unit in progress, and room in the hub (R73, R77-R79). -/
def Takes (s : State) (n len : Nat) : Prop :=
  s.fget F.ING_D_CTRL_STATE n ≠ 0 ∧ s.recordFree n = true ∧ (s.desc n).skipping = false ∧ s.gating n = [] ∧
    (s.desc n).cur = none ∧ len + State.backlogBytes (s.desc n) ≤ 32768

/-- Descriptor `n` has taken a unit of the bytes `bs` now, whole, with the next sequence number (R72, R80, R81). -/
def Taken (s t : State) (n flags info : Nat) (bs : List Byte) : Prop :=
  t.fget F.ING_D_CTRL_STATE n = 2 ∧ (t.desc n).cur = none ∧ (t.desc n).seq = (s.desc n).seq + 1 ∧
    ∃ u, (t.desc n).backlog = (s.desc n).backlog ++ [u] ∧ u.seq = (s.desc n).seq ∧ u.ts = s.now ∧ u.tsEnd = s.now ∧
      State.unitData u = bs ∧ u.complete = true ∧ u.info = info ∧
      u.flags = flags + (if s.flag F.ING_D_CFG_PH_EN n && (s.phaseOf (s.fget F.ING_D_CFG_BR_CH n)).isNone then 1 else 0) +
        (if s.flag F.TB_STATUS_TB_LOCKED 0 then 0 else 512)

/-- A unit the port discards: ERRORS and ERR, nothing else (R63). -/
def Discarded (s t : State) (src : Nat) : Prop :=
  t.fget F.ING_PORT_CNT_ERRORS src = (s.fget F.ING_PORT_CNT_ERRORS src + 1) % 2 ^ F.ING_PORT_CNT_ERRORS.w ∧
    t.flag F.ING_PORT_STAT_ERR src = true ∧ OnlyBits s t .ING_PORT_CNT src [F.ING_PORT_CNT_ERRORS] ∧
    OnlyBits s t .ING_PORT_STAT src [F.ING_PORT_STAT_ERR] ∧ Frame (theRegs [.ING_PORT_CNT, .ING_PORT_STAT] src) [.ingress] s t

/-- A unit that no descriptor takes: UNMATCHED, nothing else (R63). -/
def Unmatched (s t : State) (src : Nat) : Prop :=
  t.fget F.ING_PORT_CNT_UNMATCHED src = (s.fget F.ING_PORT_CNT_UNMATCHED src + 1) % 2 ^ F.ING_PORT_CNT_UNMATCHED.w ∧
    OnlyBits s t .ING_PORT_CNT src [F.ING_PORT_CNT_UNMATCHED] ∧ Frame (oneReg .ING_PORT_CNT src) [.ingress] s t

/-- A register write that is discarded and recorded with this cause (R262). -/
def Recorded (s t : State) (cause : Nat) : Prop := Newest t 1 cause ∧ Frame noReg [] s t

/-- The registers that a capacity recompute writes (R243, R252-R255, R109). -/
def capacityRegs (q : Reg) (_ : Nat) : Prop :=
  q ∈ [Reg.TG_EFF, .TG_CAP, .TG_PART, .TG_STATUS, .ACT_ADV_STAT, .ACT_ADV_TSTAT, .ACT_ADV_CNT]

/-- Either of two sets of registers. -/
def orRegs (a b : Reg → Nat → Prop) (q : Reg) (k : Nat) : Prop := a q k ∨ b q k

/-- The `n` bytes of a memory from `a` read 0. -/
def Zeros (m : Memory) (a n : Nat) : Prop := ∀ x, a ≤ x → x < a + n → memGet m x = 0#8

/-- What a kernel without a lock leaves: the bytes of its work at its output, its core idle, its result held, and a command that
called it ended with that result (R171, R172). -/
def KernelDone (s u : State) (t c id : Nat) (work : State → State.Kern → State.Work) : Prop :=
  let k : State.Kern := { t := t, id := id, p := (s.stay t c).params, ab := (s.stay t c).abandoned }
  let w := work s k
  let res := State.kernResult k (w.reads.map (fun r => (leNat (s.deckGet t r.1 r.2) : Int)))
  u.deck = (s.deckPut t k.dst w.out).deck ∧ u.stayBusy t c = false ∧ (u.stay t c).result = res ∧ (u.stay t c).owner = none ∧
    (∀ q g d, (s.stay t c).owner = some (.cmd q g) → s.findCmd q g = some d → d.signal = false → Ended u q g 0 res.toNat) ∧
    ((∀ q g d, (s.stay t c).owner = some (.cmd q g) → s.findCmd q g = some d → d.signal = false) →
      Frame (oneReg .PT_STAY t) [.deck, .stays, .cmds] s u)

/-! ## The mailbox -/

/-- The requests of the mailbox: their session, and whether they are answered in RECOVERY (R326, R332, R337, R338). -/
def requestOf : Instr → Option (Session × Bool)
  | .spdmGetVersion ses | .spdmGetCapabilities ses | .spdmNegotiateAlgorithms ses | .spdmGetDigests ses => some (ses, true)
  | .spdmGetCertificate ses _ | .spdmGetMeasurements ses _ _ => some (ses, true)
  | .spdmChallenge ses _ _ | .spdmKeyExchange ses _ _ | .spdmChunkSend ses _ _ _ | .spdmChunkGet ses _ _ => some (ses, false)
  | .spdmGetCsr ses | .spdmSetCertificate ses _ _ | .ideKSetGo ses _ => some (ses, false)
  | .tdispGetVersion ses _ | .tdispGetCapabilities ses _ | .tdispLock ses _ | .tdispGetReport ses _ => some (ses, false)
  | .tdispGetState ses _ | .tdispStart ses _ | .tdispStop ses _ => some (ses, false)
  | .spdmFinish _ _ => some (none, false)
  | .spdmHeartbeat k | .spdmKeyUpdate k | .spdmEndSession k => some (some k, false)
  | _ => none

/-- A request of this session is read and answered now: PERST# is not asserted, configuration requests are completed, the
device runs a bank and is in no bank switch window, and a session named is open (R326, R332, R336, R395, R400). -/
def Talks (s : State) (ses : Session) : Prop :=
  s.power.perst = false ∧ s.configOpen = true ∧ s.fget F.KS_STAT_STATE 0 ≠ 3 ∧ s.switching = false ∧ s.lostSession ses = false

/-- One response leaves the device. -/
def Sent (s t : State) (r : Resp) : Prop := t.outs = s.outs ++ [.resp r]

/-- One response leaves the device, and nothing else changes. -/
def Says (s t : State) (r : Resp) : Prop := Sent s t r ∧ Frame noReg [] s t

/-! ## Power -/

/-- What every device reset leaves: registers at their reset values but for those that name the next bank, the trip cause and the
reset source, memories empty, no command in flight; fuses, flash, host memory and the waiting commands stay (R327, R328,
R381, R390). -/
def Restarted (s t : State) : Prop :=
  (∀ q k, q ∉ [Reg.KS_STAT, .TH_STAT, .KS_BOOT] → t.rget q k = regReset q k) ∧
    t.fget F.KS_STAT_NEXT_BANK 0 = s.fget F.KS_STAT_NEXT_BANK 0 ∧ t.fget F.KS_STAT_STATE 0 = 0 ∧ t.hbm = [] ∧ t.deck = [] ∧
    t.vault = [] ∧ t.cmds = [] ∧ t.progs = [] ∧ t.runs = [] ∧ t.faults = [] ∧ t.tb = 0 ∧ t.ide = 0 ∧ t.pending = s.pending ∧
    Same s t .host ∧ t.fuses = s.fuses ∧ t.bankA = s.bankA ∧ t.bankB = s.bankB ∧ t.spdm = { slot1 := s.spdm.slot1 } ∧
    t.power.pll = false ∧ t.power.boot = false ∧ t.power.hubs = false ∧ t.power.hostReady = false

end Sys2Proof.Safety
end

