-- ==== Sys2Proof/Certificates/Slice0/Obligations.lean ====
section
/-! DEFINITION. The statements for the provers: what reset leaves, what a step does, and for every command what it does and
what it leaves alone. -/

open Sys2Proof Sys2Proof.Machine Sys2Proof.Machine.State Sys2Proof.Safety

/-- A step runs the command at the front of the queue; on an empty queue it is a tick (the model's choice, log entry
1) (00_scope.md Commands of the device, 02_time_and_phase.md R30) -/
def Obligations.StepTakesFront : Prop :=
  (∀ (c : Instr) (cs : List Instr) (s : State), s.pending = c :: cs → step s = exec c { s with pending := cs }) ∧
  (∀ s : State, s.pending = [] → step s = .next (State.tick s))

/-- The timebase: 56 bits, 4.0 ns a tick and 0 from reset; a tick adds TB_INC (R30) -/
def Obligations.TickAddsIncrement : Prop :=
  (∀ s : State, s.power.pll = true →
    (State.tick s).tb.toNat + (State.tick s).wrap.toNat * 2 ^ 56 =
      (s.tb.toNat + s.wrap.toNat * 2 ^ 56 + s.fget F.TB_INC_INC 0) % 2 ^ 64 ∧
    (State.tick s).now.toNat = (State.tick s).tb.toNat / 2 ^ 24 ∧
    (s.held = [] → Frame (fun q k => q = .TG_WAIT ∧ k < 40) [.time, .ingress, .causeway] s (State.tick s)) ∧
    ∀ p, p ∉ [Part.time, .ingress, .causeway, .held] → Same s (State.tick s) p) ∧
  State.reset.fget F.TB_INC_INC 0 = 4 * 2 ^ 24 ∧ State.reset.tb = 0

/-- Reset: every register at its reset value, memories empty, nothing waiting; both invariants hold (00_scope.md R11,
16_first_second.md R391, 04_excitation_and_egress.md R94) -/
def Obligations.ResetState : Prop :=
  State.reset.pending = [] ∧ (∀ r k, State.reset.rget r k = regReset r k) ∧ State.reset.deck = [] ∧ State.reset.hbm = [] ∧
  State.reset.host = [] ∧ State.reset.vault = [] ∧ State.reset.cmds = [] ∧
  (∀ c, c < 4 → State.reset.fget F.EXC_CH_STAT_STATE c = 0) ∧
  (∀ p, p < 8 → State.reset.fget F.TRH_PART_CFG_TAG_SHARE p = 0x40) ∧ State.reset.fget F.TB_CTRL_SERVO 0 = 1 ∧
  Canonical State.reset ∧ WfQueue State.reset

/-- Every command, whatever its data, answers a next state, keeps the queue, and makes nothing wait at a Tollgate but itself
(00_scope.md Commands of the device, 09_partitions_tollgates_serving.md R241, 16_first_second.md R391) -/
def Obligations.EveryCommandRuns : Prop :=
  ∀ (c : Instr) (s : State), ∃ t, exec c s = .next t ∧ t.pending = s.pending ∧ ∀ e ∈ t.held, e ∈ s.held ∨ e.1 = c

/-- Invariant: a step answers a next state, takes one command from the queue, or on an empty queue lets those go on that
waited, and the queue stays well formed (00_scope.md Commands of the device, 05_trehar_commands.md R148,
09_partitions_tollgates_serving.md R241, 09_partitions_tollgates_serving.md R242) -/
def Obligations.QueueStaysWellFormed : Prop :=
  ∀ s : State, WfQueue s → ∃ t, step s = .next t ∧ WfQueue t ∧ (s.pending ≠ [] → t.pending = s.pending.tail) ∧
    (s.pending = [] → (∀ c ∈ t.pending, ∃ e ∈ s.held, e.1 = c) ∧ ∀ e ∈ t.held, e ∈ s.held)

/-- Invariant: Decks, HBM, host memory, the Vault and the register table keep their canonical form (00_scope.md R7,
06_pier_tiles_and_decks.md R173, 14_caisson_sealed_arithmetic.md R355) -/
def Obligations.MemoriesStayCanonical : Prop :=
  ∀ s t : State, Canonical s → step s = .next t → Canonical t

/-- Enabling and disabling a ring pair: RUNNING with its pointers at 0, CFG_ERR, DRAINING, DISABLED
(05_trehar_commands.md R117, 05_trehar_commands.md R151) -/
def Obligations.RingsEnableAndDrain : Prop :=
  (∀ (fn : Fn) (r : Fin 128) (v : W32) (s : State), Live s → s.ownsRing fn r = true → s.ringState r = 0 →
    (fn = .pf → s.tdiLocked (r.val / 16) = false ∧ v.getLsbD 30 = false) →
    ∃ t, exec (.ringEnable fn r v) s = .next t ∧
      t.fget F.TRH_RING_CFG_SQ_LOG2 r = v.toNat / 2 ^ 22 % 32 ∧ t.fget F.TRH_RING_CFG_CQ_LOG2 r = v.toNat / 2 ^ 17 % 32 ∧
      t.fget F.TRH_RING_CFG_OWNER r = s.fget F.TRH_RING_CFG_OWNER r ∧
      (if (4 ≤ v.toNat / 2 ^ 22 % 32 ∧ v.toNat / 2 ^ 22 % 32 ≤ 16) ∧ (4 ≤ v.toNat / 2 ^ 17 % 32 ∧ v.toNat / 2 ^ 17 % 32 ≤ 16)
        then t.rget .TRH_RING_PTR r = 0 ∧ t.ringState r = 1 ∧ t.fget F.TRH_RING_CFG_EN r = 1 ∧ natBit t.phases r = true
        else t.fget F.TRH_RING_STAT_CFG_ERR r = 1 ∧ t.ringState r = 0 ∧ t.phases = s.phases) ∧
      t.cmds = s.cmds ∧ Frame (theRegs [.TRH_RING_CFG, .TRH_RING_PTR, .TRH_RING_STAT] r) [.cmds] s t) ∧
  (∀ (fn : Fn) (r : Fin 128) (v : W32) (s : State), Live s → s.ownsRing fn r = true → s.ringState r ≠ 0 →
    (fn = .pf → s.tdiLocked (r.val / 16) = false ∧ v.getLsbD 30 = false) →
    v.toNat / 2 ^ 22 % 32 = s.fget F.TRH_RING_CFG_SQ_LOG2 r → v.toNat / 2 ^ 17 % 32 = s.fget F.TRH_RING_CFG_CQ_LOG2 r →
    ∃ t, exec (.ringDisable fn r v) s = .next t ∧ t.ringState r = 2 ∧ t.fget F.TRH_RING_CFG_EN r = 0 ∧
      t.rget .TRH_RING_PTR r = s.rget .TRH_RING_PTR r ∧ t.fget F.TRH_RING_CFG_OWNER r = s.fget F.TRH_RING_CFG_OWNER r ∧
      Frame (theRegs [.TRH_RING_CFG, .TRH_RING_STAT] r) [] s t) ∧
  (∀ (r : Fin 128) (s : State), s.ringState r = 2 → s.ringInflight r = 0 →
    ∃ t, exec (.ringDrained r) s = .next t ∧ t.ringState r = 0 ∧ Frame (oneReg .TRH_RING_STAT r) [] s t) ∧
  (∀ (r : Fin 128) (s : State), ¬ (s.ringState r = 2 ∧ s.ringInflight r = 0) → exec (.ringDrained r) s = .next s)

/-- Doorbells of the owner move SQ_TAIL and CQ_HEAD, halt or are refused out of range (05_trehar_commands.md R119,
05_trehar_commands.md R120, 05_trehar_commands.md R118) -/
def Obligations.DoorbellsMovePointers : Prop :=
  (∀ (fn : Fn) (r : Fin 128) (v : W16) (s : State), Live s → s.ownsRing fn r = true →
    (v.toNat < 2 ^ s.fget F.TRH_RING_CFG_SQ_LOG2 r →
      ∃ t, exec (.trhDbSq fn r v) s = .next t ∧ t.fget F.TRH_RING_PTR_SQ_TAIL r = v.toNat ∧
        t.fget F.TRH_RING_PTR_SQ_HEAD r = s.fget F.TRH_RING_PTR_SQ_HEAD r ∧
        t.fget F.TRH_RING_PTR_CQ_TAIL r = s.fget F.TRH_RING_PTR_CQ_TAIL r ∧
        t.fget F.TRH_RING_PTR_CQ_HEAD r = s.fget F.TRH_RING_PTR_CQ_HEAD r ∧ Frame (oneReg .TRH_RING_PTR r) [] s t) ∧
    (2 ^ s.fget F.TRH_RING_CFG_SQ_LOG2 r ≤ v.toNat → s.ringState r = 1 →
      ∃ t, exec (.trhDbSq fn r v) s = .next t ∧ t.ringState r = 3 ∧ t.fget F.TRH_RING_STAT_HALT_CAUSE r = 0x0109 ∧
        Frame (oneReg .TRH_RING_STAT r) [] s t) ∧
    (v.toNat < 2 ^ s.fget F.TRH_RING_CFG_CQ_LOG2 r →
      (v.toNat + 2 ^ s.fget F.TRH_RING_CFG_CQ_LOG2 r - s.fget F.TRH_RING_PTR_CQ_HEAD r) % 2 ^ s.fget F.TRH_RING_CFG_CQ_LOG2 r ≤
        (s.fget F.TRH_RING_PTR_CQ_TAIL r + 2 ^ s.fget F.TRH_RING_CFG_CQ_LOG2 r - s.fget F.TRH_RING_PTR_CQ_HEAD r) %
          2 ^ s.fget F.TRH_RING_CFG_CQ_LOG2 r →
      ∃ t, exec (.trhDbCq fn r v) s = .next t ∧ t.fget F.TRH_RING_PTR_CQ_HEAD r = v.toNat ∧
        t.fget F.TRH_RING_PTR_CQ_TAIL r = s.fget F.TRH_RING_PTR_CQ_TAIL r ∧
        t.fget F.TRH_RING_PTR_SQ_TAIL r = s.fget F.TRH_RING_PTR_SQ_TAIL r ∧
        t.fget F.TRH_RING_PTR_SQ_HEAD r = s.fget F.TRH_RING_PTR_SQ_HEAD r ∧ Frame (oneReg .TRH_RING_PTR r) [] s t) ∧
    (2 ^ s.fget F.TRH_RING_CFG_CQ_LOG2 r ≤ v.toNat →
      ∃ t, exec (.trhDbCq fn r v) s = .next t ∧ Frame noReg [] s t)) ∧
  (∀ (p : Fin 8) (r : Fin 128) (v : W16) (s : State), s.ownsRing (.vf p) r = false →
    exec (.trhDbSq (.vf p) r v) s = .next s ∧ exec (.trhDbCq (.vf p) r v) s = .next s) ∧
  (∀ (r : Fin 128) (v : W16) (s : State), s.ownsRing .pf r = false →
    (∃ t, exec (.trhDbSq .pf r v) s = .next t ∧ Frame noReg [] s t) ∧
    (∃ t, exec (.trhDbCq .pf r v) s = .next t ∧ Frame noReg [] s t))

/-- A fetch takes one whole packet of the ring whose turn it is: SQ_HEAD passes it, its checks are made and its command is in
flight (05_trehar_commands.md R121, 05_trehar_commands.md R122, 05_trehar_commands.md R123, 05_trehar_commands.md R126,
05_trehar_commands.md R127, 09_partitions_tollgates_serving.md R238) -/
def Obligations.FetchTakesOnePacket : Prop :=
  (∀ (r : Fin 128) (s : State), s.nextFetch = some r.val → Flowing s (r.val / 16) →
    (2 ^ s.fget F.TRH_RING_CFG_SQ_LOG2 r - 1 < s.headLen r →
      ∃ t, exec (.fetch r) s = .next t ∧ t.ringState r = 3 ∧ t.fget F.TRH_RING_STAT_HALT_CAUSE r = 0x0103 ∧
        Frame (oneReg .TRH_RING_STAT r) [] s t) ∧
    (s.headLen r ≤ 2 ^ s.fget F.TRH_RING_CFG_SQ_LOG2 r - 1 →
      let len := s.headLen r
      let b := s.packet r (s.fget F.TRH_RING_PTR_SQ_HEAD r) (max len 1)
      let p := parsePacket b (leField b 0 1) len (r.val / 16)
      let first := s.packetStatus r b len p
      let rest := s.checkOf { ring := r, tag := natBits (leField b 2 2) 0 9, part := r.val / 16, opc := leField b 0 1, par := p.cmd }
      let st := if len = 0 then 0x0101 else if first = 0 then rest else first
      ∃ t c, exec (.fetch r) s = .next t ∧ t.cmds = s.cmds ++ [c] ∧
        c.ring = r.val ∧ c.part = r.val / 16 ∧ c.slot = s.fget F.TRH_RING_PTR_SQ_HEAD r ∧ c.opc = leField b 0 1 ∧
        c.tag = natBits (leField b 2 2) 0 9 ∧ c.idPart = natBits (leField b 2 2) 9 3 ∧ c.unordered = natBit (leField b 4 1) 0 ∧
        c.fence = natBit (leField b 4 1) 1 ∧ c.signal = natBit (leField b 4 1) 2 ∧ c.sigSem = natBits (leField b 6 2) 0 13 ∧
        (len ≠ 0 → c.par = p.cmd) ∧ c.done = (if st = 0 then none else some (st, 0)) ∧ c.checked = decide (st = 0) ∧
        c.started = false ∧
        t.fget F.TRH_RING_PTR_SQ_HEAD r =
          (s.fget F.TRH_RING_PTR_SQ_HEAD r + max len 1) % 2 ^ s.fget F.TRH_RING_CFG_SQ_LOG2 r % 2 ^ 16 ∧
        t.fget F.TRH_RING_PTR_SQ_TAIL r = s.fget F.TRH_RING_PTR_SQ_TAIL r ∧
        t.turnPart = (if r.val / 16 = 0 then s.turnPart else r.val / 16) ∧ tabGet 15 t.turnRing (r.val / 16) = r.val % 16 ∧
        (st = 0 ∨ len = 0 ∨ first ≠ 0 → Frame (oneReg .TRH_RING_PTR r) [.cmds, .regions] s t) ∧
        Frame (fun q k => oneReg .TRH_RING_PTR r q k ∨ q = .BR_AL_STAT ∨ q = .ING_D_CTRL) [.cmds, .regions] s t)) ∧
  (∀ (r : Fin 128) (s : State), s.nextFetch ≠ some r.val → exec (.fetch r) s = .next s) ∧
  (∀ (r q : Fin 128) (s : State), s.nextFetch = some r.val → s.fetchable q = true → s.fetchable r = true ∧
    (q.val < 16 → r.val < 16))

/-- A completion: 16 bytes at CQ_TAIL, CQ_TAIL advances, and the command is no longer in flight (05_trehar_commands.md
R143, 05_trehar_commands.md R144, 05_trehar_commands.md R127, 05_trehar_commands.md R146) -/
def Obligations.CompletionEntry : Prop :=
  (∀ (r : Fin 128) (tag : Fin 512) (s : State) (c : Cmd) (st res : Nat), s.switching = false → s.resetBusy (r.val / 16) = false →
    Flowing s c.part →
    s.postable r tag = some c → c.done = some (st, res) → c.idPart < 8 → st < 2 ^ 16 → res < 2 ^ 32 → c.slot < 2 ^ 16 →
    ∃ t, exec (.completionPost r tag) s = .next t ∧ t.cmds = s.cmds.erase c ∧
      t.fget F.TRH_RING_PTR_CQ_TAIL r =
        (s.fget F.TRH_RING_PTR_CQ_TAIL r + 1) % 2 ^ s.fget F.TRH_RING_CFG_CQ_LOG2 r % 2 ^ 16 ∧
      t.fget F.TRH_RING_PTR_CQ_HEAD r = s.fget F.TRH_RING_PTR_CQ_HEAD r ∧
      (s.fget F.TRH_RING_PTR_CQ_TAIL r + 1 ≠ 2 ^ s.fget F.TRH_RING_CFG_CQ_LOG2 r → t.phases = s.phases) ∧
      (let a := (s.fget F.TRH_CQ_BASE_ADDR r * 4096 + s.fget F.TRH_RING_PTR_CQ_TAIL r * 16) % 2 ^ 64
       ((∀ x, a ≤ x → x < a + 16 → ¬ LogByte s x) →
        memNat t.host (a + 2) 2 = st ∧ memNat t.host (a + 4) 4 = res ∧
        memNat t.host (a + 8) 2 = s.fget F.TRH_RING_PTR_SQ_HEAD r ∧ memNat t.host (a + 10) 2 = c.slot ∧
        memNat t.host (a + 12) 4 = s.now.toNat ∧ natBits (memNat t.host a 2) 0 9 = tag ∧ natBits (memNat t.host a 2) 9 3 = c.idPart ∧
        natBit (memNat t.host a 2) 12 = c.digest ∧ natBit (memNat t.host a 2) 13 = c.replay ∧
        natBit (memNat t.host a 2) 14 = c.unordered ∧ natBit (memNat t.host a 2) 15 = natBit s.phases r) ∧
       (∀ x, ¬ LogByte s x → ¬ (a ≤ x ∧ x < a + 16) → memGet t.host x = memGet s.host x)) ∧
      Frame (oneReg .TRH_RING_PTR r) [.cmds, .host] s t) ∧
  (∀ (r : Fin 128) (tag : Fin 512) (s : State), s.postable r tag = none → exec (.completionPost r tag) s = .next s) ∧
  (∀ (who : CoalOf) (s : State), ∃ t, exec (.coalescingTimeout who) s = .next t ∧ Frame noReg [] s t ∧
    (∀ r : Fin 128, who = .ring r → s.flag F.TRH_RING_IRQ_IRQ_EN r = true → s.fget F.TRH_RING_IRQ_COAL_US r ≠ 0 →
      tabGet 0 s.unsig r ≠ 0 → t.outs = s.outs ++ [.msix (s.ringFn r) r] ∧ tabGet 0 t.unsig r = 0))

/-- PHASE is 1 on the first pass after EN is set and alternates on each later pass (R144) -/
def Obligations.CompletionPhase : Prop :=
  (∀ (fn : Fn) (r : Fin 128) (v : W32) (s : State), Live s → s.ownsRing fn r = true → s.ringState r = 0 →
    (fn = .pf → s.tdiLocked (r.val / 16) = false ∧ v.getLsbD 30 = false) →
    4 ≤ v.toNat / 2 ^ 22 % 32 → v.toNat / 2 ^ 22 % 32 ≤ 16 → 4 ≤ v.toNat / 2 ^ 17 % 32 → v.toNat / 2 ^ 17 % 32 ≤ 16 →
    ∃ t, exec (.ringEnable fn r v) s = .next t ∧ t.fget F.TRH_RING_CFG_EN r = 1 ∧ t.fget F.TRH_RING_PTR_CQ_TAIL r = 0 ∧
      natBit t.phases r = true ∧ (∀ k, k ≠ r.val → natBit t.phases k = natBit s.phases k)) ∧
  (∀ (r : Fin 128) (tag : Fin 512) (s : State) (c : Cmd) (st res : Nat), s.switching = false → s.resetBusy (r.val / 16) = false →
    Flowing s c.part →
    s.postable r tag = some c → c.done = some (st, res) → c.idPart < 8 →
    ∃ t, exec (.completionPost r tag) s = .next t ∧
      (let a := (s.fget F.TRH_CQ_BASE_ADDR r * 4096 + s.fget F.TRH_RING_PTR_CQ_TAIL r * 16) % 2 ^ 64
       (∀ x, a ≤ x → x < a + 16 → ¬ LogByte s x) → natBit (memNat t.host a 2) 15 = natBit s.phases r) ∧
      (if s.fget F.TRH_RING_PTR_CQ_TAIL r + 1 = 2 ^ s.fget F.TRH_RING_CFG_CQ_LOG2 r
        then natBit t.phases r = !natBit s.phases r ∧ t.fget F.TRH_RING_PTR_CQ_TAIL r = 0
        else natBit t.phases r = natBit s.phases r) ∧
      (∀ k, k ≠ r.val → natBit t.phases k = natBit s.phases k))

/-- NOP ends with STATUS 0 and RESULT 0; its SIGNAL adds 1 to SIG_SEM (05_trehar_commands.md R131,
05_trehar_commands.md R125, 06_pier_tiles_and_decks.md R180) -/
def Obligations.NopAndSignalFlag : Prop :=
  (∀ (r : Fin 128) (tag : Fin 512) (s : State) (c : Cmd), Ready s r tag c → c.par = .nop →
    (c.signal = false → ∃ t, exec (.nop r tag) s = .next t ∧ Ended t r tag 0 0 ∧ Frame noReg [.cmds] s t) ∧
    (c.signal = true → s.semOk c.sigSem c.part = true → s.semLock c.sigSem = false →
      ∃ t, exec (.nop r tag) s = .next t ∧ Ended t r tag 0 0 ∧
        t.fget F.SEM_STAT_COUNT c.sigSem = min (s.fget F.SEM_STAT_COUNT c.sigSem + 1) 65535 ∧
        Frame (oneReg .SEM_STAT c.sigSem) [.cmds] s t))

/-- MR_REGISTER takes the lowest free handle; MR_DEREGISTER ends it once its users have ended (05_trehar_commands.md
R132, 05_trehar_commands.md R133, 05_trehar_commands.md R129) -/
def Obligations.MemoryRegions : Prop :=
  (∀ (r : Fin 128) (tag : Fin 512) (s : State) (c : Cmd) (base len access : Nat), Ready s r tag c → c.signal = false →
    c.par = .mrRegister base len access →
    (∀ h, s.freeMr c.part = some h →
      ∃ t, exec (.mrRegister r tag) s = .next t ∧ Ended t r tag 0 h ∧ 1 ≤ h ∧ h ≤ 255 ∧
        t.mr c.part h = { base := base, len := len, access := access, live := true } ∧
        (∀ p k, k < 256 → (p, k) ≠ (c.part, h) → t.mr p k = s.mr p k) ∧ Frame noReg [.cmds, .regions] s t) ∧
    (s.freeMr c.part = none →
      ∃ t, exec (.mrRegister r tag) s = .next t ∧ Ended t r tag 0x0302 0 ∧ Frame noReg [.cmds] s t)) ∧
  (∀ (r : Fin 128) (tag : Fin 512) (s : State) (c : Cmd) (h : Nat), Ready s r tag c → c.signal = false →
    c.par = .mrDeregister h →
    ∃ t, exec (.mrDeregister r tag) s = .next t ∧ (t.mr c.part h).live = false ∧
      (∀ d w, d.kind = 0 → d.mr = h → t.bufCheck c.part d w = 0x0202) ∧
      (if s.cmds.any (usesMr c.part h) then Waits t r tag
       else Ended t r tag 0 0 ∧ t.mr c.part h = {}) ∧ Frame noReg [.cmds, .regions] s t)

/-- DMA_COPY copies every byte from a buffer to another and ends with the count; where a tag stops it, or an empty ceiling
bucket, it waits; a check that fails ends it (05_trehar_commands.md R134, 05_trehar_commands.md R129,
05_trehar_commands.md R130, 01_load_paths.md R21, 09_partitions_tollgates_serving.md R241) -/
def Obligations.DmaCopyMovesBytes : Prop :=
  ∀ (r : Fin 128) (tag : Fin 512) (s : State) (c : Cmd) (src dst : BufDesc), Ready s r tag c → c.signal = false →
    c.par = .dmaCopy src dst →
    let whole := s.copyCheck c = 0 ∧ src.count = dst.count ∧ 0 < src.count ∧ c.moved = 0 ∧ BufHere s src true ∧ BufHere s dst false
    (Flowing s (r.val / 16) →
      (whole → ∃ t, exec (.dmaCopy r tag) s = .next t ∧ Ended t r tag 0 src.count ∧
        bufBytes t c.part dst = bufBytes s c.part src ∧
        SameOutside (bufMem s dst) (bufMem t dst) (bufAt s c.part dst) dst.count ∧ Frame noReg [.cmds, bufPart dst] s t) ∧
      (s.copyCheck c = 0 → min (s.bufReady src c.moved false) (s.bufReady dst c.moved true) = 0 →
        ∃ t, exec (.dmaCopy r tag) s = .next t ∧ Waits t r tag ∧ Frame noReg [.cmds] s t) ∧
      (s.copyCheck c ≠ 0 → ∃ t, exec (.dmaCopy r tag) s = .next t ∧ Ended t r tag (s.copyCheck c) 0 ∧
        Frame noReg [.cmds] s t)) ∧
    (whole → c.part = r.val / 16 → (∀ e ∈ s.held, e.1 ≠ .dmaCopy r tag) →
      (src.kind = 0 ∧ s.dry (State.tgIdx c.part 3) = true) ∨ (dst.kind = 0 ∧ s.dry (State.tgIdx c.part 4) = true) →
      ∃ i, exec (.dmaCopy r tag) s = .next { s with held := s.held ++ [(.dmaCopy r tag, i)] } ∧ s.dry i = true)

/-- Invariant: no two commands of a ring that have not ended carry one TAG, and each has passed its checks and belongs to the
partition of its ring (05_trehar_commands.md R126, 05_trehar_commands.md R127) -/
def Obligations.TagsStayUnique : Prop :=
  (∀ s t : State, InFlight s → step s = .next t → InFlight t) ∧ InFlight State.reset

/-- SIGNAL, WAIT, TRYWAIT and READ of a counting semaphore of the partition (06_pier_tiles_and_decks.md R180,
06_pier_tiles_and_decks.md R181, 06_pier_tiles_and_decks.md R188) -/
def Obligations.CountingSemaphores : Prop :=
  ∀ (r : Fin 128) (tag : Fin 512) (s : State) (c : Cmd) (n op sel k : Nat), Ready s r tag c → c.signal = false →
    c.par = .semOp n op sel k → s.semOk n c.part = true → s.semLock n = false →
    (op = 0 → ∃ t, exec (.semSignal r tag) s = .next t ∧ t.semCount n = min (s.semCount n + k) 65535 ∧
      Ended t r tag 0 (t.semCount n) ∧ (65535 < s.semCount n + k → t.fget F.SEM_STAT_OVERFLOW n = 1) ∧
      (s.semCount n + k ≤ 65535 → t.fget F.SEM_STAT_OVERFLOW n = s.fget F.SEM_STAT_OVERFLOW n) ∧
      Frame (oneReg .SEM_STAT n) [.cmds] s t) ∧
    (op = 2 → k ≤ s.semCount n → ∃ t, exec (.semTrywait r tag) s = .next t ∧ t.semCount n = s.semCount n - k ∧
      Ended t r tag 0 (s.semCount n - k) ∧ Frame (oneReg .SEM_STAT n) [.cmds] s t) ∧
    (op = 2 → s.semCount n < k → ∃ t, exec (.semTrywait r tag) s = .next t ∧ Ended t r tag 0x0602 0 ∧ Frame noReg [.cmds] s t) ∧
    (op = 1 → s.semWaiters n = [] → k ≤ s.semCount n → ∃ t, exec (.semWait r tag) s = .next t ∧
      t.semCount n = s.semCount n - k ∧ Ended t r tag 0 (s.semCount n - k) ∧ Frame (oneReg .SEM_STAT n) [.cmds] s t) ∧
    (op = 1 → ¬ (s.semWaiters n = [] ∧ k ≤ s.semCount n) → ∃ t, exec (.semWait r tag) s = .next t ∧ Waits t r tag ∧
      t.semWaiters n = s.semWaiters n ++ [{ who := .cmd r tag, n := k }] ∧ Frame noReg [.cmds, .waiters] s t) ∧
    (op = 6 → ∃ t, exec (.semRead r tag) s = .next t ∧ Ended t r tag 0 (s.semCount n) ∧ Frame noReg [.cmds] s t)

/-- ACQUIRE, TRYACQUIRE and RELEASE of a lock of the partition (06_pier_tiles_and_decks.md R182,
06_pier_tiles_and_decks.md R184, 06_pier_tiles_and_decks.md R181) -/
def Obligations.LockSemaphores : Prop :=
  ∀ (r : Fin 128) (tag : Fin 512) (s : State) (c : Cmd) (n op sel k : Nat), Ready s r tag c → c.signal = false →
    c.par = .semOp n op sel k → s.semOk n c.part = true → s.semLock n = true →
    (op = 4 → s.flag F.SEM_STAT_HELD n = false → ∃ t, exec (.semTryacquire r tag) s = .next t ∧
      Ended t r tag (if s.flag F.SEM_STAT_ABANDONED n then 2 else 0) 0 ∧ t.flag F.SEM_STAT_HELD n = true ∧ t.semCount n = 0 ∧
      t.lockHeldBy n (if sel = 1 then 3 else 4) (if sel = 1 then r.val / 16 else s.ringFn r) = true ∧
      t.fget F.SEM_STAT_ABANDONED n = s.fget F.SEM_STAT_ABANDONED n ∧
      Frame (theRegs [.SEM_STAT, .SEM_OWNER] n) [.cmds] s t) ∧
    (op = 4 → s.flag F.SEM_STAT_HELD n = true → ∃ t, exec (.semTryacquire r tag) s = .next t ∧ Ended t r tag 0x0602 0 ∧
      Frame noReg [.cmds] s t) ∧
    (op = 3 → s.flag F.SEM_STAT_HELD n = false → s.semWaiters n = [] → ∃ t, exec (.semAcquire r tag) s = .next t ∧
      Ended t r tag (if s.flag F.SEM_STAT_ABANDONED n then 2 else 0) 0 ∧ t.semCount n = 0 ∧
      t.lockHeldBy n (if sel = 1 then 3 else 4) (if sel = 1 then r.val / 16 else s.ringFn r) = true ∧
      Frame (theRegs [.SEM_STAT, .SEM_OWNER] n) [.cmds] s t) ∧
    (op = 3 → s.flag F.SEM_STAT_HELD n = true ∨ s.semWaiters n ≠ [] → s.ownsLock n { who := .cmd r tag, acquire := true, ownerSel := sel } = false →
      ∃ t, exec (.semAcquire r tag) s = .next t ∧ Waits t r tag ∧
        t.semWaiters n = s.semWaiters n ++ [{ who := .cmd r tag, acquire := true, ownerSel := sel }] ∧
        Frame noReg [.cmds, .waiters] s t) ∧
    (op = 3 → s.ownsLock n { who := .cmd r tag, acquire := true, ownerSel := sel } = true →
      ∃ t, exec (.semAcquire r tag) s = .next t ∧ Ended t r tag 0x0602 0 ∧ Frame noReg [.cmds] s t) ∧
    (op = 5 → (s.lockHeldBy n 4 (s.ringFn r) = true ∨ s.lockHeldBy n 3 c.part = true) →
      ∃ t, exec (.semRelease r tag) s = .next t ∧ Ended t r tag 0 1 ∧ t.semCount n = 1 ∧ t.flag F.SEM_STAT_HELD n = false ∧
        t.fget F.SEM_OWNER_KIND n = 0 ∧ t.fget F.SEM_STAT_ABANDONED n = 0 ∧
        Frame (theRegs [.SEM_STAT, .SEM_OWNER] n) [.cmds] s t) ∧
    (op = 5 → s.lockHeldBy n 4 (s.ringFn r) = false → s.lockHeldBy n 3 c.part = false →
      ∃ t, exec (.semRelease r tag) s = .next t ∧ Ended t r tag 0x0602 0 ∧ Frame noReg [.cmds] s t)

/-- The head waiter is granted in order; SEM_CFG and DK_RGN_CFG writes and their refusals (06_pier_tiles_and_decks.md
R181, 06_pier_tiles_and_decks.md R179, 06_pier_tiles_and_decks.md R175, 06_pier_tiles_and_decks.md R174) -/
def Obligations.GrantAndConfigureSemaphores : Prop :=
  (∀ (n : Fin 8192) (s : State) (w : Waiter) (ws : List Waiter), s.semWaiters n = w :: ws →
    (s.waiterReady n w = true → (∀ q g c, w.who = .cmd q g → s.findCmd q g = some c → c.signal = false) →
      ∃ t, exec (.semaphoreGrant n) s = .next t ∧ t.semWaiters n = ws ∧
        (w.acquire = false → t.semCount n = s.semCount n - w.n) ∧
        (w.acquire = true → t.lockHeldBy n (s.lockOwner w).1 ((s.lockOwner w).2 % 2 ^ 13) = true ∧ t.semCount n = 0) ∧
        (∀ m, m ≠ n.val → t.semWaiters m = s.semWaiters m ∧ t.semCount m = s.semCount m)) ∧
    (s.waiterReady n w = false → exec (.semaphoreGrant n) s = .next s)) ∧
  (∀ (n : Fin 8192) (v : W32) (s : State), Live s →
    (s.tdiLocked (s.fget F.SEM_CFG_PART n) = false → s.semWaiters n = [] → s.flag F.SEM_STAT_HELD n = false →
      ∃ t, exec (.semCfgWrite .pf n v) s = .next t ∧ t.fget F.SEM_CFG_EN n = v.toNat / 2 ^ 31 ∧
        t.fget F.SEM_CFG_PART n = v.toNat / 2 ^ 28 % 8 ∧ t.fget F.SEM_CFG_LOCK n = v.toNat / 2 ^ 27 % 2 ∧
        t.fget F.SEM_CFG_INIT n = v.toNat % 2 ^ 16 ∧ t.semCount n = (if v.getLsbD 27 then 1 else v.toNat % 2 ^ 16) ∧
        Frame (theRegs [.SEM_CFG, .SEM_STAT] n) [] s t) ∧
    (¬ (s.tdiLocked (s.fget F.SEM_CFG_PART n) = false ∧ s.semWaiters n = [] ∧ s.flag F.SEM_STAT_HELD n = false) →
      ∃ t, exec (.semCfgWrite .pf n v) s = .next t ∧ Frame noReg [] s t) ∧
    (∀ p : Fin 8, exec (.semCfgWrite (.vf p) n v) s = .next s)) ∧
  (∀ (x g : Fin 16) (v : W32) (s : State), Live s →
    (s.fused x = false → exec (.dkRgnCfgWrite x g v) s = .next s) ∧
    (s.fused x = true → s.rgnRefused x g (v.setWidth 64) = false → ∃ t, exec (.dkRgnCfgWrite x g v) s = .next t ∧
      t.rget .DK_RGN_CFG (rgnIdx x g) = v.setWidth 64 ∧
      (v.getLsbD 31 = true → ∀ k, v.toNat / 2 ^ 15 % 2 ^ 15 ≤ k → k < v.toNat / 2 ^ 15 % 2 ^ 15 + v.toNat % 2 ^ 15 + 1 →
        t.isFull x k = false) ∧
      Frame (oneReg .DK_RGN_CFG (rgnIdx x g)) [.deckTags] s t) ∧
    (s.fused x = true → s.rgnRefused x g (v.setWidth 64) = true → ∃ t, exec (.dkRgnCfgWrite x g v) s = .next t ∧ Frame noReg [] s t))

/-- PROG_LOAD checks and records an image from any buffer it can read whole; PROG_UNLOAD removes an unused program
(06_pier_tiles_and_decks.md R187, 06_pier_tiles_and_decks.md R158, 06_pier_tiles_and_decks.md R163) -/
def Obligations.ProgramsLoadAndUnload : Prop :=
  (∀ (r : Fin 128) (tag : Fin 512) (s : State) (c : Cmd) (d : BufDesc) (pin : Nat), Ready s r tag c → c.signal = false →
    Flowing s (r.val / 16) → c.par = .progLoad d pin →
    (s.loadCheck c = 0 → BufHere s d true →
      ∃ t, exec (.progLoad r tag) s = .next t ∧ Frame noReg [.cmds, .programs] s t ∧
      (match Config.parseImage (bufBytes s c.part d) with
       | none => Ended t r tag 0x0108 0 ∧ t.progs = s.progs
       | some im =>
         if checkImage im ≠ 0 then Ended t r tag (checkImage im) 0 ∧ t.progs = s.progs
         else if 64 ≤ (s.progs.filter (fun p => p.part == c.part)).length ∨
             (bitList pin 16).any (fun x => decide (s.freeStore x < im.size)) = true then
           Ended t r tag 0x0302 0 ∧ t.progs = s.progs
         else Ended t r tag 0 s.nextProg ∧ t.nextProg = s.nextProg + 1 ∧
           (let k := crc32c (bufBytes s c.part d)
            t.progs = s.progs ++ [{ handle := s.nextProg, part := c.part, image := im, src := d, pins := pin, crc := k }]))) ∧
    (s.loadCheck c ≠ 0 → ∃ t, exec (.progLoad r tag) s = .next t ∧ Ended t r tag (s.loadCheck c) 0 ∧ Frame noReg [.cmds] s t)) ∧
  (∀ (r : Fin 128) (tag : Fin 512) (s : State) (c : Cmd) (h : Nat), Ready s r tag c → c.signal = false →
    c.par = .progUnload h →
    (s.unloadCheck c = 0 → ∃ t, exec (.progUnload r tag) s = .next t ∧ Ended t r tag 0 0 ∧ t.prog h = none ∧
      (∀ k, k ≠ h → t.prog k = s.prog k) ∧ Frame noReg [.cmds, .programs] s t) ∧
    (s.unloadCheck c ≠ 0 → ∃ t, exec (.progUnload r tag) s = .next t ∧ Ended t r tag (s.unloadCheck c) 0 ∧
      Frame noReg [.cmds] s t) ∧
    (∀ g, s.prog h = some g → g.part = c.part → s.unloadCheck c = if s.progInUse h then 0x0602 else 0))

/-- PROG_RUN queues a run on its tiles; RUN_START takes the head of the queue of an idle tile
(06_pier_tiles_and_decks.md R159, 05_trehar_commands.md R135, 06_pier_tiles_and_decks.md R186) -/
def Obligations.RunsQueueAndStart : Prop :=
  (∀ (r : Fin 128) (tag : Fin 512) (s : State) (c : Cmd) (q : RunParams), Ready s r tag c → c.par = .progRun q →
    s.progRunCheck c = 0 → s.queueRoom (bitList q.tiles 16) = true →
    s.runs.any (fun x => x.cmd == some (r.val, tag.val)) = false →
    ∃ t y, exec (.progRun r tag) s = .next t ∧ Waits t r tag ∧ t.runs = s.runs ++ [y] ∧ y.id = s.nextRun ∧
      y.prog = q.prog ∧ y.part = c.part ∧ y.cmd = some (r.val, tag.val) ∧ y.tiles = bitList q.tiles 16 ∧ y.bufs = q.bufs ∧
      (∀ x ∈ bitList q.tiles 16, (t.tile x).startQ = (s.tile x).startQ ++ [s.nextRun]) ∧
      Frame (fun z k => z = .PT_STAT ∧ k ∈ bitList q.tiles 16) [.cmds, .programs, .tiles] s t) ∧
  (∀ (x : Fin 16) (s : State) (id : Nat) (q : List Nat) (y : Run) (g : Prog), s.fget F.PT_STAT_STATE x = 0 →
    (s.tile x).run = none →
    (∃ p, s.tileOwner x = some p ∧ s.resetBusy p = false ∧ Flowing s p) → (s.tile x).startQ = id :: q →
    s.runOf id = some y → s.prog y.prog = some g → pinned g x = true → (y.begun = true ∨ s.beginCheck y g = 0) →
    ∃ t, exec (.runStart x) s = .next t ∧ (t.tile x).run = some id ∧ (t.tile x).startQ = q ∧
      (t.tile x).role = y.tiles.idxOf x.val ∧ t.fget F.PT_STAT_STATE x = 1 ∧ t.fget F.PT_RUN_INDEX x = 0 ∧
      t.fget F.PT_RUN_SPAN x = 0 ∧ t.fget F.PT_RUN_PROG x = y.prog % 2 ^ 32 ∧
      (∀ g, g < 16 → tabGet false t.fedOut (rgnIdx x g) = (s.tagged x g && s.anyFull x g)) ∧
      Frame (theRegs [.PT_STAT, .PT_RUN] x) [.tiles, .programs, .deckTags] s t) ∧
  (∀ (x : Fin 16) (s : State), s.fget F.PT_STAT_STATE x ≠ 0 → exec (.runStart x) s = .next s)

/-- MATMUL writes each output of its product: scaled, biased and converted, or modulo 2^64 in a ring image
(06_pier_tiles_and_decks.md R164, 08_number_formats_and_scaling.md R219, 08_number_formats_and_scaling.md R227,
08_number_formats_and_scaling.md R228, 14_caisson_sealed_arithmetic.md R371) -/
def Obligations.MatrixProduct : Prop :=
  (∀ (t : Fin 16) (s : State) (x : Issue), Issues s t 0x01 x → iSigEn x.i = false → x.ring = false →
    (s.weights x (natBit (iP8 x.i) 0) ((x.view s (iDst x.i)).dim 0)).bad = false →
    (s.weights x (natBit (iP8 x.i) 0) ((x.view s (iDst x.i)).dim 0)).escapes ≤
      (s.weights x (natBit (iP8 x.i) 0) ((x.view s (iDst x.i)).dim 0)).nside →
    s.productOk x ((x.view s (iDst x.i)).dim 0) 0 = true →
    ∃ u, exec (.matmul t) s = .next u ∧ MovesOn s u x ∧
      (let a := x.view s (iSrc0 x.i); let d := x.view s (iDst x.i); let w := s.weights x (natBit (iP8 x.i) 0) (d.dim 0)
       Writes s u d d.count (fun n =>
        let f := n % d.dim 0
        let e := s.scaleEntry x.t (iScale x.i + f)
        (productOut e (iFmtOut x.i) (insZo x.i) (productT (plainKey x.i) (x.opd (iSrc0 x.i)).fmt (x.opd (iSrc1 x.i)).fmt
          (insZa x.i (x.opd (iSrc0 x.i)).fmt) (entZp e) (w.sums.map (fun l => l.getD f 0))
          ((List.range (a.dim 0)).map (fun j =>
            { a := s.elem a (j, (d.index n).2), w := w.codes.getD (f * (x.view s (iSrc1 x.i)).dim 0 + j) 0
              esc := w.side.getD (f * (x.view s (iSrc1 x.i)).dim 0 + j) none })))).1)) ∧
      Frame (theRegs [.PT_RUN, .PT_NUM] t) (.deck :: tileParts) s u) ∧
  (∀ (t : Fin 16) (s : State) (x : Issue), Issues s t 0x01 x → iSigEn x.i = false → x.ring = true →
    ∃ u, exec (.matmul t) s = .next u ∧ MovesOn s u x ∧
      (let a := x.view s (iSrc0 x.i); let d := x.view s (iDst x.i); let w := x.view s (iSrc1 x.i)
       Writes s u d d.count (fun n => ((List.range (a.dim 0)).map (fun k => s.elem a (k, (d.index n).2) *
        s.elem w (k, (d.index n).1 % w.dim 1, (d.index n).1 / w.dim 1 % w.dim 2, (d.index n).1 / w.dim 1 / w.dim 2))).sum % 2 ^ 64)) ∧
      Frame (theRegs [.PT_RUN, .PT_NUM] t) (.deck :: tileParts) s u)

/-- WINDOW, DEPTHWISE and POOL write one output for each element of their operand, phase by phase
(07_window_operators_and_sequences.md R191, 07_window_operators_and_sequences.md R195,
07_window_operators_and_sequences.md R196, 07_window_operators_and_sequences.md R197,
07_window_operators_and_sequences.md R198, 07_window_operators_and_sequences.md R199) -/
def Obligations.WindowOperators : Prop :=
  (∀ (t : Fin 16) (s : State) (x : Issue), iSigEn x.i = false →
    (let w := s.winOf x; let a := x.view s (iSrc0 x.i); let d := x.view s (outIdx x.i); let b := s.weights x true (d.dim 0)
     let old := x.view s (iDst x.i)
     let phase := natBits (iP8 x.i) 0 2; let reads := if isFloat a.fmt && (phase == 1 || phase == 2) then 0 else d.dim 0
     w.check a d (iScale x.i, reads) = true → w.check a old (iScale x.i, reads) = true → phaseOk x w = true →
     b.bad = false → s.productOk x (d.dim 0) phase = true → b.escapes ≤ b.nside →
     let key := if w.fkh = 1 ∧ w.fkw = 1 then plainKey x.i else x.i
     let out := fun (f : Nat) (ts : List Term) (n : Nat) =>
       let e := s.scaleEntry x.t (iScale x.i + f)
       let p := productT key (x.opd (iSrc0 x.i)).fmt (x.opd (iSrc1 x.i)).fmt (insZa x.i (x.opd (iSrc0 x.i)).fmt) (entZp e)
         (b.sums.map (fun l => l.getD f 0)) ts
       let prev := BitVec.ofNat 32 (s.elem old (d.index n))
       if phase = 0 then (productOut e (iFmtOut x.i) (insZo x.i) p).1
       else if phase = 1 then p.toNat
       else if phase = 2 then (f32Add prev p).toNat
       else (productOut e (iFmtOut x.i) (insZo x.i) (f32Add prev p)).1
     (Issues s t 0x02 x → ∃ u, exec (.window t) s = .next u ∧ MovesOn s u x ∧
       Writes s u d d.count (fun n =>
         let i := d.index n
         out i.1 ((List.range (w.kh * w.kw * a.dim 0)).map (fun k =>
           tapTerm b (s.tap a w (insZa x.i a.fmt) (k % a.dim 0) i.2.2.2 (w.row i.2.2.1 (k / a.dim 0 / w.kw))
             (w.col i.2.1 (k / a.dim 0 % w.kw))) (k + i.1 * (w.kh * w.kw * a.dim 0)))) n) ∧
       Frame (theRegs [.PT_RUN, .PT_NUM] t) (.deck :: tileParts) s u) ∧
     (Issues s t 0x03 x → ∃ u, exec (.depthwise t) s = .next u ∧ MovesOn s u x ∧
       Writes s u d d.count (fun n =>
         let i := d.index n
         out i.1 ((List.range (w.kh * w.kw)).map (fun k =>
           tapTerm b (s.tap a w (insZa x.i a.fmt) i.1 i.2.2.2 (w.row i.2.2.1 (k / w.kw)) (w.col i.2.1 (k % w.kw)))
             (i.1 + a.dim 0 * k))) n) ∧
       Frame (theRegs [.PT_RUN, .PT_NUM] t) (.deck :: tileParts) s u))) ∧
  (∀ (t : Fin 16) (s : State) (x : Issue), Issues s t 0x04 x → iSigEn x.i = false →
    (s.winOf x).check (x.view s (iSrc0 x.i)) (x.view s (iDst x.i)) (0, 0) = true →
    ∃ u, exec (.pool t) s = .next u ∧ MovesOn s u x ∧
      Writes s u (x.view s (iDst x.i)) (x.view s (iDst x.i)).count (fun n =>
        (s.poolOut x (s.winOf x) (x.view s (iSrc0 x.i)) (x.view s (iDst x.i)) n).1.1) ∧
      Frame (theRegs [.PT_RUN, .PT_NUM] t) (.deck :: tileParts) s u)

/-- ELTWISE, CONVERT, CONVERT_SR and REDUCE_LOCAL write each element of DST (06_pier_tiles_and_decks.md R165,
08_number_formats_and_scaling.md R230, 08_number_formats_and_scaling.md R231, 08_number_formats_and_scaling.md R217,
08_number_formats_and_scaling.md R219, 06_pier_tiles_and_decks.md R164, 14_caisson_sealed_arithmetic.md R371) -/
def Obligations.VectorLane : Prop :=
  (∀ (t : Fin 16) (s : State) (x : Issue), Issues s t 0x08 x → iSigEn x.i = false →
    (let c := natBits (iImm x.i) 0 8; let fo := iFmtOut x.i
     let zo := if isInt fo then zpField fo (natBits (iImm x.i) 8 8) else 0
     let a := x.view s (iSrc0 x.i); let b := x.view s (iSrc1 x.i); let d := x.view s (iDst x.i)
     let two := (eltBinary x.ring c).getD false
     (two = true → bcastOk a b = true) →
     (x.ring = true → ∃ u, exec (.eltwise t) s = .next u ∧ MovesOn s u x ∧
       Writes s u d d.count (fun n => eltRing c (s.elem a (a.index n)) (if two then s.elem b (bcast b (a.index n)) else 0)) ∧
       Frame (theRegs [.PT_RUN, .PT_NUM] t) (.deck :: tileParts) s u) ∧
     (x.ring = false → zpOk fo zo = true → (eltReads c = true → iScale x.i + a.dim 0 ≤ 4096) →
       ∃ u, exec (.eltwise t) s = .next u ∧ MovesOn s u x ∧
       Writes s u d d.count (fun n => (convert fo .rne true zo (f32Val (eltwiseF c (elemF32 a.fmt (s.elem a (a.index n)))
         (if two then elemF32 b.fmt (s.elem b (bcast b (a.index n))) else 0) (s.scaleEntry x.t (iScale x.i + (a.index n).1))))).1) ∧
       Frame (theRegs [.PT_RUN, .PT_NUM] t) (.deck :: tileParts) s u))) ∧
  (∀ (t : Fin 16) (s : State) (x : Issue), iSigEn x.i = false →
    (let a := x.view s (iSrc0 x.i); let d := x.view s (iDst x.i); let fo := iFmtOut x.i; let sat := natBit (iP8 x.i) 1
     (natBit (iP8 x.i) 0 = true → iScale x.i + a.dim (natBits (iP8 x.i) 3 2) ≤ 4096) →
     (natBit (iP8 x.i) 2 = true → a.dim 0 % 32 = 0 ∧ narrow a.fmt ≠ narrow fo) →
     let code := fun (rd : Rounding) n => (convert fo rd sat (s.convertZ x a n) (s.convertValue x a n)).1
     let blocks := fun (sr : Bool) => s.encodeBlocks sr sat fo (a.count / 32) ((List.range a.count).map (s.convertValue x a))
     let put := fun (u : State) (sr : Bool) => u.deck = ((s.deckPut t (x.view s (iAux x.i)).base
       ((blocks sr).2.1.map (BitVec.ofNat 8))).putElems d ((blocks sr).1.map (·.1))).deck
     (Issues s t 0x09 x → ∃ u, exec (.convert t) s = .next u ∧ MovesOn s u x ∧
       (if natBit (iP8 x.i) 2 && narrow fo then put u false else Writes s u d a.count (code .rne)) ∧
       Frame (theRegs [.PT_RUN, .PT_NUM] t) (.deck :: tileParts) s u) ∧
     (Issues s t 0x0A x → ∃ u, exec (.convertSr t) s = .next u ∧ MovesOn s u x ∧
       (if natBit (iP8 x.i) 2 && narrow fo then put u true
        else ∃ bits : Nat → Nat, (∀ n, bits n < 65536) ∧ Writes s u d a.count (fun n => code (.stoch (bits n)) n)) ∧
       Frame (theRegs [.PT_RUN, .PT_NUM] t) (.deck :: tileParts) s u))) ∧
  (∀ (t : Fin 16) (s : State) (x : Issue), Issues s t 0x0B x → iSigEn x.i = false →
    (let a := x.view s (iSrc0 x.i); let d := x.view s (iDst x.i)
     let terms := fun n => ((List.range a.count).filter (fun k => bcast d (a.index k) == d.index n)).map (fun k => s.elem a (a.index k))
     ∃ u, exec (.reduceLocal t) s = .next u ∧ MovesOn s u x ∧
      (x.ring = true → Writes s u d d.count (fun n => (terms n).sum % 2 ^ 64)) ∧
      (x.ring = false → isFloat a.fmt = true → Writes s u d d.count (fun n =>
        (convert (iFmtOut x.i) .rne false 0 (f32Val (f32Sum x.i 0 ((terms n).map (elemF32 a.fmt))))).1)) ∧
      (x.ring = false → isFloat a.fmt = false → Writes s u d d.count (fun n =>
        (convert (iFmtOut x.i) .rne false 0 (numOfInt (toSigned 32 (ofSigned 32 ((terms n).map (intOf a.fmt)).sum))
          (if a.fmt = 0xC then -16 else 0))).1)) ∧
      Frame (theRegs [.PT_RUN, .PT_NUM] t) (.deck :: tileParts) s u))

/-- OPT_STEP and OPT_STEP_SR: one AdamW step of every weight, or an exact copy when a gradient is not finite
(08_number_formats_and_scaling.md R233, 08_number_formats_and_scaling.md R236, 08_number_formats_and_scaling.md R231,
08_number_formats_and_scaling.md R232) -/
def Obligations.OptimiserStep : Prop :=
  ∀ (t : Fin 16) (s : State) (x : Issue) (sr : Bool), Issues s t (if sr then 0x0F else 0x0E) x → iSigEn x.i = false →
    (let g := x.view s (iSrc0 x.i); let n := g.dim 0
     let old := (x.view s (iSrc1 x.i)).base; let new := (x.view s (iDst x.i)).base
     let hb := s.deckGet t (x.view s (iAux x.i)).base 64
     let h := parseHyper hb
     let grad := fun k => elemF32 g.fmt (s.elem g (k, 0, 0, 0))
     let byte := fun a => leNat (s.deckGet t a 1)
     n % 32 = 0 → 32 ≤ n → n ≤ 1048576 → [0, 1, 2, 4].contains g.fmt = true → allZero hb 32 32 = true →
     (∀ k ∈ s.opdSlots t (x.opd (iDst x.i)), k ∉ s.opdSlots t (x.opd (iSrc1 x.i)) ∧ k ∉ s.opdSlots t (x.opd (iSrc0 x.i))) →
     new + optEnd n ≤ 0x800000 →
     ∃ u, (sr = false → exec (.optStep t) s = .next u) ∧ (sr = true → exec (.optStepSr t) s = .next u) ∧ MovesOn s u x ∧
      ((∀ k, k < n → f32Finite (grad k) = true ∧ f32Finite (f32Mul (grad k) h.gscale) = true) →
        ∀ k, k < n → u.deckGet t (new + 4 * k) 4 = leBytes 4 (adamw h (grad k)
          (toF32 (blockNum 3 (byte (old + optM n + k)) (byte (old + optMs n + k / 32))))
          (toF32 (blockNum 3 (byte (old + optV n + k)) (byte (old + optVs n + k / 32))))
          (BitVec.ofNat 32 (leNat (s.deckGet t (old + 4 * k) 4)))).2.2.toNat) ∧
      ((∃ k, k < n ∧ (f32Finite (grad k) = false ∨ f32Finite (f32Mul (grad k) h.gscale) = false)) →
        u.deckGet t new (optEnd n) = s.deckGet t old (optEnd n) ∧ u.fget F.PT_NUM_SKIP_EV t = 1 ∧
        u.fget F.PT_NUM_SKIP_CNT t = (s.fget F.PT_NUM_SKIP_CNT t + 1) % 256) ∧
      (∀ y : Fin 16, y ≠ t → ∀ a, u.deckGet y a 1 = s.deckGet y a 1) ∧
      Frame (theRegs [.PT_RUN, .PT_NUM] t) (.deck :: tileParts) s u)

/-- KV_RETRIEVE writes the chosen pages and their entries; ATTN writes its outputs
(07_window_operators_and_sequences.md R200, 07_window_operators_and_sequences.md R202,
07_window_operators_and_sequences.md R204, 07_window_operators_and_sequences.md R205,
07_window_operators_and_sequences.md R206) -/
def Obligations.PagedCache : Prop :=
  (∀ (t : Fin 16) (s : State) (x : Issue), Issues s t 0x05 x → iSigEn x.i = false → Flowing s x.r.part →
    (let k := natBits (iImm x.i) 0 7; let recent := natBits (iImm x.i) 7 5; let sink := natBit (iImm x.i) 12
     let sums := x.view s (iSrc1 x.i); let tab := x.view s (iAux x.i); let d := x.opd (iDst x.i)
     let base := (x.view s (iDst x.i)).base; let es := s.pagesAt t tab.base (tab.dim 0); let size := pageBytes (tableLpg es)
     let chosen := choosePages k recent sink (s.usablePages x es)
     let page := fun (c : Nat × W32) => ((es[c.1]?).map (fun e => e.addr)).getD 0
     1 ≤ k → k ≤ 64 → recent ≤ 16 → recent + (if sink then 1 else 0) ≤ k → 1 ≤ sums.dim 0 → sums.dim 0 ≤ 65536 →
     sums.dim 0 ≤ tab.dim 0 → tableOk es (tableLpg es) (pagePositions (tableLpg es) (Config.kvBytes x.i)) = true →
     s.tagged t d.region = false → 512 + k * size ≤ d.nslots * 256 → d.nslots ≤ 32768 →
     (∀ c ∈ chosen, s.pathCheck x (page c) size = 0 ∧ page c / 2 ^ 36 = s.node ∧ FramesGood s (page c % 2 ^ 36) size true) →
     ∃ u, exec (.kvRetrieve t) s = .next u ∧ MovesOn s u x ∧
      (∀ j, j < 64 → leNat (u.deckGet t (base + 8 * j) 4) = if j < chosen.length then (chosen.getD j (0, 0)).1 % 2 ^ 32 else 0xFFFFFFFF) ∧
      (∀ j, j < chosen.length → leNat (u.deckGet t (base + 8 * j + 4) 4) = (chosen.getD j (0, 0)).2.toNat ∧
        ∀ i, i < size → u.deckGet t (base + 512 + j * size + i) 1 = [memGet s.hbm (page (chosen.getD j (0, 0)) % 2 ^ 36 + i)]) ∧
      Frame (theRegs [.PT_RUN, .PT_NUM] t) (.deck :: tileParts) s u)) ∧
  (∀ (t : Fin 16) (s : State) (x : Issue), Issues s t 0x06 x → iSigEn x.i = false →
    (let q := x.view s (iSrc0 x.i); let d := x.view s (iDst x.i); let kv := x.view s (iSrc1 x.i)
     let dim := natBits (iImm x.i) 0 9; let hkv := natBits (iImm x.i) 9 5 + 1
     let tab := x.view s (iAux x.i); let es := if natBit (iP8 x.i) 1 then [] else s.pagesAt t tab.base (tab.dim 0)
     let pos := pagePositions (s.attnPages x).1 (2 * hkv * dim * (kv.bits / 8))
     1 ≤ dim → dim ≤ 256 → q.dim 0 = dim → 1 ≤ q.dim 1 → q.dim 1 ≤ 64 → q.dim 1 % hkv = 0 → 1 ≤ q.dim 2 → q.dim 2 ≤ 4096 →
     [1, 2, 3, 4].contains kv.fmt = true → tableOk es (s.attnPages x).1 pos = true →
     ∃ u, exec (.attn t) s = .next u ∧ MovesOn s u x ∧
      Writes s u d d.count (fun n => match s.attnOut x (s.attnPages x).2 pos (d.index n) with
        | some v => (convert (iFmtOut x.i) .rne true 0 (f32Val v)).1
        | none => 0) ∧
      Frame (theRegs [.PT_RUN, .PT_NUM] t) (.deck :: tileParts) s u))

/-- FILL, DRAIN, XFER and SCALE_LOAD move exactly their bytes (06_pier_tiles_and_decks.md R166,
06_pier_tiles_and_decks.md R176, 08_number_formats_and_scaling.md R222, 01_load_paths.md R20) -/
def Obligations.FillDmaAndScales : Prop :=
  (∀ (t : Fin 16) (s : State) (x : Issue) (a : Nat), Issues s t 0x10 x → iSigEn x.i = false → Flowing s x.r.part →
    (let n := dmaBytes x (iDst x.i); let o := x.opd (iDst x.i)
     s.dmaAddr x n = (0, a) → n ≤ 0x800000 → a / 2 ^ 36 = s.node → FramesGood s (a % 2 ^ 36) n true →
     ∃ u, exec (.fill t) s = .next u ∧ MovesOn s u x ∧
      u.deckGet t (x.view s (iDst x.i)).base n = memRead s.hbm (a % 2 ^ 36) n ∧
      (s.tagged t o.region = true → iSpanEnd x.i = false → ∀ k ∈ s.opdSlots t o, u.isFull t k = true) ∧
      Frame (oneReg .PT_RUN t) (.deck :: tileParts) s u)) ∧
  (∀ (t : Fin 16) (s : State) (x : Issue) (a : Nat), Issues s t 0x11 x → iSigEn x.i = false → Flowing s x.r.part →
    (let n := dmaBytes x (iSrc0 x.i)
     s.dmaAddr x n = (0, a) → a / 2 ^ 36 = s.node → FramesGood s (a % 2 ^ 36) n false →
     ∃ u, exec (.drain t) s = .next u ∧ MovesOn s u x ∧
      memRead u.hbm (a % 2 ^ 36) n = s.deckGet t (x.view s (iSrc0 x.i)).base n ∧ SameOutside s.hbm u.hbm (a % 2 ^ 36) n ∧
      Frame (oneReg .PT_RUN t) (.hbm :: tileParts) s u)) ∧
  (∀ (t : Fin 16) (s : State) (x : Issue), Issues s t 0x12 x → iSigEn x.i = false → Flowing s x.r.part →
    (let y := x.r.tiles.getD (iP8 x.i) 0; let d := x.opd (iDst x.i)
     let n := min (x.opd (iSrc0 x.i)).nslots d.nslots; let slot := s.opdBase y d / 256
     s.retired y = false → (s.tile t).moved = 0 → s.xferReady y d.region slot n = n → n * 256 ≤ 0x800000 →
     ∃ u, exec (.xfer t) s = .next u ∧ MovesOn s u x ∧
      u.deckGet y (slot * 256) (n * 256) = s.deckGet t (x.view s (iSrc0 x.i)).base (n * 256) ∧
      (s.tagged y d.region = true → iSpanEnd x.i = false → ∀ k, k < n → u.isFull y (slot + k) = true) ∧
      Frame (oneReg .PT_RUN t) (.deck :: tileParts) s u)) ∧
  (∀ (t : Fin 16) (s : State) (x : Issue), Issues s t 0x14 x → iSigEn x.i = false →
    (let o := x.opd (iSrc0 x.i); let n := o.dims.getD 0 0
     s.tagged t o.region = false → 1 ≤ n → n ≤ 4096 → iScale x.i + n ≤ 4096 →
     ∃ u, exec (.scaleLoad t) s = .next u ∧ MovesOn s u x ∧
      (∀ k, k < n → (u.scaleEntry t (iScale x.i + k)).toNat = leNat (s.deckGet t ((x.view s (iSrc0 x.i)).base + 16 * k) 16)) ∧
      (∀ y k, (y ≠ t.val ∨ k < iScale x.i ∨ iScale x.i + n ≤ k) → k < 4096 → u.scaleEntry y k = s.scaleEntry y k) ∧
      Frame (oneReg .PT_RUN t) (.scales :: tileParts) s u))

/-- REDUCE_XT and ATOMIC_ADD add their elements into the target Deck or HBM bytes; a target in another pool member's Deck that is
not one ends the run (14_caisson_sealed_arithmetic.md R371, 11_causeway_pooling.md R297, 01_load_paths.md R20,
06_pier_tiles_and_decks.md R176; which target an instruction means is the model's open choice, log entry 13) -/
def Obligations.ReductionsAdd : Prop :=
  ∀ (t : Fin 16) (s : State) (x : Issue) (atomic : Bool), Issues s t (if atomic then 0x0D else 0x0C) x → iSigEn x.i = false →
    Flowing s x.r.part →
    (let d := x.opd (iDst x.i); let v := x.view s (iSrc0 x.i); let cs := s.elems v; let kind := Config.reduceTarget x.i % 4
     let a := Config.reduceAddr x.i (s.deckGet t (x.view s (iAux x.i)).base 8)
     let y := if kind = 0 then t.val else x.r.tiles.getD (a % x.r.tiles.length) t
     let n := ceilDiv (v.bits * cs.length) 8
     ∃ u, (atomic = false → exec (.reduceXt t) s = .next u) ∧ (atomic = true → exec (.atomicAdd t) s = .next u) ∧
      (kind < 2 → s.retired y = false → (y ≠ t.val → s.xferReady y d.region (s.opdBase y d / 256) d.nslots = d.nslots) →
        MovesOn s u x ∧ u.deck = (s.addView (s.view y x.ring d) cs).deck ∧ Frame (oneReg .PT_RUN t) (.deck :: tileParts) s u) ∧
      (kind = 2 → s.pathCheck x a n = 0 → a / 2 ^ 36 = s.node → FramesGood s (a % 2 ^ 36) n true →
        MovesOn s u x ∧ memRead u.hbm (a % 2 ^ 36) n = addPacked v.bits v.fmt (memRead s.hbm (a % 2 ^ 36) n) cs ∧
        SameOutside s.hbm u.hbm (a % 2 ^ 36) n ∧ Frame (oneReg .PT_RUN t) (.hbm :: tileParts) s u) ∧
      (kind = 3 → a % 8 = s.node ∨ (natBit (s.fget F.CW_NODE_MEMBERS 0) (a % 8) = false ∧ (s.tile t).onPath = false) →
        u.runOf x.r.id = none ∧ u.deck = s.deck ∧ u.hbm = s.hbm ∧
        ∀ q g c, x.r.cmd = some (q, g) → s.findCmd q g = some c → c.signal = false → Ended u q g 0x0201 0))

/-- SEM_WAIT, SEM_SIGNAL, LOCK and UNLOCK of a tile program (06_pier_tiles_and_decks.md R164,
06_pier_tiles_and_decks.md R180, 06_pier_tiles_and_decks.md R182, 06_pier_tiles_and_decks.md R184) -/
def Obligations.TileSemaphores : Prop :=
  (∀ (t : Fin 16) (s : State) (x : Issue), Issues s t 0x18 x → iSigEn x.i = false → s.semOk (iWsem x.i) x.r.part = true →
    s.semLock (iWsem x.i) = false → (s.tile t).reqDone = false → s.semWaiters (iWsem x.i) = [] →
    (natBits (iImm x.i) 0 16 ≤ s.semCount (iWsem x.i) → ∃ u, exec (.tileSemWait t) s = .next u ∧ MovesOn s u x ∧
      u.semCount (iWsem x.i) = s.semCount (iWsem x.i) - natBits (iImm x.i) 0 16 ∧
      Frame (fun q k => (q = .PT_RUN ∧ k = t.val) ∨ (q = .SEM_STAT ∧ k = iWsem x.i)) tileParts s u) ∧
    (s.semCount (iWsem x.i) < natBits (iImm x.i) 0 16 → ∃ u, exec (.tileSemWait t) s = .next u ∧ u.fget F.PT_STAT_STATE t = 3 ∧
      u.semWaiters (iWsem x.i) = [{ who := .tile t, n := natBits (iImm x.i) 0 16 }] ∧
      Frame (oneReg .PT_STAT t) [.waiters] s u)) ∧
  (∀ (t : Fin 16) (s : State) (x : Issue), Issues s t 0x19 x → iSigEn x.i = false → s.semOk (iSsem x.i) x.r.part = true →
    s.semLock (iSsem x.i) = false → ∃ u, exec (.tileSemSignal t) s = .next u ∧ MovesOn s u x ∧
      u.semCount (iSsem x.i) = min (s.semCount (iSsem x.i) + natBits (iImm x.i) 0 16) 65535 ∧
      Frame (fun q k => (q = .PT_RUN ∧ k = t.val) ∨ (q = .SEM_STAT ∧ k = iSsem x.i)) tileParts s u) ∧
  (∀ (t : Fin 16) (s : State) (x : Issue), Issues s t 0x1A x → iSigEn x.i = false → s.semOk (iWsem x.i) x.r.part = true →
    s.semLock (iWsem x.i) = true → (s.tile t).reqDone = false → s.semWaiters (iWsem x.i) = [] →
    s.flag F.SEM_STAT_HELD (iWsem x.i) = false → ∃ u, exec (.lock t) s = .next u ∧ MovesOn s u x ∧
      u.lockHeldBy (iWsem x.i) 1 t = true ∧ u.semCount (iWsem x.i) = 0 ∧
      u.deckGet t (x.view s (iDst x.i)).base 4 = leBytes 4 (if s.flag F.SEM_STAT_ABANDONED (iWsem x.i) then 2 else 0) ∧
      Frame (fun q k => (q = .PT_RUN ∧ k = t.val) ∨ ((q = .SEM_STAT ∨ q = .SEM_OWNER) ∧ k = iWsem x.i)) (.deck :: tileParts) s u) ∧
  (∀ (t : Fin 16) (s : State) (x : Issue), Issues s t 0x1B x → iSigEn x.i = false → s.semOk (iWsem x.i) x.r.part = true →
    s.semLock (iWsem x.i) = true → s.lockHeldBy (iWsem x.i) 1 t = true → ∃ u, exec (.unlock t) s = .next u ∧ MovesOn s u x ∧
      u.flag F.SEM_STAT_HELD (iWsem x.i) = false ∧ u.semCount (iWsem x.i) = 1 ∧ u.fget F.SEM_STAT_ABANDONED (iWsem x.i) = 0 ∧
      Frame (fun q k => (q = .PT_RUN ∧ k = t.val) ∨ ((q = .SEM_STAT ∨ q = .SEM_OWNER) ∧ k = iWsem x.i)) tileParts s u)

/-- LOOP, END, SIG_EN, tag waits and the end of a run: what moves the sequencer and what ends a command
(06_pier_tiles_and_decks.md R161, 06_pier_tiles_and_decks.md R164, 06_pier_tiles_and_decks.md R176,
06_pier_tiles_and_decks.md R169, 05_trehar_commands.md R143) -/
def Obligations.LoopEndAndIssue : Prop :=
  (∀ (t : Fin 16) (s : State) (x : Issue), Issues s t 0x28 x →
    (iSigEn x.i = false → ∃ u, exec (.loop t) s = .next u ∧ MovesOn s u x ∧
      u.fget F.PT_RUN_INDEX t = (if natBits (iImm x.i) 16 14 = 0 ∨ natBits (iImm x.i) 0 16 = 0
        then (s.fget F.PT_RUN_INDEX t + 1 + natBits (iImm x.i) 0 16) % 2 ^ 16 else (s.fget F.PT_RUN_INDEX t + 1) % 2 ^ 16) ∧
      Frame (oneReg .PT_RUN t) tileParts s u) ∧
    (iSigEn x.i = true → s.semOk (iSsem x.i) x.r.part = true → s.semLock (iSsem x.i) = false →
      ∃ u, exec (.loop t) s = .next u ∧ MovesOn s u x ∧
      u.semCount (iSsem x.i) = min (s.semCount (iSsem x.i) + 1) 65535)) ∧
  (∀ (t : Fin 16) (s : State) (x : Issue), Issues s t 0x2F x → iSigEn x.i = false →
    ∃ u, exec (.endRole t) s = .next u ∧ (u.tile t).run = none ∧ u.fget F.PT_STAT_STATE t = 0 ∧ u.rget .PT_RUN t = 0 ∧
      (∀ q g c, x.r.tiles.all (fun y => y == t.val || x.r.ended.contains y) = true → x.r.cmd = some (q, g) →
        s.findCmd q g = some c → c.signal = false →
        ∃ res, Ended u q g (if x.r.warn then 1 else 0) res ∧
          (x.r.held = [] → iLayerEnd x.i = false → (∀ y ∈ t.val :: x.r.tiles, (s.tile y).held = []) →
            res = x.r.last.getD 0xFFFFFFFF)) ∧
      (x.r.tiles.all (fun y => y == t.val || x.r.ended.contains y) = false →
        ∃ y, u.runOf x.r.id = some y ∧ y.ended = x.r.ended ++ [t.val] ∧ u.cmds = s.cmds)) ∧
  (∀ (t : Fin 16) (s : State) (x : Issue) (g k : Nat) (want : Bool), s.current t = some x → iOp x.i = 0x10 →
    s.waitFirst x = false → Flowing s x.r.part → s.tagNeed x = some (g, k, want) →
    ∃ u, exec (.fill t) s = .next u ∧ u.fget F.PT_STAT_STATE t = 2 ∧ (u.tile t).waitSlot = some (slotKey t k, want) ∧
      Frame (oneReg .PT_STAT t) [.tiles] s u) ∧
  (∀ (t : Fin 16) (s : State) (x : Issue), Issues s t 0x04 x →
    (s.winOf x).check (x.view s (iSrc0 x.i)) (x.view s (iDst x.i)) (0, 0) = false →
    ∃ u, exec (.pool t) s = .next u ∧ u.runOf x.r.id = none ∧ u.deck = s.deck ∧ u.hbm = s.hbm ∧
      (∀ q g c, x.r.cmd = some (q, g) → s.findCmd q g = some c → c.signal = false → Ended u q g 0x0108 0))

/-- STAY_CALL and STAY_INVOKE start a kernel on a free Stay core; STAY_JOIN writes its result
(06_pier_tiles_and_decks.md R171, 06_pier_tiles_and_decks.md R172, 06_pier_tiles_and_decks.md R164) -/
def Obligations.StayCoresStart : Prop :=
  (∀ (r : Fin 128) (tag : Fin 512) (s : State) (c : Cmd) (x sel k lk : Nat) (use : Bool) (params : List Byte) (n : Nat),
    Ready s r tag c → c.par = .stayCall x sel k lk use params → s.callCheck c = 0 → s.freeStay x sel = some n → n < 2 →
    (∀ m, m < 2 → (s.stay x m).owner ≠ some (.cmd r tag)) →
    ∃ u, exec (.stayCall r tag) s = .next u ∧ Waits u r tag ∧ u.stayBusy x n = true ∧ (u.stay x n).owner = some (.cmd r tag) ∧
      (u.stay x n).kernel = k ∧ (u.stay x n).params = params ∧ (u.stay x n).lock = (if use then some lk else none) ∧
      (if n = 0 then u.fget F.PT_STAY_KERNEL0 x = k % 256 else u.fget F.PT_STAY_KERNEL1 x = k % 256) ∧
      Frame (oneReg .PT_STAY x) [.cmds, .stays] s u) ∧
  (∀ (t : Fin 16) (s : State) (x : Issue) (n : Nat), Issues s t 0x20 x → iSigEn x.i = false →
    kernelBytes (iP8 x.i) (s.deckGet t (x.view s (iSrc0 x.i)).base 24) = some n → s.stayBusy t (iImm x.i % 2) = false →
    ∃ u, exec (.stayInvoke t) s = .next u ∧
      ((∀ l, kernLock x.i = some l → s.semOk l x.r.part = true ∧ s.semLock l = true) →
        MovesOn s u x ∧ (u.stay t (iImm x.i % 2)).lock = kernLock x.i ∧ u.stayBusy t (iImm x.i % 2) = true ∧ (u.stay t (iImm x.i % 2)).owner = some (.prog x.r.id) ∧
        (u.stay t (iImm x.i % 2)).kernel = iP8 x.i ∧
        (u.stay t (iImm x.i % 2)).params = s.deckGet t (x.view s (iSrc0 x.i)).base n ∧
        Frame (theRegs [.PT_RUN, .PT_STAY] t) (.stays :: tileParts) s u)) ∧
  (∀ (t : Fin 16) (s : State) (x : Issue), Issues s t 0x21 x → iSigEn x.i = false → s.stayBusy t (iImm x.i % 2) = false →
    ∃ u, exec (.stayJoin t) s = .next u ∧ MovesOn s u x ∧
      u.deckGet t (x.view s (iDst x.i)).base 4 = leBytes 4 (s.stay t (iImm x.i % 2)).result.toNat ∧
      Frame (oneReg .PT_RUN t) (.deck :: tileParts) s u)

/-- Every kernel of the catalogue writes its work, frees its core and gives its result (06_pier_tiles_and_decks.md
R171, 06_pier_tiles_and_decks.md R172, 06_pier_tiles_and_decks.md R184) -/
def Obligations.StayKernelsEnd : Prop :=
  (∀ (t : Fin 16) (c : Fin 2) (s : State), s.stayBusy t c = true → (s.stay t c).waitSlot = none → (s.stay t c).lock = none →
    s.resetBusy (s.stayPart t) = false → (∀ g, g < 16 → s.tagged t g = false) →
    ((s.stay t c).kernel = 0x01 → ∃ u, exec (.prepNorm t c) s = .next u ∧ KernelDone s u t c 0x01 State.prepNorm) ∧
    ((s.stay t c).kernel = 0x02 → ∃ u, exec (.prepUnpack t c) s = .next u ∧ KernelDone s u t c 0x02 State.prepUnpack) ∧
    ((s.stay t c).kernel = 0x03 → ∃ u, exec (.prepGrid t c) s = .next u ∧ KernelDone s u t c 0x03 State.prepGrid) ∧
    ((s.stay t c).kernel = 0x10 → ∃ u, exec (.tidyTopk t c) s = .next u ∧ KernelDone s u t c 0x10 State.tidyTopk) ∧
    ((s.stay t c).kernel = 0x11 → ∃ u, exec (.tidyNms t c) s = .next u ∧ KernelDone s u t c 0x11 State.tidyNms) ∧
    ((s.stay t c).kernel = 0x20 → ∃ u, exec (.clPid t c) s = .next u ∧ KernelDone s u t c 0x20 State.clPid) ∧
    ((s.stay t c).kernel = 0x21 → ∃ u, exec (.clStatespace t c) s = .next u ∧ KernelDone s u t c 0x21 State.clStatespace) ∧
    ((s.stay t c).kernel = 0x22 → ∃ u, exec (.clLimit t c) s = .next u ∧ KernelDone s u t c 0x22 State.clLimit) ∧
    ((s.stay t c).kernel = 0x30 → ∃ u, exec (.qCalib t c) s = .next u ∧ KernelDone s u t c 0x30 State.qCalib) ∧
    ((s.stay t c).kernel = 0x31 → ∃ u, exec (.qRequant t c) s = .next u ∧ KernelDone s u t c 0x31 State.qRequant) ∧
    ((s.stay t c).kernel = 0x32 → ∃ u, exec (.qColsum t c) s = .next u ∧ KernelDone s u t c 0x32 State.qColsum)) ∧
  (∀ (t : Fin 16) (c : Fin 2) (s : State) (n : Nat), s.stayBusy t c = true → (s.stay t c).waitSlot = none →
    (s.stay t c).lock = some n → (s.stay t c).lockHeld = true → (s.stay t c).kernel = 0x20 → (s.stay t c).owner = none →
    s.resetBusy (s.stayPart t) = false → (∀ g, g < 16 → s.tagged t g = false) →
    ∃ u, exec (.clPid t c) s = .next u ∧ u.flag F.SEM_STAT_HELD n = false ∧ u.semCount n = 1 ∧ u.stayBusy t c = false) ∧
  (∀ (t : Fin 16) (c : Fin 2) (s : State), s.stayBusy t c = false → exec (.qColsum t c) s = .next s)

/-- A tag wait resumes, a cut barrier releases its tails, and a rollback ends its restore (06_pier_tiles_and_decks.md
R176, 10_faults_retry_and_retirement.md R275, 10_faults_retry_and_retirement.md R277, 05_trehar_commands.md R130) -/
def Obligations.WaitsAndBarriersEnd : Prop :=
  (∀ (t : Fin 16) (s : State), s.fget F.PT_STAT_STATE t = 2 →
    (s.slotReady (s.tile t).waitSlot = true → ∃ u, exec (.tagWaitResume (.tile t)) s = .next u ∧ u.fget F.PT_STAT_STATE t = 1 ∧
      (u.tile t).waitSlot = none ∧ Frame (oneReg .PT_STAT t) [.tiles] s u) ∧
    (s.slotReady (s.tile t).waitSlot = false → exec (.tagWaitResume (.tile t)) s = .next s)) ∧
  (∀ (t : Fin 16) (c : Fin 2) (s : State), s.slotReady (s.stay t c).waitSlot = true →
    ∃ u, exec (.tagWaitResume (.stay t c)) s = .next u ∧ (u.stay t c).waitSlot = none ∧ Frame noReg [.stays] s u) ∧
  (∀ (r : Fin 128) (tag : Fin 512) (s : State) (c : Cmd) (src dst : BufDesc), s.findCmd r tag = some c → c.started = true →
    s.resetBusy c.part = false → c.signal = false → c.par = .dmaCopy src dst → src.count = dst.count → Flowing s (r.val / 16) →
    c.moved < src.count → src.kind = 0 → dst.kind = 1 → dst.addr / 2 ^ 36 = s.node → dst.addr % 2 ^ 36 + dst.count ≤ 2 ^ 36 →
    FramesGood s (dst.addr % 2 ^ 36 + c.moved) (dst.count - c.moved) false →
    ∃ u, exec (.tagWaitResume (.cmd r tag)) s = .next u ∧ Ended u r tag 0 src.count ∧
      (∀ i, c.moved ≤ i → i < src.count →
        memGet u.hbm (dst.addr % 2 ^ 36 + i) = memGet s.host ((s.mr c.part src.mr).base + src.addr + i)) ∧
      SameOutside s.hbm u.hbm (dst.addr % 2 ^ 36 + c.moved) (dst.count - c.moved) ∧ Frame noReg [.cmds, .hbm] s u) ∧
  (∀ (id : Nat) (s : State) (r : Run) (g : Prog), s.runOf id = some r → s.prog r.prog = some g →
    (s.barrierMet r g.image = true → r.restoring = false → s.resetBusy r.part = false →
      ∃ u y, exec (.cutBarrierRelease id) s = .next u ∧ u.runOf id = some y ∧ y.cut = r.cut + 1 ∧
        (∀ t k, (t, k) ∈ r.tiles.zipIdx → (s.tile t).run = some id → (u.tile t).held = [] ∧
          (s.fget F.PT_RUN_SPAN t + 1 = cutAt g.image (r.cut + 1) k → (u.tile t).atBarrier = false))) ∧
    (s.barrierMet r g.image = false → exec (.cutBarrierRelease id) s = .next s)) ∧
  (∀ (id : Nat) (s : State) (r : Run) (g : Prog) (w : List (Nat × Restore)), s.runOf id = some r → r.restoring = true →
    s.prog r.prog = some g → s.resetBusy r.part = false → Flowing s r.part →
    ((r.tiles.zipIdx.filter (fun (t, _) => (s.tile t).run == some id)).map (fun (t, k) => ((g.image.cuts.getD r.cut {}).restore.getD k []).map (fun x => (t, x)))).flatten = w →
    (w = [] → ∃ u y, exec (.rollbackRestoreEnd id) s = .next u ∧ u.runOf id = some y ∧ y.restoring = false ∧
      Frame noReg [.programs] s u) ∧
    (∀ t x, w = [(t, x)] → x.buf = none → s.hbmCheck r.part x.addr (x.nslots * 256) = 0 → x.addr / 2 ^ 36 = s.node →
      x.nslots ≤ 32768 → FramesGood s (x.addr % 2 ^ 36) (x.nslots * 256) true →
      ∃ u y, exec (.rollbackRestoreEnd id) s = .next u ∧ u.runOf id = some y ∧ y.restoring = false ∧
        u.deckGet t ((s.fget F.DK_RGN_CFG_BASE (rgnIdx t x.region) + x.slot) * 256) (x.nslots * 256) =
          memRead s.hbm (x.addr % 2 ^ 36) (x.nslots * 256) ∧ Frame noReg [.programs, .deck, .deckTags] s u))

/-- A tile fault, or a watchdog, replays the span up to twice; a failed recheck retires the tile
(10_faults_retry_and_retirement.md R267, 10_faults_retry_and_retirement.md R268, 10_faults_retry_and_retirement.md
R272, 06_pier_tiles_and_decks.md R170, 06_pier_tiles_and_decks.md R185) -/
def Obligations.TileFaultsReplayOrRetire : Prop :=
  (∀ (t : Fin 16) (s : State) (r : Run), (s.tile t).run.bind s.runOf = some r → s.retired t = false → s.fused t = true →
    s.resetBusy r.part = false → (s.tile t).inTail = false → (s.tile t).fails < 2 →
    (∀ cause : TileCause, cause ≠ .ceThreshold → cause ≠ .deckCorrected → ∃ u f, exec (.tileFault t cause ⟨true, []⟩) s = .next u ∧
      u.fget F.PT_RUN_INDEX t = (s.tile t).spanFrom % 2 ^ 16 ∧ u.fget F.PT_STAT_STATE t = 1 ∧
      (u.tile t).fails = (s.tile t).fails + 1 ∧ (u.tile t).deferred = [] ∧ u.faults.head? = some f ∧ f.cls = 2 ∧ f.action = 2 ∧
      f.unit = t ∧ f.cause = tileCause cause) ∧
    (s.fget F.PT_STAT_STATE t = 1 → (s.tile t).atBarrier = false → ∃ u f, exec (.watchdogExpiry t true) s = .next u ∧
      u.fget F.PT_RUN_INDEX t = (s.tile t).spanFrom % 2 ^ 16 ∧ (u.tile t).fails = (s.tile t).fails + 1 ∧
      u.faults.head? = some f ∧ f.cls = 2 ∧ f.action = 2 ∧ f.unit = t ∧ f.cause = 6)) ∧
  (∀ (t : Fin 16) (s : State) (b : Bool), (s.tile t).run = none → exec (.watchdogExpiry t b) s = .next s) ∧
  (∀ (t : Fin 16) (s : State) (cause : TileCause), cause ≠ .ceThreshold → cause ≠ .deckCorrected → s.retired t = false →
    s.fused t = true → (s.tile t).run = none →
    ∃ u, exec (.tileFault t cause ⟨false, []⟩) s = .next u ∧ u.retired t = true ∧ (∀ a, u.deckGet t a 1 = [0#8])) ∧
  (∀ (t : Fin 16) (s : State) (b : Bool), s.retired t = false → s.fused t = true →
    (∃ u, exec (.tileFault t .deckCorrected ⟨b, []⟩) s = .next u ∧ tabGet 0 u.deckCe t = tabGet 0 s.deckCe t + 1 ∧
      natBit u.ceDue t = (natBit s.ceDue t || decide (256 < tabGet 0 s.deckCe t + 1)) ∧ Frame noReg [.ceNow] s u) ∧
    (natBit s.ceDue t = true → (s.tile t).run = none →
      (∃ u, exec (.tileFault t .ceThreshold ⟨true, []⟩) s = .next u ∧ natBit u.ceDue t = false ∧ Frame noReg [.ceNow] s u) ∧
      (∃ u, exec (.tileFault t .ceThreshold ⟨false, []⟩) s = .next u ∧ u.retired t = true)) ∧
    (natBit s.ceDue t = false → exec (.tileFault t .ceThreshold ⟨b, []⟩) s = .next s))

/-- A step boundary of a serving run: the rows visited under the lock, and the run ended when the batch is empty
(07_window_operators_and_sequences.md R207, 07_window_operators_and_sequences.md R208) -/
def Obligations.BatchBoundaryVisitsRows : Prop :=
  ∀ (t : Fin 16) (s : State) (x : Issue) (b : BufDesc), s.current t = some x → x.r.bufs[0]? = some b → x.r.lead = t.val →
    b.kind = 1 → 64 ≤ b.count → s.fget F.PT_RUN_INDEX t = (s.tile t).spanFrom → (s.tile t).moved = 0 → x.r.stepping = false →
    b.addr / 2 ^ 36 = s.node → (b.addr + 64 + 64 * 256) / 2 ^ 36 = s.node →
    (∀ f, f < 2 ^ 15 → s.frameIn f = true ∧ f ∉ s.poisoned) → Flowing s x.r.part →
    (let h := memRead s.hbm (b.addr % 2 ^ 36) 64; let n := hdrLock h; let a := b.addr % 2 ^ 36 + 64
     s.semOk n x.r.part = true → s.semLock n = true → s.flag F.SEM_STAT_HELD n = false → s.semWaiters n = [] →
     s.flag F.SEM_STAT_ABANDONED n = false → (s.tile t).reqDone = false →
     (∀ i, i < hdrRows h → rowState (memRead s.hbm (a + 64 * i) 64) = 1 →
       rowPt (memRead s.hbm (a + 64 * i) 64) / 2 ^ 36 = s.node) →
     ∃ u, exec (.batchBoundary t) s = .next u ∧ u.flag F.SEM_STAT_HELD n = false ∧ u.semCount n = 1 ∧
      (∀ i, i < hdrRows h →
        (rowState (memRead s.hbm (a + 64 * i) 64) = 3 → rowState (memRead u.hbm (a + 64 * i) 64) = 4) ∧
        (rowState (memRead s.hbm (a + 64 * i) 64) ∈ [0, 2, 4, 5] → memRead u.hbm (a + 64 * i) 64 = memRead s.hbm (a + 64 * i) 64)) ∧
      SameOutside s.hbm u.hbm a (64 * hdrRows h) ∧
      (hdrRows h = 0 → u.runOf x.r.id = none ∧ ∀ q g c, x.r.cmd = some (q, g) → s.findCmd q g = some c → c.signal = false →
        ∃ res, Ended u q g (if x.r.warn then 1 else 0) res ∧
          (x.r.held = [] → (∀ y ∈ x.r.tiles, (s.tile y).held = []) → res = x.r.last.getD 0xFFFFFFFF)))

/-- Reading, trimming and stepping the timebase; lock, loss of lock and the servo (02_time_and_phase.md R31,
02_time_and_phase.md R32, 02_time_and_phase.md R36, 02_time_and_phase.md R37, 02_time_and_phase.md R38,
02_time_and_phase.md R49, 02_time_and_phase.md R61) -/
def Obligations.TimebaseAndServo : Prop :=
  (∀ (q : Fin 5) (s : State), ∃ t, exec (.tbNowRead q) s = .next t ∧ t.fget F.TB_NOW_NS q = s.tb.toNat / 2 ^ 24 ∧
    t.fget F.TB_SNAP_WRAP q = s.wrap.toNat ∧ t.fget F.TB_SNAP_FRAC q = s.tb.toNat % 2 ^ 24 ∧
    Frame (theRegs [.TB_NOW, .TB_SNAP] q) [] s t) ∧
  (∀ (v : W32) (s : State), Live s → s.flag F.TB_CTRL_SERVO 0 = false →
    (∃ t, exec (.tbIncWrite v) s = .next t ∧ t.fget F.TB_INC_INC 0 = max 0x03FF7CEE (min v.toNat 0x04008312) ∧
      t.flag F.TB_STATUS_INC_CLAMPED 0 = (s.flag F.TB_STATUS_INC_CLAMPED 0 || decide (v.toNat < 0x03FF7CEE ∨ 0x04008312 < v.toNat)) ∧
      OnlyBits s t .TB_STATUS 0 [F.TB_STATUS_INC_CLAMPED] ∧ Frame (theRegs [.TB_INC, .TB_STATUS] 0) [] s t) ∧
    (∃ t, exec (.tbStepWrite v) s = .next t ∧ t.tb = s.tb + BitVec.ofInt 56 (v.toInt * 2 ^ 24) ∧
      t.wrap = s.wrap + (if (s.tb.toNat : Int) + v.toInt * 2 ^ 24 < 0 then 0xFF#8
        else if 2 ^ 56 ≤ (s.tb.toNat : Int) + v.toInt * 2 ^ 24 then 1#8 else 0#8) ∧ t.flag F.TB_STATUS_STEPPED 0 = true ∧
      (∀ k, k < 256 → s.flag F.BR_AL_STAT_ARMED k = true → s.flag F.BR_AL_CFG_DOMAIN k = false →
        sdiff (BitVec.ofNat 32 (s.fget F.BR_AL_TARGET_TARGET k)) t.now ≤ 0 →
        t.flag F.BR_AL_STAT_FIRED k = true ∧ t.flag F.BR_AL_STAT_PAST k = true) ∧
      ((∀ k, k < 256 → s.flag F.BR_AL_STAT_ARMED k = false) → Newest t 7 3 ∧
        OnlyBits s t .TB_STATUS 0 [F.TB_STATUS_STEPPED] ∧ t.ticks = s.ticks ∧ t.goodSyncs = s.goodSyncs ∧
        Frame (oneReg .TB_STATUS 0) [.time] s t))) ∧
  (∀ (v : W32) (s : State), Live s → s.flag F.TB_CTRL_SERVO 0 = true →
    (∃ t, exec (.tbIncWrite v) s = .next t ∧ Newest t 1 2 ∧ Frame noReg [] s t) ∧
    (∃ t, exec (.tbStepWrite v) s = .next t ∧ Newest t 1 2 ∧ Frame noReg [] s t)) ∧
  (∀ (p : Fin 4) (off : W32) (s : State), s.rxOn (8 + p) = true → s.power.servo = true → s.fget F.TB_CTRL_PTP_PORT 0 = p →
    s.evStopped = true → exec (.ptpSync p true off) s = .next s) ∧
  (∀ (p : Fin 4) (off : W32) (s : State), s.rxOn (8 + p) = true → s.power.servo = true → s.fget F.TB_CTRL_PTP_PORT 0 = p →
    s.evStopped = false →
    let locked := s.flag F.TB_STATUS_TB_LOCKED 0
    let owns := s.flag F.TB_CTRL_SERVO 0
    let a := off.toInt.natAbs
    ∃ t, exec (.ptpSync p true off) s = .next t ∧ t.fget F.TB_OFFSET_OFFSET 0 = off.toNat ∧
      (locked = true → 1000 < a → t.flag F.TB_STATUS_TB_LOCKED 0 = false ∧ t.flag F.TB_STATUS_LOCK_LOST 0 = true ∧
        t.goodSyncs = 0 ∧ t.tb = s.tb ∧ t.fget F.TB_INC_INC 0 = s.fget F.TB_INC_INC 0 ∧ Newest t 7 1) ∧
      (locked = true → a ≤ 1000 → t.flag F.TB_STATUS_TB_LOCKED 0 = true) ∧
      (locked = false → a ≤ 100 → 7 ≤ s.goodSyncs → t.flag F.TB_STATUS_TB_LOCKED 0 = true ∧ t.flag F.TB_STATUS_HOLDOVER 0 = false) ∧
      (locked = false → a ≤ 100 → s.goodSyncs < 7 → t.flag F.TB_STATUS_TB_LOCKED 0 = false ∧ t.goodSyncs = s.goodSyncs + 1) ∧
      (locked = false → 100 < a → t.flag F.TB_STATUS_TB_LOCKED 0 = false ∧ t.goodSyncs = 0) ∧
      (owns = false → t.tb = s.tb ∧ t.fget F.TB_INC_INC 0 = s.fget F.TB_INC_INC 0) ∧
      (owns = true → (locked = true → a ≤ 1000) →
        (locked = false → s.flag F.TB_CTRL_STEP_EN 0 = false ∨ a ≤ 10000 ∨ s.servoStepped = true) →
        t.tb = s.tb ∧ let x := Config.servoTrim (BitVec.ofNat 32 (s.fget F.TB_INC_INC 0)) off
          t.fget F.TB_INC_INC 0 = max 0x03FF7CEE (min x.toNat 0x04008312) ∧
          t.flag F.TB_STATUS_INC_CLAMPED 0 =
            (s.flag F.TB_STATUS_INC_CLAMPED 0 || decide (x.toNat < 0x03FF7CEE ∨ 0x04008312 < x.toNat))) ∧
      (owns = true → locked = false → s.flag F.TB_CTRL_STEP_EN 0 = true → 10000 < a → s.servoStepped = false →
        t.tb = s.tb - BitVec.ofInt 56 (off.toInt * 2 ^ 24) ∧ t.flag F.TB_STATUS_STEPPED 0 = true ∧ t.servoStepped = true ∧
        t.fget F.TB_INC_INC 0 = s.fget F.TB_INC_INC 0) ∧
      ((∀ k, k < 256 → s.flag F.BR_AL_STAT_ARMED k = false) →
        Frame (theRegs [.TB_OFFSET, .TB_STATUS, .TB_INC] 0) [.time] s t)) ∧
  (∀ (p : Fin 4) (two : Bool) (off : W32) (s : State), s.rxOn (8 + p) = true →
    ¬ (s.power.servo = true ∧ two = true ∧ s.fget F.TB_CTRL_PTP_PORT 0 = p) → ∃ t, exec (.ptpSync p two off) s = .next t ∧
    t.fget F.ING_PORT_CNT_UNMATCHED (8 + p) = (s.fget F.ING_PORT_CNT_UNMATCHED (8 + p) + 1) % 2 ^ F.ING_PORT_CNT_UNMATCHED.w ∧
    OnlyBits s t .ING_PORT_CNT (8 + p) [F.ING_PORT_CNT_UNMATCHED] ∧ Frame (oneReg .ING_PORT_CNT (8 + p)) [] s t) ∧
  (∀ s : State, s.flag F.TB_STATUS_TB_LOCKED 0 = true → ∃ t, exec .syncTimeout s = .next t ∧
    t.flag F.TB_STATUS_TB_LOCKED 0 = false ∧ t.flag F.TB_STATUS_HOLDOVER 0 = true ∧ t.flag F.TB_STATUS_LOCK_LOST 0 = true ∧
    Newest t 7 2 ∧ t.tb = s.tb ∧ t.wrap = s.wrap ∧ Frame (oneReg .TB_STATUS 0) [.time] s t) ∧
  (∀ s : State, s.flag F.TB_STATUS_TB_LOCKED 0 = false → exec .syncTimeout s = .next s)

/-- Configuring a Bearing channel; quadrature edges, index pulses and line breaks on its encoder (02_time_and_phase.md
R39, 02_time_and_phase.md R40, 02_time_and_phase.md R41, 02_time_and_phase.md R42, 02_time_and_phase.md R43,
02_time_and_phase.md R44, 02_time_and_phase.md R48, 02_time_and_phase.md R60, 03_plant_ingress.md R88) -/
def Obligations.EncoderChannelsFollowTheShaft : Prop :=
  (∀ (c : Fin 16) (v : W32) (s : State), Live s → let src := v.toNat / 2 ^ 28 % 8; let cyc := v.toNat % 2 ^ 23
    let bad := 4 < src ∨ ((src = 1 ∨ src = 4) ∧ cyc = 0) ∨ (src = 2 ∧ (cyc % 64 = 0 ∨ 32 < cyc % 64)) ∨ (src = 3 ∧ cyc % 4 = 3)
    ∃ t, exec (.brChCfgWrite c v) s = .next t ∧ t.flag F.BR_CH_STAT_VALID c = false ∧ t.bearing c = {} ∧
      (t.rget .BR_CH_CFG c &&& 0x7FFFFFFF#64) = (v.setWidth 64 &&& 0x7FFFFFFF#64) ∧
      (bad → t.flag F.BR_CH_CFG_EN c = false ∧ t.flag F.BR_CH_STAT_CFG_ERR c = true) ∧
      (¬ bad → t.flag F.BR_CH_CFG_EN c = v.getLsbD 31 ∧ t.flag F.BR_CH_STAT_CFG_ERR c = s.flag F.BR_CH_STAT_CFG_ERR c) ∧
      (¬ bad → v.getLsbD 31 = true → t.fget F.BR_CH_QUANT_QUANT c =
        (if src = 1 ∨ src = 4 then (2 ^ 32 + cyc - 1) / cyc % 2 ^ 32 else if src = 2 then 2 ^ (32 - cyc % 64) else 0)) ∧
      (s.flag F.BR_CH_STAT_VALID c = false ∨ s.phaseAlarms c = [] →
        Frame (theRegs [.BR_CH_CFG, .BR_CH_QUANT, .BR_CH_STAT] c) [.phase] s t)) ∧
  (∀ (e : Fin 16) (fwd fast : Bool) (s : State), s.abzOn e = true →
    let cs := s.channels 1 e
    let counted := !fast || Config.edgeCounted s.draws
    ∃ t, exec (.quadratureEdge e fwd fast) s = .next t ∧
      (t.port (16 + e)).count = (if counted then (if fwd then (s.port (16 + e)).count + 1 else (s.port (16 + e)).count - 1)
        else (s.port (16 + e)).count) ∧
      (∀ c ∈ cs, let n := s.fget F.BR_CH_CFG_CYCLE c
        let k := if fwd != s.flag F.BR_CH_CFG_REV c then ((s.bearing c).count + 1) % n else ((s.bearing c).count + n - 1) % n
        (counted = true → (t.bearing c).count = k ∧ (s.flag F.BR_CH_STAT_VALID c = true → AtPhase s t c (k * 2 ^ 32 / n))) ∧
        (counted = false → (t.bearing c).count = (s.bearing c).count ∧ t.rget .BR_CH_PHASE c = s.rget .BR_CH_PHASE c) ∧
        (fast = true → t.flag F.BR_CH_STAT_OVERSPEED c = true)) ∧
      (Quiet s cs → Frame (regsAt [.BR_CH_PHASE, .BR_CH_STAMP, .BR_CH_STAT] cs) [.phase, .ingress] s t ∧ t.windows = s.windows ∧
        t.descs = s.descs ∧ ∀ c, c ∉ cs → t.bearing c = s.bearing c)) ∧
  (∀ (e : Fin 16) (s : State), s.abzMode e = true → let cs := if (s.port (16 + e)).broken then [] else s.channels 1 e
    (∃ t, exec (.zPulse e) s = .next t ∧ (t.port (16 + e)).zCount = (s.port (16 + e)).zCount + 1 ∧
      (∀ c ∈ cs, (t.bearing c).count = 0 ∧ AtPhase s t c 0 ∧ (s.flag F.BR_CH_STAT_VALID c = true →
        s.fget F.BR_CH_QUANT_QUANT c < (sdiff 0 (s.bearing c).src).natAbs → t.flag F.BR_CH_STAT_RESYNC c = true)) ∧
      (Quiet s cs → s.naturals (16 + e) = [] → Frame (fun q k => regsAt [.BR_CH_PHASE, .BR_CH_STAMP, .BR_CH_STAT] cs q k ∨
        oneReg .ING_PORT_CNT (16 + e) q k) [.phase, .ingress] s t) ∧
      (∀ n, Quiet s cs → s.naturals (16 + e) = [n] → Takes s n 8 → (s.desc n).sampled ≠ some (s.ticks, true) →
        s.flag F.ING_D_CFG_PH_EN n = false → (t.port (16 + e)).fast = false ∧
        Taken s t n 0 0 ((s.setPort (16 + e) { s.port (16 + e) with zCount := (s.port (16 + e)).zCount + 1 }).abzPayload (16 + e))))) ∧
  (∀ (e : Fin 16) (s : State), s.abzOn e = true → let cs := s.channels 1 e
    (∃ t, exec (.lineBreak e) s = .next t ∧ (t.port (16 + e)).broken = true ∧ t.flag F.ING_PORT_STAT_LINK (16 + e) = false ∧
      t.flag F.ING_PORT_STAT_ERR (16 + e) = true ∧ (∀ c ∈ cs, Lost t c) ∧ WindowsClosed s t cs ∧
      (Quiet s cs → Unwatched s cs → Frame (fun q k => regsAt [.BR_CH_STAT] cs q k ∨ theRegs [.ING_PORT_STAT, .ING_PORT_CNT] (16 + e) q k)
        [.phase, .ingress] s t)))

/-- SSI frames and polls, mains zero-crossings, PLL ticks, and the loss of a mains or camera source
(02_time_and_phase.md R39, 02_time_and_phase.md R40, 02_time_and_phase.md R44, 02_time_and_phase.md R60, 03_plant_ingress.md R70,
03_plant_ingress.md R72, 03_plant_ingress.md R83) -/
def Obligations.SerialAndMainsChannels : Prop :=
  (∀ (e : Fin 16) (resp : Option W32) (pe : Bool) (s : State), s.rxOn (16 + e) = true → (s.port (16 + e)).busy = true →
    natBit (s.fget F.ING_PORT_CFG_PARAM (16 + e)) 0 = true →
    let par := s.fget F.ING_PORT_CFG_PARAM (16 + e); let n := par / 2 ^ 7 % 32 + 1
    let raw := (resp.getD 0).toNat % 2 ^ n; let pos := if natBit par 12 then grayDecode raw n else raw
    let ok := resp.isSome && !(natBit par 13 && pe); let cs := s.channels 2 e
    ∃ t, exec (.ssiFrame e resp pe) s = .next t ∧ t.flag F.ING_PORT_STAT_LINK (16 + e) = ok ∧
      (Quiet s cs → (t.port (16 + e)).busy = !((s.port (16 + e)).waiting.isEmpty)) ∧
      (∀ c ∈ cs, (ok = true → AtPhase s t c (pos * 2 ^ (32 - s.fget F.BR_CH_CFG_CYCLE c % 64)) ∧ (t.bearing c).missed = 0) ∧
        (ok = false → (s.bearing c).missed = 2 → Lost t c ∧ (t.bearing c).missed = 0) ∧
        (ok = false → (s.bearing c).missed ≠ 2 → (t.bearing c).missed = (s.bearing c).missed + 1 ∧
          t.rget .BR_CH_STAT c = s.rget .BR_CH_STAT c)) ∧
      (Quiet s cs → Unwatched s cs → (s.port (16 + e)).serving = [] → (s.port (16 + e)).waiting = [] →
        Frame (fun q k => regsAt [.BR_CH_PHASE, .BR_CH_STAMP, .BR_CH_STAT] cs q k ∨
          theRegs [.ING_PORT_STAT, .ING_PORT_CNT] (16 + e) q k) [.phase, .ingress] s t)) ∧
  (∀ (e : Fin 16) (s : State), s.rxOn (16 + e) = true → natBit (s.fget F.ING_PORT_CFG_PARAM (16 + e)) 0 = true →
    ¬ (s.naturals (16 + e) = [] ∧ s.channels 2 e = []) →
    let ns := s.naturals (16 + e); let p := s.port (16 + e)
    (p.busy = true → (∀ a ∈ p.waiting, a.poll = false ∧ a.tick ≠ s.ticks) → ∃ t, exec (.ssiPoll e) s = .next t ∧
      (t.port (16 + e)).waiting = p.waiting ++ [{ tick := s.ticks, descs := ns, poll := true }] ∧ Frame noReg [.ingress] s t) ∧
    (p.busy = false → p.waiting = [] → ∃ t, exec (.ssiPoll e) s = .next t ∧
      (t.port (16 + e)).busy = true ∧ (t.port (16 + e)).waiting = [] ∧ (t.port (16 + e)).serving = ns ∧
      (ns = [] → Frame noReg [.ingress] s t) ∧
      (∀ n, ns = [n] → Takes s n 0 → ∃ u, (t.desc n).cur = some u ∧ u.ts = s.now ∧ u.seq = (s.desc n).seq ∧ u.data = [])) ∧
    ((∃ a ∈ p.waiting, a.poll = true) → exec (.ssiPoll e) s = .next s)) ∧
  (∀ (m : Fin 3) (ns : W32) (s : State), s.rxOn (40 + m) = true → let cs := s.channels 3 m
    ∃ t, exec (.zeroCrossing m ns) s = .next t ∧ (t.port (40 + m)).period = ns ∧ t.flag F.ING_PORT_STAT_LINK (40 + m) = true ∧
      (∀ c ∈ cs, let out := (s.bearing c).seen = true ∧ (ns.toNat < 15384616 ∨ 22222222 < ns.toNat)
        let bw := s.fget F.BR_CH_CFG_CYCLE c % 4
        (out → s.flag F.BR_CH_STAT_VALID c = true → Lost t c) ∧
        (out → s.flag F.BR_CH_STAT_VALID c = false → t.flag F.BR_CH_STAT_VALID c = false) ∧
        (¬ out → (t.bearing c).inc = Config.pllNext bw (s.bearing c).inc (s.bearing c).src ns ∧
          t.flag F.BR_CH_STAT_PLL_LOCKED c = Config.pllLocked bw (s.bearing c).inc (s.bearing c).src ns ∧
          t.flag F.BR_CH_STAT_VALID c = true ∧ (s.flag F.BR_CH_STAT_VALID c = false → AtPhase s t c 0))) ∧
      (Quiet s cs → Unwatched s cs → s.naturals (40 + m) = [] →
        Frame (fun q k => regsAt [.BR_CH_PHASE, .BR_CH_STAMP, .BR_CH_STAT, .BR_CH_QUANT] cs q k ∨
          theRegs [.ING_PORT_STAT, .ING_PORT_CNT] (40 + m) q k) [.phase, .ingress] s t)) ∧
  (∀ (m : Fin 3) (s : State), let cs := s.channels 3 m
    (∃ t, exec (.mainsPllTick m) s = .next t ∧ (∀ c ∈ cs, s.flag F.BR_CH_STAT_VALID c = true →
        AtPhase s t c ((s.bearing c).src + (s.bearing c).inc).toNat ∧ (t.bearing c).src = (s.bearing c).src + (s.bearing c).inc) ∧
      (Quiet s cs → Frame (regsAt [.BR_CH_PHASE, .BR_CH_STAMP, .BR_CH_STAT] cs) [.phase] s t)) ∧
    (∃ t, exec (.mainsTimeout m) s = .next t ∧ t.flag F.ING_PORT_STAT_LINK (40 + m) = false ∧
      (∀ c ∈ cs, Lost t c ∧ (t.bearing c).seen = false) ∧ WindowsClosed s t cs ∧
      (Quiet s cs → Unwatched s cs → Frame (fun q k => regsAt [.BR_CH_STAT] cs q k ∨ oneReg .ING_PORT_STAT (40 + m) q k) [.phase] s t))) ∧
  (∀ (p : Fin 8) (s : State), let cs := s.channels 4 p
    ∃ t, exec (.frameStartTimeout p) s = .next t ∧ (∀ c ∈ cs, Lost t c) ∧ (cs ≠ [] → Newest t 8 4) ∧
      WindowsClosed s t cs ∧ (Quiet s cs → Unwatched s cs → Frame (regsAt [.BR_CH_STAT] cs) [.phase] s t))

/-- Alarm slots armed, refused, fired and disarmed, by register and by command: every alarm that is due fires on its tick, and
before a write or a command acts on it (02_time_and_phase.md R45, 02_time_and_phase.md R46, 02_time_and_phase.md R47,
02_time_and_phase.md R49, 02_time_and_phase.md R50, 02_time_and_phase.md R51, 05_trehar_commands.md R131,
05_trehar_commands.md R136, 05_trehar_commands.md R138). That an arm of an armed slot is ignored is log entry 78. -/
def Obligations.AlarmSlots : Prop :=
  (∀ (k : Fin 256) (s : State), (s.timeDue k = true → ∃ t, exec (.timeAlarmFire k) s = .next t ∧
      (∀ j, j < 256 → s.timeDue j = true → t.flag F.BR_AL_STAT_FIRED j = true ∧
        t.fget F.BR_AL_STAT_FIRE_CNT j = (s.fget F.BR_AL_STAT_FIRE_CNT j + 1) % 2 ^ F.BR_AL_STAT_FIRE_CNT.w ∧
        (s.fget F.BR_AL_CFG_MODE j = 1 → t.flag F.BR_AL_STAT_ARMED j = false ∧ t.rget .BR_AL_TARGET j = s.rget .BR_AL_TARGET j) ∧
        (s.fget F.BR_AL_CFG_MODE j = 2 → t.flag F.BR_AL_STAT_ARMED j = true ∧ t.fget F.BR_AL_TARGET_TARGET j =
          (s.fget F.BR_AL_TARGET_TARGET j + s.fget F.BR_AL_PERIOD_PERIOD j) % 2 ^ 32)) ∧
      ((∀ j, j < 256 → j ≠ k.val → s.timeDue j = false) →
        (s.fget F.BR_AL_CFG_ACTION k = 4 → s.flag F.ACT_TRIG_CFG_EN (s.fget F.BR_AL_CFG_ARG k) = true →
          natBit s.pulses (s.fget F.BR_AL_CFG_ARG k) = false → t.pulses = s.pulses + 2 ^ s.fget F.BR_AL_CFG_ARG k) ∧
        (s.fget F.BR_AL_CFG_ACTION k = 0 → (∀ w, w < 32 → s.flag F.BR_WIN_STAT_ARMED w = false) →
          Frame (theRegs [.BR_AL_STAT, .BR_AL_TARGET] k) [] s t))) ∧
    (s.timeDue k = false → exec (.timeAlarmFire k) s = .next s)) ∧
  (∀ (k : Fin 256) (s : State), Live s → let locked := s.tdiLocked (s.fget F.BR_AL_CFG_PART k)
    (s.fget F.BR_AL_CFG_ACTION k = 1 ∨ locked = true → ∃ t, exec (.alArm k) s = .next t ∧ Recorded s t 2) ∧
    (locked = true → ∃ t, exec (.alDisarm k) s = .next t ∧ Recorded s t 2) ∧
    (s.fget F.BR_AL_CFG_ACTION k ≠ 1 → locked = false → s.flag F.BR_AL_STAT_ARMED k = false →
      let bad := s.alarmRefused (s.rget .BR_AL_CFG k) (s.fget F.BR_AL_PERIOD_PERIOD k) ≠ 0
      ∃ t, exec (.alArm k) s = .next t ∧
        (bad → t.flag F.BR_AL_STAT_CFG_ERR k = true ∧ OnlyBits s t .BR_AL_STAT k [F.BR_AL_STAT_CFG_ERR] ∧
          Frame (oneReg .BR_AL_STAT k) [] s t) ∧
        (¬ bad → s.flag F.BR_AL_CFG_DOMAIN k = false →
          0 < sdiff (BitVec.ofNat 32 (s.fget F.BR_AL_TARGET_TARGET k)) s.now → t.flag F.BR_AL_STAT_ARMED k = true ∧
          OnlyBits s t .BR_AL_STAT k [F.BR_AL_STAT_ARMED] ∧ Frame (oneReg .BR_AL_STAT k) [.phase] s t) ∧
        (¬ bad → s.flag F.BR_AL_CFG_DOMAIN k = false →
          sdiff (BitVec.ofNat 32 (s.fget F.BR_AL_TARGET_TARGET k)) s.now ≤ 0 → t.flag F.BR_AL_STAT_FIRED k = true ∧
          t.flag F.BR_AL_STAT_PAST k = true ∧
          t.fget F.BR_AL_STAT_FIRE_CNT k = (s.fget F.BR_AL_STAT_FIRE_CNT k + 1) % 2 ^ F.BR_AL_STAT_FIRE_CNT.w) ∧
        (¬ bad → s.flag F.BR_AL_CFG_DOMAIN k = true → t.flag F.BR_AL_STAT_ARMED k = true ∧
          t.flag F.BR_AL_STAT_MISSED_INVALID k = (s.flag F.BR_AL_STAT_MISSED_INVALID k ||
            !(s.flag F.BR_CH_STAT_VALID (s.fget F.BR_AL_CFG_CHANNEL k))) ∧ Frame (oneReg .BR_AL_STAT k) [.phase] s t)) ∧
    (s.fget F.BR_AL_CFG_ACTION k ≠ 1 → locked = false → s.flag F.BR_AL_STAT_ARMED k = true →
      (s.timeDue k = false → exec (.alArm k) s = .next s) ∧
      (s.timeDue k = true → s.fget F.BR_AL_CFG_MODE k = 2 → exec (.alArm k) s = exec (.timeAlarmFire k) s)) ∧
    (locked = false → s.flag F.BR_AL_STAT_ARMED k = true → ∃ t, exec (.alDisarm k) s = .next t ∧
      t.flag F.BR_AL_STAT_ARMED k = false ∧
      (s.timeDue k = false → OnlyBits s t .BR_AL_STAT k [F.BR_AL_STAT_ARMED] ∧ tabGet {} t.entries k = {} ∧
        Frame (oneReg .BR_AL_STAT k) [.phase] s t) ∧
      (s.timeDue k = true → t.flag F.BR_AL_STAT_FIRED k = true ∧
        t.fget F.BR_AL_STAT_FIRE_CNT k = (s.fget F.BR_AL_STAT_FIRE_CNT k + 1) % 2 ^ F.BR_AL_STAT_FIRE_CNT.w)) ∧
    (locked = false → s.flag F.BR_AL_STAT_ARMED k = false → exec (.alDisarm k) s = .next s)) ∧
  (∀ (r : Fin 128) (tag : Fin 512) (s : State) (c : Cmd) (k : Nat) (cfg target period : W32) (rel : Bool) (run : RunParams),
    Ready s r tag c → c.signal = false → c.par = .alarmArm k cfg target period rel run → k < 256 →
    let start := cfg.toNat / 2 ^ 16 % 16 = 1
    let bad := s.alarmRefused (cfg.setWidth 64) period.toNat
    let pin := ∃ g, s.prog run.prog = some g ∧ ∀ t ∈ bitList run.tiles 16, pinned g t = true
    let mine := s.fget F.BR_AL_CFG_PART k = c.part
    (bad ≠ 0 → ∃ t, exec (.alarmArm r tag) s = .next t ∧ Ended t r tag bad 0 ∧ (mine → t.flag F.BR_AL_STAT_CFG_ERR k = true) ∧
      OnlyBits s t .BR_AL_STAT k [F.BR_AL_STAT_CFG_ERR] ∧ Frame (oneReg .BR_AL_STAT k) [.cmds] s t) ∧
    (bad = 0 → cfg.toNat / 2 ^ 20 % 8 ≠ c.part ∨ ¬ mine → ∃ t, exec (.alarmArm r tag) s = .next t ∧ Ended t r tag 0x0400 0 ∧
      Frame noReg [.cmds] s t) ∧
    (bad = 0 → cfg.toNat / 2 ^ 20 % 8 = c.part → mine → (start → s.runCheck c.part run = 0 ∧ pin) → s.timeDue k = false →
      (s.flag F.BR_AL_STAT_ARMED k = true → ∃ t, exec (.alarmArm r tag) s = .next t ∧ Ended t r tag 0x0602 0 ∧
        Frame noReg [.cmds] s t) ∧
      (s.flag F.BR_AL_STAT_ARMED k = false → natBit cfg.toNat 27 = false →
        0 < sdiff (if rel then target + s.now else target) s.now →
        ∃ t, exec (.alarmArm r tag) s = .next t ∧ Ended t r tag 0 k ∧ t.flag F.BR_AL_STAT_ARMED k = true ∧
          t.fget F.BR_AL_TARGET_TARGET k = (if rel then target + s.now else target).toNat ∧
          t.fget F.BR_AL_PERIOD_PERIOD k = period.toNat ∧
          (start → tabGet {} t.entries k = run ∧ t.fget F.BR_AL_CFG_ARG k = k) ∧
          (¬ start → t.rget .BR_AL_CFG k = cfg.setWidth 64) ∧
          Frame (theRegs [.BR_AL_CFG, .BR_AL_TARGET, .BR_AL_PERIOD, .BR_AL_STAT] k) [.cmds, .phase] s t))) ∧
  (∀ (r : Fin 128) (tag : Fin 512) (s : State) (c : Cmd) (k : Nat), Ready s r tag c → c.signal = false → c.par = .alarmDisarm k →
    (s.fget F.BR_AL_CFG_PART k = c.part → s.timeDue k = false → ∃ t, exec (.alarmDisarm r tag) s = .next t ∧
      Ended t r tag 0 (s.fget F.BR_AL_STAT_FIRE_CNT k) ∧ t.flag F.BR_AL_STAT_ARMED k = false ∧
      OnlyBits s t .BR_AL_STAT k [F.BR_AL_STAT_ARMED] ∧ Frame (oneReg .BR_AL_STAT k) [.cmds, .phase] s t) ∧
    (s.fget F.BR_AL_CFG_PART k = c.part → s.timeDue k = true → k < 256 → ∃ t, exec (.alarmDisarm r tag) s = .next t ∧
      Ended t r tag 0 ((s.fget F.BR_AL_STAT_FIRE_CNT k + 1) % 2 ^ F.BR_AL_STAT_FIRE_CNT.w) ∧
      t.flag F.BR_AL_STAT_FIRED k = true ∧ t.flag F.BR_AL_STAT_ARMED k = false) ∧
    (s.fget F.BR_AL_CFG_PART k ≠ c.part → ∃ t, exec (.alarmDisarm r tag) s = .next t ∧ Ended t r tag 0x0400 0 ∧
      Frame noReg [.cmds] s t))

/-- An arm of a window is refused with CFG_ERR exactly under R54, and an armed window keeps its configuration
(02_time_and_phase.md R54) -/
def Obligations.WindowArmRefusals : Prop :=
  (∀ (w : Fin 32) (s : State), Live s → s.tdiLocked (s.fget F.BR_WIN_OWN_PART w) = false →
    let p := s.fget F.BR_WIN_OWN_PART w; let a := s.fget F.BR_WIN_CFG_START_SRC w; let b := s.fget F.BR_WIN_CFG_STOP_SRC w
    let bad := 0x110 ≤ a ∨ 0x110 ≤ b ∨
      (s.flag F.BR_WIN_CFG_GATE_EN w = true ∧ s.fget F.ING_D_CFG_PART (s.fget F.BR_WIN_CFG_GATE_DESC w) ≠ p) ∨
      (a < 0x100 ∧ s.fget F.BR_AL_CFG_PART a ≠ p) ∨ (b < 0x100 ∧ s.fget F.BR_AL_CFG_PART b ≠ p) ∨
      (s.flag F.BR_WIN_CFG_DOMAIN w = true ∧ s.flag F.BR_CH_CFG_EN (s.fget F.BR_WIN_CFG_CHANNEL w) = false)
    (s.flag F.BR_WIN_STAT_ARMED w = false → ∃ t, exec (.winArm w) s = .next t ∧
      (bad → t.flag F.BR_WIN_STAT_CFG_ERR w = true ∧ t.flag F.BR_WIN_STAT_ARMED w = false ∧
        OnlyBits s t .BR_WIN_STAT w [F.BR_WIN_STAT_CFG_ERR] ∧ Frame (oneReg .BR_WIN_STAT w) [] s t) ∧
      (¬ bad → t.flag F.BR_WIN_STAT_ARMED w = true ∧ t.win w = {} ∧ OnlyBits s t .BR_WIN_STAT w [F.BR_WIN_STAT_ARMED] ∧
        Frame (oneReg .BR_WIN_STAT w) [.phase] s t)) ∧
    (s.flag F.BR_WIN_STAT_ARMED w = true → exec (.winArm w) s = .next s)) ∧
  (∀ (w : Fin 32) (r : Reg) (v : W64) (s : State), Live s → r = .BR_WIN_CFG ∨ r = .BR_WIN_OWN →
    s.flag F.BR_WIN_STAT_ARMED w = true → ∃ t, exec (.registerWrite .pf (regOffset r w) 32 v) s = .next t ∧
      (∃ f, t.faults.head? = some f ∧ f.cls = 1 ∧ f.info0.toNat = regOffset r w) ∧ Frame noReg [] s t)

/-- Trigger edges stamp and complete time windows; a disarm with one stamp closes INCOMPLETE (02_time_and_phase.md
R53, 02_time_and_phase.md R55, 02_time_and_phase.md R58, 02_time_and_phase.md R59, 03_plant_ingress.md R70); that a stamp which was never taken stands as 0 is log entry 104 -/
def Obligations.WindowsStampAndClose : Prop :=
  (∀ (n : Fin 8) (rising : Bool) (s : State), s.rxOn (48 + n) = true → let code := (if rising then 0x100 else 0x108) + n.val
    ∃ t, exec (.triggerEdge n rising) s = .next t ∧ (t.port (48 + n)).level = rising ∧
      (∀ w, w < 32 → s.flag F.BR_WIN_STAT_ARMED w = true → s.flag F.BR_WIN_CFG_DOMAIN w = false →
        (s.fget F.BR_WIN_CFG_START_SRC w = code → s.fget F.BR_WIN_CFG_STOP_SRC w ≠ code → (s.win w).start = none →
          (s.win w).stop = none → (t.win w).start = some (s.now, s.ticks) ∧ (t.win w).stop = none ∧
          t.flag F.BR_WIN_STAT_ARMED w = true) ∧
        (∀ a k, s.fget F.BR_WIN_CFG_STOP_SRC w = code → s.fget F.BR_WIN_CFG_START_SRC w ≠ code → (s.win w).start = some (a, k) →
          (s.win w).stop = none → k ≠ s.ticks → 0 ≤ sdiff s.now a →
          t.flag F.BR_WIN_STAT_DONE w = true ∧ t.fget F.BR_WIN_START_STAMP w = a.toNat ∧
          t.fget F.BR_WIN_STOP_STAMP w = s.now.toNat ∧ t.fget F.BR_WIN_LEN_LEN w = (s.now - a).toNat ∧
          t.flag F.BR_WIN_STAT_INCOMPLETE w = false ∧ t.flag F.BR_WIN_STAT_ORDER_INVERTED w = false ∧
          t.flag F.BR_WIN_STAT_SUB_RESOLUTION w = false ∧
          t.fget F.BR_WIN_STAT_COUNT w = (s.fget F.BR_WIN_STAT_COUNT w + 1) % 2 ^ F.BR_WIN_STAT_COUNT.w ∧
          t.flag F.BR_WIN_STAT_ARMED w = s.flag F.BR_WIN_CFG_REPEAT w)) ∧
      ((∀ w, w < 32 → s.flag F.BR_WIN_STAT_ARMED w = true → s.fget F.BR_WIN_CFG_START_SRC w ≠ code ∧
          s.fget F.BR_WIN_CFG_STOP_SRC w ≠ code) → s.fget F.TRC_TRIG_TRIG 0 = 0 →
        natBit (s.fget F.ING_PORT_CFG_PARAM (48 + n)) (if rising then 0 else 1) = false →
        t = s.setPort (48 + n) { s.port (48 + n) with level := rising })) ∧
  (∀ (w : Fin 32) (s : State), Live s →
    (s.tdiLocked (s.fget F.BR_WIN_OWN_PART w) = true → ∃ t, exec (.winDisarm w) s = .next t ∧ Newest t 1 2 ∧ Frame noReg [] s t) ∧
    (s.tdiLocked (s.fget F.BR_WIN_OWN_PART w) = false →
      (s.flag F.BR_WIN_STAT_ARMED w = false → exec (.winDisarm w) s = .next s) ∧
      (s.flag F.BR_WIN_STAT_ARMED w = true → (s.win w).start = none → (s.win w).stop = none →
        ∃ t, exec (.winDisarm w) s = .next t ∧ t.flag F.BR_WIN_STAT_ARMED w = false ∧
          OnlyBits s t .BR_WIN_STAT w [F.BR_WIN_STAT_ARMED] ∧ Frame (oneReg .BR_WIN_STAT w) [.phase] s t) ∧
      (∀ a k, s.flag F.BR_WIN_STAT_ARMED w = true → (s.win w).start = some (a, k) → (s.win w).stop = none →
        ∃ t, exec (.winDisarm w) s = .next t ∧ t.flag F.BR_WIN_STAT_ARMED w = false ∧ t.flag F.BR_WIN_STAT_INCOMPLETE w = true ∧
          t.flag F.BR_WIN_STAT_DONE w = true ∧ t.fget F.BR_WIN_START_STAMP w = a.toNat ∧ t.fget F.BR_WIN_STOP_STAMP w = 0 ∧
          t.fget F.BR_WIN_LEN_LEN w = 0 ∧ t.win w = {} ∧
          t.fget F.BR_WIN_STAT_COUNT w = (s.fget F.BR_WIN_STAT_COUNT w + 1) % 2 ^ F.BR_WIN_STAT_COUNT.w ∧
          Frame (orRegs (theRegs [.BR_WIN_STAT, .BR_WIN_START, .BR_WIN_STOP, .BR_WIN_LEN] w)
            (oneReg .ING_D_CNT1 (s.fget F.BR_WIN_CFG_GATE_DESC w))) [.phase, .ingress] s t)))

/-- Stream descriptors armed, refused and disarmed by register and by command (03_plant_ingress.md R73,
03_plant_ingress.md R74, 03_plant_ingress.md R75, 05_trehar_commands.md R137, 05_trehar_commands.md R139) -/
def Obligations.DescriptorsArmAndDisarm : Prop :=
  (∀ (n : Fin 128) (s : State), Live s →
    (s.flag F.ING_D_CFG_DEST n = true ∨ s.tdiLocked (s.fget F.ING_D_CFG_PART n) = true →
      ∃ t, exec (.dArm n) s = .next t ∧ Recorded s t 2) ∧
    (s.tdiLocked (s.fget F.ING_D_CFG_PART n) = true → ∃ t, exec (.dDisarm n) s = .next t ∧ Recorded s t 2) ∧
    (s.tdiLocked (s.fget F.ING_D_CFG_PART n) = false →
      (s.flag F.ING_D_CFG_DEST n = false → s.fget F.ING_D_CTRL_STATE n = 0 → ∃ t, exec (.dArm n) s = .next t ∧
        (s.descRefused n = 0 → t.fget F.ING_D_CTRL_STATE n = 1 ∧ t.desc n = {} ∧
          OnlyBits s t .ING_D_CTRL n [F.ING_D_CTRL_STATE] ∧ Frame (oneReg .ING_D_CTRL n) [.ingress] s t) ∧
        (s.descRefused n ≠ 0 → t.flag F.ING_D_CTRL_CFG_ERR n = true ∧ OnlyBits s t .ING_D_CTRL n [F.ING_D_CTRL_CFG_ERR] ∧
          Frame (oneReg .ING_D_CTRL n) [] s t)) ∧
      (s.flag F.ING_D_CFG_DEST n = false → s.fget F.ING_D_CTRL_STATE n ≠ 0 → exec (.dArm n) s = .next s) ∧
      (s.fget F.ING_D_CTRL_STATE n = 0 → exec (.dDisarm n) s = .next s) ∧
      (s.fget F.ING_D_CTRL_STATE n ≠ 0 → ∃ t, exec (.dDisarm n) s = .next t ∧ t.fget F.ING_D_CTRL_STATE n = 0 ∧
        (t.desc n).cur = none ∧ (t.desc n).backlog = [] ∧
        ((s.desc n).cur = none → (s.desc n).backlog = [] → OnlyBits s t .ING_D_CTRL n [F.ING_D_CTRL_STATE] ∧
          Frame (oneReg .ING_D_CTRL n) [.ingress] s t) ∧
        (∀ u, (s.desc n).cur = some u → u.inside ≠ 0 → u.isWindow = false → (s.desc n).backlog = [] → s.recordFree n = true →
          t.fget F.ING_D_CNT0_UNITS n = (s.fget F.ING_D_CNT0_UNITS n + 1) % 2 ^ F.ING_D_CNT0_UNITS.w ∧
          t.fget F.ING_D_RPTR_REC_PROD n = (s.fget F.ING_D_RPTR_REC_PROD n + 1) % 2 ^ 16)))) ∧
  (∀ (r : Fin 128) (tag : Fin 512) (s : State) (c : Cmd) (n : Nat) (cfg sel : W32) (data rcd : W64), Ready s r tag c →
    c.signal = false → c.par = .descArm n cfg sel data rcd →
    let st := s.descCheck cfg sel data rcd
    let mine := cfg.toNat / 2 ^ 28 % 8 = c.part ∧ s.fget F.ING_D_CFG_PART n = c.part
    (s.fget F.ING_D_CTRL_STATE n = 0 → st = 0 → mine → ∃ t, exec (.descArm r tag) s = .next t ∧
      Ended t r tag 0 0 ∧ t.fget F.ING_D_CTRL_STATE n = 1 ∧ t.desc n = {} ∧ t.rget .ING_D_CFG n = cfg.setWidth 64 ∧
      t.rget .ING_D_SEL n = sel.setWidth 64 ∧ t.rget .ING_D_DATA n = data ∧
      t.rget .ING_D_REC n = (rcd &&& 0x00000FFFFFFFFFFF#64) ∧
      Frame (theRegs [.ING_D_CFG, .ING_D_SEL, .ING_D_DATA, .ING_D_REC, .ING_D_CTRL] n) [.cmds, .ingress] s t) ∧
    (st ≠ 0 → ∃ t, exec (.descArm r tag) s = .next t ∧ Ended t r tag st 0 ∧
      (s.fget F.ING_D_CTRL_STATE n = 0 → s.fget F.ING_D_CFG_PART n = c.part → t.flag F.ING_D_CTRL_CFG_ERR n = true) ∧
      OnlyBits s t .ING_D_CTRL n [F.ING_D_CTRL_CFG_ERR] ∧ Frame (oneReg .ING_D_CTRL n) [.cmds] s t) ∧
    (st = 0 → ¬ mine → ∃ t, exec (.descArm r tag) s = .next t ∧ Ended t r tag 0x0400 0 ∧ Frame noReg [.cmds] s t) ∧
    (st = 0 → mine → s.fget F.ING_D_CTRL_STATE n ≠ 0 → ∃ t, exec (.descArm r tag) s = .next t ∧ Ended t r tag 0x0602 0 ∧
      Frame noReg [.cmds] s t)) ∧
  (∀ (r : Fin 128) (tag : Fin 512) (s : State) (c : Cmd) (n : Nat), Ready s r tag c → c.signal = false →
    c.par = .descDisarm n →
    (s.fget F.ING_D_CFG_PART n ≠ c.part → ∃ t, exec (.descDisarm r tag) s = .next t ∧ Ended t r tag 0x0400 0 ∧
      Frame noReg [.cmds] s t) ∧
    (s.fget F.ING_D_CFG_PART n = c.part → s.fget F.ING_D_CTRL_STATE n = 0 → ∃ t, exec (.descDisarm r tag) s = .next t ∧
      Ended t r tag 0 0xFFFFFFFF ∧ Frame noReg [.cmds] s t) ∧
    (s.fget F.ING_D_CFG_PART n = c.part → s.fget F.ING_D_CTRL_STATE n ≠ 0 → (s.desc n).cur = none → (s.desc n).backlog = [] →
      ∃ t, exec (.descDisarm r tag) s = .next t ∧ t.fget F.ING_D_CTRL_STATE n = 0 ∧
        Ended t r tag 0 (match (s.desc n).lastSeq with | some q => q.toNat | none => 0xFFFFFFFF) ∧
        Frame (oneReg .ING_D_CTRL n) [.cmds, .ingress] s t))

/-- Periodic samples, SPI transactions, port links and port configuration (03_plant_ingress.md R63,
03_plant_ingress.md R64, 03_plant_ingress.md R70, 03_plant_ingress.md R73, 03_plant_ingress.md R81,
03_plant_ingress.md R83) -/
def Obligations.SamplesAndPorts : Prop :=
  (∀ (n : Fin 128) (s : State), s.fget F.ING_D_CTRL_STATE n ≠ 0 → s.fget F.ING_D_CFG_SAMPLE n = 1 →
    let src := s.fget F.ING_D_CFG_SRC n
    s.rxOn src = true →
    (s.serial src = false → (s.desc n).sampled = some (s.ticks, true) → exec (.periodicSample n) s = .next s) ∧
    (s.serial src = false → (s.desc n).sampled ≠ some (s.ticks, true) → Takes s n (s.payload src).length →
      ∃ t, exec (.periodicSample n) s = .next t ∧
      Taken s t n 0 0 (s.payload src) ∧ OnlyBits s t .ING_D_CTRL n [F.ING_D_CTRL_STATE] ∧
      Frame (oneReg .ING_D_CTRL n) [.ingress] s t ∧ ∀ m, m ≠ n.val → t.desc m = s.desc m) ∧
    (s.serial src = true → 16 ≤ src → src ≤ 31 → (s.port src).busy = false → (s.port src).waiting = [] →
      ∃ t, exec (.periodicSample n) s = .next t ∧ (t.port src).busy = true ∧ (t.port src).waiting = [] ∧
        (t.port src).serving = [n.val] ∧ Frame (theRegs [.ING_D_CTRL, .ING_D_CNT0, .ING_D_CNT1] n) [.ingress] s t) ∧
    (32 ≤ src → src ≤ 39 → (∀ a ∈ (s.port src).waiting, a.tick ≠ s.ticks) → ∃ t, exec (.periodicSample n) s = .next t ∧
      (t.port src).waiting = (s.port src).waiting ++ [{ tick := s.ticks, descs := [n.val] }] ∧ Frame noReg [.ingress] s t)) ∧
  (∀ (n : Fin 128) (s : State), s.fget F.ING_D_CTRL_STATE n = 0 ∨ s.fget F.ING_D_CFG_SAMPLE n ≠ 1 →
    exec (.periodicSample n) s = .next s) ∧
  (∀ (p : Fin 8) (s : State), (s.rxOn (32 + p) = false ∨ (s.port (32 + p)).waiting = [] ∨ (s.port (32 + p)).busy = true →
      exec (.spiTransactionStart p) s = .next s) ∧
    ∀ a rest m, s.rxOn (32 + p) = true → (s.port (32 + p)).waiting = a :: rest → a.descs = [m] → (s.port (32 + p)).busy = false →
      ∃ t, exec (.spiTransactionStart p) s = .next t ∧ (t.port (32 + p)).busy = true ∧ (t.port (32 + p)).waiting = rest ∧
        (t.port (32 + p)).serving = [m] ∧ (Takes s m 0 → ∃ u, (t.desc m).cur = some u ∧ u.ts = s.now ∧
          u.seq = (s.desc m).seq ∧ u.data = [] ∧ (m ∈ a.latched → natBit u.flags 8 = true) ∧
          t.fget F.ING_D_CTRL_STATE m = 2) ∧
        Frame (theRegs [.ING_D_CTRL, .ING_D_CNT0, .ING_D_CNT1] m) [.ingress] s t) ∧
  (∀ (p : Fin 8) (ws : List W32) (s : State),
    (s.rxOn (32 + p) = false ∨ (s.port (32 + p)).busy = false → exec (.spiTransferEnd p ws) s = .next s) ∧
    (s.rxOn (32 + p) = true → (s.port (32 + p)).busy = true →
      let par := s.fget F.ING_PORT_CFG_PARAM (32 + p)
      let bs := ((ws.take (par / 2 ^ 13 % 8 + 1)).map (fun w => leBytes 4 (w.toNat % 2 ^ (par / 2 ^ 8 % 32 + 1)))).flatten
      ∃ t, exec (.spiTransferEnd p ws) s = .next t ∧ (t.port (32 + p)).busy = false ∧ (t.port (32 + p)).serving = [] ∧
        ∀ n u, (s.port (32 + p)).serving = [n] → (s.desc n).cur = some u → u.data = [] → u.cut = false → u.outside = 0 →
          (u.gate.getD (s.gateNow n)).shut = false → bs.length + backlogBytes (s.desc n) ≤ 32768 →
          (∃ x, (t.desc n).backlog = (s.desc n).backlog ++ [x] ∧ unitData x = bs ∧ x.complete = true ∧ x.ts = u.ts ∧
            x.tsEnd = s.now ∧ x.seq = u.seq) ∧ (t.desc n).cur = none ∧ Frame noReg [.ingress] s t)) ∧
  (∀ (k : Fin 64) (up : Bool) (s : State), (srcListed k = true → k.val < 48 → ∃ t, exec (.portLinkChange k up) s = .next t ∧
      t.flag F.ING_PORT_STAT_LINK k = up ∧ OnlyBits s t .ING_PORT_STAT k [F.ING_PORT_STAT_LINK] ∧
      Frame (oneReg .ING_PORT_STAT k) [.ingress] s t) ∧
    (srcListed k = false ∨ 48 ≤ k.val → exec (.portLinkChange k up) s = .next s)) ∧
  (∀ (k : Fin 64) (v : W32) (s : State), Live s → (srcListed k = false → exec (.portCfgWrite k v) s = .next s) ∧
    (srcListed k = true → ∃ t, exec (.portCfgWrite k v) s = .next t ∧ t.flag F.ING_PORT_CFG_OFF k = v.getLsbD 31 ∧
      (paramOk k (v.toNat % 2 ^ 24) = true → t.fget F.ING_PORT_CFG_PARAM k = v.toNat % 2 ^ 24 ∧
        t.rget .ING_PORT_STAT k = s.rget .ING_PORT_STAT k) ∧
      (paramOk k (v.toNat % 2 ^ 24) = false → t.fget F.ING_PORT_CFG_PARAM k = s.fget F.ING_PORT_CFG_PARAM k ∧
        t.flag F.ING_PORT_STAT_ERR k = true) ∧
      (v.getLsbD 31 = true → s.flag F.ING_PORT_CFG_OFF k = false → (t.port k).waiting = [] ∧ (t.port k).busy = false) ∧
      (v.getLsbD 31 = false → s.flag F.ING_PORT_CFG_OFF k = true → (t.port k).count = 0) ∧
      (v.getLsbD 31 = s.flag F.ING_PORT_CFG_OFF k → Frame (theRegs [.ING_PORT_CFG, .ING_PORT_STAT] k) [] s t) ∧
      Frame (orRegs (theRegs [.ING_PORT_CFG, .ING_PORT_STAT] k) (fun q _ => q = .ING_D_CNT0 ∨ q = .ING_D_CTRL)) [.ingress] s t))

/-- Camera frames and network frames become units, and a complete unit lands with its record (03_plant_ingress.md R65,
03_plant_ingress.md R66, 03_plant_ingress.md R67, 03_plant_ingress.md R68, 03_plant_ingress.md R72,
03_plant_ingress.md R76, 03_plant_ingress.md R80, 03_plant_ingress.md R84, 03_plant_ingress.md R85,
02_time_and_phase.md R40) -/
def Obligations.FramesBecomeUnitsAndLand : Prop :=
  (∀ (p : Fin 8) (vc : Fin 16) (s : State), s.rxOn p = true → s.vcOk p vc = true →
    (∃ t, exec (.frameStart p vc) s = .next t ∧ (t.port p).line = 0 ∧ (∀ c ∈ s.channels 4 p, AtPhase s t c 0) ∧
      (Quiet s (s.channels 4 p) → ∀ n ∈ s.csiDescs p vc, s.fget F.ING_D_CTRL_STATE n ≠ 0 → t.fget F.ING_D_CTRL_STATE n = 2 ∧
        (t.desc n).cur = none ∧ (∃ u, (t.desc n).pend = some u ∧ u.ts = s.now) ∧
        ∀ u, (s.desc n).cur = some u → u.inside ≠ 0 → ∃ x, (t.desc n).backlog = (s.desc n).backlog ++ [x] ∧ x.cut = true ∧
          x.seq = u.seq)) ∧
    (∀ n ∈ s.csiDescs p vc, ∀ u, (s.desc n).cur = some u → u.inside ≠ 0 → ∃ t x, exec (.frameEnd p vc) s = .next t ∧
      (t.desc n).cur = none ∧ (t.desc n).backlog = (s.desc n).backlog ++ [x] ∧ x.data = u.data ∧ x.complete = true ∧
      x.tsEnd = s.now ∧ x.seq = u.seq ∧ Frame noReg [.ingress] s t)) ∧
  (∀ (p : Fin 8) (vc : Fin 16) (s : State), s.rxOn p = false ∨ s.vcOk p vc = false →
    exec (.frameStart p vc) s = .next s ∧ exec (.frameEnd p vc) s = .next s) ∧
  (∀ (p : Fin 8) (vc : Fin 16) (dt : BitVec 6) (d : List Byte) (crc : Bool) (s : State),
    (s.rxOn p = false → ∀ lost, exec (.linePacket p vc dt d lost crc) s = .next s) ∧
    (s.rxOn p = true → ∃ t, exec (.linePacket p vc dt d true crc) s = .next t ∧ Discarded s t p) ∧
    (s.rxOn p = true → dtOk dt.toNat = false ∨ s.vcOk p vc = false →
      ∃ t, exec (.linePacket p vc dt d false crc) s = .next t ∧ Unmatched s t p) ∧
    (s.rxOn p = true → dtOk dt.toNat = true → s.vcOk p vc = true →
      (16384 < d.length ∨ 8388607 ≤ (s.port p).line → ∃ t, exec (.linePacket p vc dt d false crc) s = .next t ∧ Discarded s t p) ∧
      (d.length ≤ 16384 → (s.port p).line < 8388607 → ∃ t, exec (.linePacket p vc dt d false crc) s = .next t ∧
        (t.port p).line = (s.port p).line + 1 ∧
        ∀ n, s.csiDesc p vc dt.toNat = some n → Quiet s (s.channels 4 p) →
          let bs := s.lineBytes n dt.toNat d; let k := vc.val * 64 + dt.toNat
          (∀ u, k ∈ (s.port p).counted → (s.desc n).cur = some u → u.cut = false → u.gate = none → s.gating n = [] →
            bs.length + backlogBytes (s.desc n) ≤ 32768 → ∃ x, (t.desc n).cur = some x ∧ unitData x = unitData u ++ bs ∧
              x.inside = u.inside + 1 ∧ x.flags = (if crc then u.flags else u.flags ||| 4)) ∧
          (∀ u, k ∉ (s.port p).counted → (s.desc n).pend = some u → u.data = [] → u.gate = none → Takes s n bs.length →
            ∃ x, (t.desc n).cur = some x ∧ unitData x = bs ∧ x.seq = (s.desc n).seq ∧ x.ts = u.ts ∧ (t.desc n).pend = none)))) ∧
  (∀ (src : Nat) (d : List Byte) (fcs : Bool) (s : State) (i : Instr), ((∃ p : Fin 4, i = .ethFrame p d fcs ∧ src = 8 + p) ∨
      ∃ x : Fin 2, i = .tapFrame x d fcs ∧ src = 12 + x) → s.rxOn src = true →
    (fcs = false ∨ 9216 < d.length + 4 → ∃ t, exec i s = .next t ∧ Discarded s t src)) ∧
  (∀ (d : List Byte) (s : State), d.length + 4 ≤ 9216 → let (ety, vid, pcp) := frameTag d
    (∀ p : Fin 4, s.rxOn (8 + p) = true → ety ≠ 0x88F7 → natBit (s.fget F.ING_PORT_CFG_PARAM (8 + p)) 3 = false →
      (s.netDesc (8 + p) ety vid = none → ∃ t, exec (.ethFrame p d true) s = .next t ∧ Unmatched s t (8 + p)) ∧
      (∀ n, s.netDesc (8 + p) ety vid = some n → Takes s n d.length → ∃ t, exec (.ethFrame p d true) s = .next t ∧
        Taken s t n 0 (vid + pcp * 4096) d ∧ Frame (oneReg .ING_D_CTRL n) [.ingress] s t)) ∧
    (∀ p : Fin 4, s.rxOn (8 + p) = true → ety ≠ 0x88F7 → natBit (s.fget F.ING_PORT_CFG_PARAM (8 + p)) 3 = true →
      (s.qci p d).1 = false → ∃ t, exec (.ethFrame p d true) s = .next t ∧ Discarded s t (8 + p)) ∧
    (∀ x : Fin 2, s.rxOn (12 + x) = true →
      (s.netDesc (12 + x) ety vid = none → ∃ t, exec (.tapFrame x d true) s = .next t ∧ Unmatched s t (12 + x)) ∧
      (∀ n, s.netDesc (12 + x) ety vid = some n → Takes s n d.length → ∃ t, exec (.tapFrame x d true) s = .next t ∧
        Taken s t n 0 (vid + pcp * 4096) d ∧ Frame (oneReg .ING_D_CTRL n) [.ingress] s t))) ∧
  (∀ (n : Fin 128) (s : State) (u : UnitRec) (us : List UnitRec), Flowing s (s.fget F.ING_D_CFG_PART n) →
    (s.desc n).backlog = u :: us → s.flag F.ING_D_CFG_SEM_EN n = false → s.recordFree n = true →
    (∀ f, f < 2 ^ 15 → s.frameIn f = true) →
    let slot := s.fget F.ING_D_REC_ADDR n % 2 ^ 36 +
      32 * (s.fget F.ING_D_RPTR_REC_PROD n % 2 ^ s.fget F.ING_D_REC_LOG2_RECS n)
    slot + 32 ≤ 2 ^ 36 →
    (u.isWindow = false → u.complete = true → s.flag F.ING_D_CFG_DEST n = false →
      let size := s.fget F.ING_D_DATA_SIZE n * 256; let loc := s.fget F.ING_D_DATA_LOC n % 2 ^ 36
      let bs := unitData u; let a := s.unitOfs n; let k := bs.length; let len := u.len + k
      loc + size ≤ 2 ^ 36 → (slot + 32 ≤ loc ∨ loc + size ≤ slot) → len ≤ s.ringRoom n a → (a + u.len) % size + k ≤ size → 0 < size →
      let pad := if s.aligned n then (256 - len % 256) % 256 else 0
      k + pad ≤ size →
      ∃ t, exec (.landing n) s = .next t ∧ (t.desc n).backlog = us ∧
        (∀ i, i < k → memGet t.hbm (loc + (a + u.len) % size + i) = bs.getD i 0) ∧
        memRead t.hbm slot 32 =
          recordBytes { u with info := u.info + (u.data.filter (·.line)).length } a len (s.desc n).dropped ∧
        t.fget F.ING_D_PTR_PROD n = (a + len + pad) % 2 ^ 32 ∧
        t.fget F.ING_D_RPTR_REC_PROD n = (s.fget F.ING_D_RPTR_REC_PROD n + 1) % 2 ^ 16 ∧
        (∀ x, ¬ (loc ≤ x ∧ x < loc + size) → ¬ (slot ≤ x ∧ x < slot + 32) → memGet t.hbm x = memGet s.hbm x) ∧
        Frame (theRegs [.ING_D_PTR, .ING_D_RPTR, .ING_D_CNT0] n) [.ingress, .hbm] s t) ∧
    (u.isWindow = true → us = [] → (s.desc n).cur = none →
      ∃ t, exec (.landing n) s = .next t ∧ (t.desc n).backlog = [] ∧
        memRead t.hbm slot 32 = recordBytes { u with seq := (s.desc n).seq } u.ofs
          (tabGet 0 (s.desc n).tally (runKey (u.info, u.run))) (s.desc n).dropped ∧
        t.fget F.ING_D_RPTR_REC_PROD n = (s.fget F.ING_D_RPTR_REC_PROD n + 1) % 2 ^ 16 ∧
        SameOutside s.hbm t.hbm slot 32 ∧ Frame (oneReg .ING_D_RPTR n) [.ingress, .hbm] s t))

/-- Excitation: ON, OFF and CLEAR_RETIRED by register and by command, ramps, overloads, waits and samples
(04_excitation_and_egress.md R89, 04_excitation_and_egress.md R90, 04_excitation_and_egress.md R91,
04_excitation_and_egress.md R92, 05_trehar_commands.md R141, 10_faults_retry_and_retirement.md R262) -/
def Obligations.ExcitationChannels : Prop :=
  (∀ (c : Fin 4) (s : State), Live s →
    let ok := 5000 ≤ s.fget F.EXC_CH_CFG_SETPOINT c ∧ s.fget F.EXC_CH_CFG_SETPOINT c ≤ 30000 ∧ 50 ≤ s.fget F.EXC_CH_LIM_ILIM c ∧
      s.fget F.EXC_CH_LIM_ILIM c ≤ 10000 ∧ 1 ≤ s.fget F.EXC_CH_LIM_ISCALE c ∧
      s.fget F.EXC_CH_LIM_ILIM c * 1000 ≤ s.fget F.EXC_CH_LIM_ISCALE c * 4095 ∧ s.fget F.EXC_CH_LIM_FOLD c ≠ 0
    let st := s.fget F.EXC_CH_STAT_STATE c
    (s.tdiLocked (s.fget F.EXC_CH_CFG_PART c) = true →
      (∃ t, exec (.excOn (.reg c)) s = .next t ∧ Recorded s t 2) ∧ (∃ t, exec (.excOff (.reg c)) s = .next t ∧ Recorded s t 2) ∧
      (∃ t, exec (.excClearRetired (.reg c)) s = .next t ∧ Recorded s t 2)) ∧
    (s.tdiLocked (s.fget F.EXC_CH_CFG_PART c) = false →
      (st = 0 → ok → ∃ t, exec (.excOn (.reg c)) s = .next t ∧ t.fget F.EXC_CH_STAT_STATE c = 1 ∧
        t.fget F.EXC_CH_STAT_ATTEMPT c = 1 ∧ tabGet 0 t.rampUs c = 0 ∧
        OnlyBits s t .EXC_CH_STAT c [F.EXC_CH_STAT_STATE, F.EXC_CH_STAT_ATTEMPT] ∧ Frame (oneReg .EXC_CH_STAT c) [.egress] s t) ∧
      (st = 0 → ¬ ok → ∃ t, exec (.excOn (.reg c)) s = .next t ∧ t.flag F.EXC_CH_STAT_CFG_ERR c = true ∧
        OnlyBits s t .EXC_CH_STAT c [F.EXC_CH_STAT_CFG_ERR] ∧ Frame (oneReg .EXC_CH_STAT c) [] s t) ∧
      (st ≠ 0 → exec (.excOn (.reg c)) s = .next s) ∧
      (st ≠ 4 → ∃ t, exec (.excOff (.reg c)) s = .next t ∧ t.fget F.EXC_CH_STAT_STATE c = 0 ∧
        t.flag F.EXC_CH_STAT_LIMITING c = false ∧ t.flag F.EXC_CH_STAT_FOLDBACK c = false ∧
        OnlyBits s t .EXC_CH_STAT c [F.EXC_CH_STAT_STATE, F.EXC_CH_STAT_LIMITING, F.EXC_CH_STAT_FOLDBACK] ∧
        Frame (oneReg .EXC_CH_STAT c) [] s t) ∧
      (st = 4 → exec (.excOff (.reg c)) s = .next s ∧ ∃ t, exec (.excClearRetired (.reg c)) s = .next t ∧
        t.fget F.EXC_CH_STAT_STATE c = 0 ∧ OnlyBits s t .EXC_CH_STAT c [F.EXC_CH_STAT_STATE] ∧
        Frame (oneReg .EXC_CH_STAT c) [] s t) ∧
      (st ≠ 4 → exec (.excClearRetired (.reg c)) s = .next s))) ∧
  (∀ (r : Fin 128) (tag : Fin 512) (s : State) (c : Cmd) (ch cmd : Nat) (w : Bool) (cfg lim : W32), Ready s r tag c →
    c.signal = false → c.par = .excCmd ch cmd w cfg lim →
    (s.fget F.EXC_CH_CFG_PART ch = c.part → w = false →
      (cmd = 1 → s.fget F.EXC_CH_STAT_STATE ch = 0 → s.excOk ch = true → ∃ t, exec (.excOn (.trehar r tag)) s = .next t ∧
        t.fget F.EXC_CH_STAT_STATE ch = 1 ∧ Ended t r tag 0 (t.rget .EXC_CH_STAT ch).toNat ∧
        Frame (oneReg .EXC_CH_STAT ch) [.cmds, .egress] s t) ∧
      (cmd = 1 → s.fget F.EXC_CH_STAT_STATE ch = 0 → s.excOk ch = false → ∃ t, exec (.excOn (.trehar r tag)) s = .next t ∧
        t.flag F.EXC_CH_STAT_CFG_ERR ch = true ∧ Ended t r tag 0x0108 0 ∧ Frame (oneReg .EXC_CH_STAT ch) [.cmds] s t) ∧
      (cmd = 2 → s.fget F.EXC_CH_STAT_STATE ch ≠ 4 → ∃ t, exec (.excOff (.trehar r tag)) s = .next t ∧
        t.fget F.EXC_CH_STAT_STATE ch = 0 ∧ Ended t r tag 0 (t.rget .EXC_CH_STAT ch).toNat ∧
        Frame (oneReg .EXC_CH_STAT ch) [.cmds] s t) ∧
      (cmd = 3 → s.fget F.EXC_CH_STAT_STATE ch = 4 → ∃ t, exec (.excClearRetired (.trehar r tag)) s = .next t ∧
        t.fget F.EXC_CH_STAT_STATE ch = 0 ∧ Ended t r tag 0 (t.rget .EXC_CH_STAT ch).toNat ∧
        Frame (oneReg .EXC_CH_STAT ch) [.cmds] s t)) ∧
    (s.fget F.EXC_CH_CFG_PART ch ≠ c.part → cmd = 1 → ∃ t, exec (.excOn (.trehar r tag)) s = .next t ∧
      Ended t r tag 0x0400 0 ∧ Frame noReg [.cmds] s t) ∧
    (s.fget F.EXC_CH_CFG_PART ch = c.part → w = true → cfg.toNat / 2 ^ 28 % 8 = c.part → cmd = 0 →
      (s.fget F.EXC_CH_STAT_STATE ch ≠ 0 → s.fget F.EXC_CH_STAT_STATE ch ≠ 4 → ∃ t, exec (.excOn (.trehar r tag)) s = .next t ∧
        Ended t r tag 0x0602 0 ∧ Frame noReg [.cmds] s t) ∧
      (s.fget F.EXC_CH_STAT_STATE ch = 0 ∨ s.fget F.EXC_CH_STAT_STATE ch = 4 → ∃ t, exec (.excOn (.trehar r tag)) s = .next t ∧
        t.fget F.EXC_CH_CFG_SETPOINT ch = cfg.toNat % 2 ^ 16 ∧ t.rget .EXC_CH_LIM ch = lim.setWidth 64 ∧
        Ended t r tag 0 (s.rget .EXC_CH_STAT ch).toNat ∧ Frame (theRegs [.EXC_CH_CFG, .EXC_CH_LIM] ch) [.cmds] s t))) ∧
  (∀ (c : Fin 4) (s : State), let st := s.fget F.EXC_CH_STAT_STATE c
    let low := 10 * s.fget F.EXC_CH_MEAS_VOUT c < 9 * s.fget F.EXC_CH_CFG_SETPOINT c
    (st ≠ 1 → exec (.rampEnd c) s = .next s) ∧
    (st = 1 → ¬ low → ∃ t, exec (.rampEnd c) s = .next t ∧ t.fget F.EXC_CH_STAT_STATE c = 2 ∧
      t.fget F.EXC_CH_STAT_ATTEMPT c = 1 ∧ t.flag F.EXC_CH_STAT_FOLDBACK c = false ∧ Frame (oneReg .EXC_CH_STAT c) [] s t) ∧
    (st = 1 → low → ∃ t, exec (.rampEnd c) s = .next t ∧ t.flag F.EXC_CH_STAT_RAMP_FAIL c = true ∧
      t.flag F.EXC_CH_STAT_LIMITING c = false ∧
      (s.fget F.EXC_CH_STAT_ATTEMPT c < 3 → t.fget F.EXC_CH_STAT_STATE c = 3 ∧ Newest t 6 1) ∧
      (s.fget F.EXC_CH_STAT_ATTEMPT c = 3 → t.fget F.EXC_CH_STAT_STATE c = 4 ∧ t.flag F.EXC_CH_STAT_RETIRED_EV c = true ∧
        Newest t 6 3) ∧ Frame (oneReg .EXC_CH_STAT c) [] s t) ∧
    (st = 2 → ∃ t, exec (.overload c) s = .next t ∧ t.flag F.EXC_CH_STAT_OVERLOAD c = true ∧
      t.fget F.EXC_CH_STAT_ATTEMPT c = 1 ∧ t.fget F.EXC_CH_STAT_STATE c = 3 ∧ Newest t 6 2 ∧
      Frame (oneReg .EXC_CH_STAT c) [] s t) ∧
    (st ≠ 2 → exec (.overload c) s = .next s) ∧
    (st = 3 → ∃ t, exec (.waitEnd c) s = .next t ∧ t.fget F.EXC_CH_STAT_STATE c = 1 ∧
      t.fget F.EXC_CH_STAT_ATTEMPT c = (s.fget F.EXC_CH_STAT_ATTEMPT c + 1) % 4 ∧ tabGet 0 t.rampUs c = 0 ∧
      OnlyBits s t .EXC_CH_STAT c [F.EXC_CH_STAT_STATE, F.EXC_CH_STAT_ATTEMPT] ∧ Frame (oneReg .EXC_CH_STAT c) [.egress] s t) ∧
    (st ≠ 3 → exec (.waitEnd c) s = .next s)) ∧
  (∀ (c : Fin 4) (v i : BitVec 12) (s : State), ∃ t, exec (.excSenseSample c v i) s = .next t ∧
    t.fget F.EXC_CH_MEAS_VOUT c = v.toNat * 625 / 64 ∧
    t.fget F.EXC_CH_MEAS_IOUT c = i.toNat * s.fget F.EXC_CH_LIM_ISCALE c / 1000 ∧
    (let st := s.fget F.EXC_CH_STAT_STATE c; let il := s.fget F.EXC_CH_LIM_ILIM c
     let us := tabGet 0 s.rampUs c + 1
     let lim := (st = 1 ∨ st = 2) ∧ (if s.flag F.EXC_CH_STAT_FOLDBACK c then il * s.fget F.EXC_CH_LIM_FOLD c / 16 else il) ≤
       i.toNat * s.fget F.EXC_CH_LIM_ISCALE c / 1000
     (t.flag F.EXC_CH_STAT_LIMITING c = true ↔ lim) ∧ (t.flag F.EXC_CH_STAT_FOLDBACK c = true ↔ lim ∧ st = 1 ∧
       2 * (v.toNat * 625 / 64) * 10000 < s.fget F.EXC_CH_CFG_SETPOINT c * min us 10000) ∧
     (st = 1 → tabGet 0 t.rampUs c = us)) ∧
    OnlyBits s t .EXC_CH_STAT c [F.EXC_CH_STAT_LIMITING, F.EXC_CH_STAT_FOLDBACK] ∧
    Frame (theRegs [.EXC_CH_STAT, .EXC_CH_MEAS] c) [.egress] s t)

/-- Enabling outputs, staging copies, PWM period starts and pulse ends (04_excitation_and_egress.md R95,
04_excitation_and_egress.md R97, 04_excitation_and_egress.md R99, 04_excitation_and_egress.md R102,
04_excitation_and_egress.md R103, 04_excitation_and_egress.md R108, 04_excitation_and_egress.md R109) -/
def Obligations.OutputsEnableAndStage : Prop :=
  (∀ (o : Fin 32) (v : W32) (s : State), Live s →
    (s.flag F.ACT_PWM_CFG_EN o = false → ∃ t, exec (.pwmEnable o v) s = .next t ∧
      (let ok := 16 ≤ s.fget F.ACT_PWM_PERIOD_PERIOD o ∧ v.toNat / 2 ^ 22 % 4 ≠ 3
       (t.flag F.ACT_PWM_CFG_EN o = true ↔ v.getLsbD 31 = true ∧ ok) ∧ t.fget F.ACT_PWM_CFG_GROUP o = v.toNat / 2 ^ 28 % 8 ∧
       t.fget F.ACT_PWM_CFG_POLICY o = v.toNat / 2 ^ 22 % 4 ∧
       (v.getLsbD 31 = true → ok → t.fget F.ACT_PWM_STAT_DUTY o = s.fget F.ACT_PWM_SAFE_SAFE o ∧
         t.flag F.ACT_PWM_STAT_STALE o = false ∧ t.pwm o = {}) ∧
       (¬ (v.getLsbD 31 = true ∧ ok) → t.rget .ACT_PWM_STAT o = s.rget .ACT_PWM_STAT o)) ∧
      Frame (theRegs [.ACT_PWM_CFG, .ACT_PWM_STAT] o) [.egress] s t) ∧
    (s.flag F.ACT_PWM_CFG_EN o = true → ((v.setWidth 64 &&& regMask .ACT_PWM_CFG .rw) ^^^ s.rget .ACT_PWM_CFG o) &&& 0x7FFFFFFF#64 ≠ 0 →
      ∃ t, exec (.pwmEnable o v) s = .next t ∧ Recorded s t 3) ∧
    (s.flag F.ACT_PWM_CFG_EN o = true → ((v.setWidth 64 &&& regMask .ACT_PWM_CFG .rw) ^^^ s.rget .ACT_PWM_CFG o) &&& 0x7FFFFFFF#64 = 0 →
      ∃ t, exec (.pwmEnable o v) s = .next t ∧ t.flag F.ACT_PWM_CFG_EN o = v.getLsbD 31 ∧
        Frame (oneReg .ACT_PWM_CFG o) [.egress] s t)) ∧
  (∀ (g : Fin 8) (v : W32) (s : State), Live s → s.tdiLocked (s.fget F.ACT_GRP_CFG_PART g) = false →
    s.flag F.ACT_GRP_CFG_EN g = false → ∃ t, exec (.groupEnable g v) s = .next t ∧
      (let p := v.toNat / 2 ^ 28 % 8; let ok := s.runOk p (v.toNat / 2 ^ 24 % 16) (v.toNat / 2 ^ 20 % 16) (v.toNat % 2 ^ 15) 1
       t.fget F.ACT_GRP_CFG_PART g = p ∧ t.flag F.ACT_GRP_CFG_EN g = (v.getLsbD 31 && ok) ∧
       t.flag F.ACT_GRP_STAT_CFG_ERR g = (s.flag F.ACT_GRP_STAT_CFG_ERR g || (v.getLsbD 31 && !ok))) ∧
      Frame (theRegs [.ACT_GRP_CFG, .ACT_GRP_STAT] g) [] s t) ∧
  (∀ (q : Fin 16) (v : W32) (s : State), Live s → s.tdiLocked (s.fget F.ACT_DQ_CFG_PART q) = false →
    s.flag F.ACT_DQ_CFG_EN q = false → ∃ t, exec (.dqEnable q v) s = .next t ∧
      (let p := v.toNat / 2 ^ 28 % 8; let n := s.fget F.ACT_DQ_SRC_NSLOTS q
       let ok := v.toNat / 2 ^ 21 % 4 ≠ 3 ∧ v.toNat / 2 ^ 10 % 2 ^ 11 ≤ 1521 ∧ 1 ≤ n ∧ n ≤ 6 ∧
         s.runOk p (s.fget F.ACT_DQ_SRC_TILE q) (s.fget F.ACT_DQ_SRC_REGION q) (s.fget F.ACT_DQ_SRC_SLOT q) n = true
       t.fget F.ACT_DQ_CFG_PART q = p ∧ (t.flag F.ACT_DQ_CFG_EN q = true ↔ v.getLsbD 31 = true ∧ ok) ∧
       (t.flag F.ACT_DQ_STAT_CFG_ERR q = true ↔ s.flag F.ACT_DQ_STAT_CFG_ERR q = true ∨ (v.getLsbD 31 = true ∧ ¬ ok))) ∧
      Frame (theRegs [.ACT_DQ_CFG, .ACT_DQ_STAT] q) [] s t) ∧
  (∀ (k : Fin 64) (v : W32) (s : State), Live s → s.tdiLocked (s.fget F.ACT_ADV_WL0_PART k) = false →
    ∃ t, exec (.advSrcEnable k v) s = .next t ∧
      (let ok := s.flag F.ACT_ADV_WL0_EN k && s.fget F.ACT_ADV_WL0_POLICY k != 3 && s.runOk (s.fget F.ACT_ADV_WL0_PART k)
         (v.toNat / 2 ^ 24 % 16) (v.toNat / 2 ^ 20 % 16) (v.toNat % 2 ^ 15) 1
       t.flag F.ACT_ADV_SRC_EN k = (v.getLsbD 31 && ok) ∧ t.fget F.ACT_ADV_SRC_SLOT k = v.toNat % 2 ^ 15 ∧
       t.flag F.ACT_ADV_TSTAT_CFG_ERR k = (s.flag F.ACT_ADV_TSTAT_CFG_ERR k || (v.getLsbD 31 && !ok))) ∧
      Frame (theRegs [.ACT_ADV_SRC, .ACT_ADV_TSTAT] k) [] s t) ∧
  (∀ (v : W32) (s : State), Live s →
    (∀ g : Fin 8, s.tdiLocked (s.fget F.ACT_GRP_CFG_PART g) = true → ∃ t, exec (.groupEnable g v) s = .next t ∧ Recorded s t 2) ∧
    (∀ q : Fin 16, s.tdiLocked (s.fget F.ACT_DQ_CFG_PART q) = true → ∃ t, exec (.dqEnable q v) s = .next t ∧ Recorded s t 2) ∧
    (∀ k : Fin 64, s.tdiLocked (s.fget F.ACT_ADV_WL0_PART k) = true → ∃ t, exec (.advSrcEnable k v) s = .next t ∧ Recorded s t 2)) ∧
  (∀ (o : StageOut) (s : State), (s.stageRun o = none → exec (.stagingCopy o) s = .next s) ∧
    ∀ p t g slot n, s.stageRun o = some (p, t, g, slot, n) →
      (¬ (s.runOk p t g slot n = true ∧ ∀ i, i < n → s.isFull t (slot + i) = true) → exec (.stagingCopy o) s = .next s) ∧
      (s.runOk p t g slot n = true → (∀ i, i < n → s.isFull t (slot + i) = true) → ∃ u, exec (.stagingCopy o) s = .next u ∧
        (∀ i, i < n → u.isFull t (slot + i) = false) ∧
        let v : Staged := { data := s.deckRead t slot 0 (256 * n), ts := s.now, wrap := s.wrap, tick := s.ticks }
        match o with
        | .group g => (u.group g).staged = some v ∧ u.flag F.ACT_GRP_STAT_FRESH g = true ∧
            (s.flag F.ACT_GRP_STAT_FRESH g = true →
              u.fget F.ACT_GRP_STAT_OVERWRITE g = (s.fget F.ACT_GRP_STAT_OVERWRITE g + 1) % 2 ^ 8) ∧
            Frame (oneReg .ACT_GRP_STAT g) [.egress, .deckTags] s u
        | .queue q => (u.queue q).staged = some v ∧ u.flag F.ACT_DQ_STAT_FRESH q = true ∧
            OnlyBits s u .ACT_DQ_STAT q [F.ACT_DQ_STAT_FRESH] ∧ Frame (oneReg .ACT_DQ_STAT q) [.egress, .deckTags] s u
        | .tag k => if s.flag F.ACT_ADV_STAT_DEGRADED 0 then
            u.fget F.ACT_ADV_CNT_DISCARDED 0 = (s.fget F.ACT_ADV_CNT_DISCARDED 0 + 1) % 2 ^ 32 ∧ u.advTag k = s.advTag k ∧
              Frame (oneReg .ACT_ADV_CNT 0) [.deckTags] s u
          else (u.advTag k).staged = some { v with data := fitTo (s.fget F.ACT_ADV_WL0_LEN k) v.data } ∧
            u.flag F.ACT_ADV_TSTAT_FRESH k = true ∧ Frame (oneReg .ACT_ADV_TSTAT k) [.egress, .deckTags] s u)) ∧
  (∀ (o : Fin 32) (s : State), ((s.pwm o).pending = none ∨ s.flag F.ACT_PWM_CFG_EN o = false → exec (.pwmPeriodStart o) s = .next s) ∧
    ∀ d st, (s.pwm o).pending = some (d, st) → s.flag F.ACT_PWM_CFG_EN o = true → ∃ t, exec (.pwmPeriodStart o) s = .next t ∧
      t.fget F.ACT_PWM_STAT_DUTY o = d % 2 ^ 24 ∧ t.flag F.ACT_PWM_STAT_STALE o = st ∧ (t.pwm o).pending = none ∧
      OnlyBits s t .ACT_PWM_STAT o [F.ACT_PWM_STAT_DUTY, F.ACT_PWM_STAT_STALE] ∧ Frame (oneReg .ACT_PWM_STAT o) [.egress] s t) ∧
  (∀ (k : Fin 4) (s : State), (natBit s.pulses k = false → exec (.triggerPulseEnd k) s = .next s) ∧
    (natBit s.pulses k = true → ∃ t, exec (.triggerPulseEnd k) s = .next t ∧ natBit t.pulses k = false ∧
      (∀ j, j ≠ k.val → natBit t.pulses j = natBit s.pulses j) ∧ Frame noReg [.egress] s t))

/-- Drive frames sent with their FCS, gate lists advanced and loaded, safe frames loaded, the advisory pacer
(04_excitation_and_egress.md R103, 04_excitation_and_egress.md R104, 04_excitation_and_egress.md R107,
04_excitation_and_egress.md R108, 04_excitation_and_egress.md R110, 05_trehar_commands.md R140, 05_trehar_commands.md
R142) -/
def Obligations.FramesAndGatesLeave : Prop :=
  (∀ (p : Fin 4) (s : State), (s.txNext p = none → exec (.driveFrameTransmit p) s = .next s) ∧
    ∀ f, s.txNext p = some f → ∃ t, exec (.driveFrameTransmit p) s = .next t ∧ t.txFrames p = (s.txFrames p).erase f ∧
      (s.flag F.ING_PORT_STAT_LINK (8 + p) = true → t.outs = s.outs ++ [.eth p (f.data ++ leBytes 4 (fcs f.data).toNat)] ∧
        t.fget F.ACT_DQ_STAT_SENT f.queue = (s.fget F.ACT_DQ_STAT_SENT f.queue + 1) % 2 ^ 8 ∧
        t.fget F.ACT_DQ_TXTS_TS f.queue = s.now.toNat ∧ (t.queue f.queue).last.map (·.data) = some f.data) ∧
      (s.flag F.ING_PORT_STAT_LINK (8 + p) = false → t.outs = s.outs ∧
        t.fget F.ACT_DQ_STAT_DISCARD f.queue = (s.fget F.ACT_DQ_STAT_DISCARD f.queue + 1) % 2 ^ 8) ∧
      Frame (theRegs [.ACT_DQ_STAT, .ACT_DQ_TXTS] f.queue) [.egress] s t) ∧
  (∀ (g : GateRef) (s : State), let k := match g with | .stream p j => 17 * p.val + j.val | .egress p => 17 * p.val + 16
    (∀ l, (s.gate k).waiting = some l → sdiff l.base s.now ≤ 0 → ∃ t, exec (.gateListEntry g) s = .next t ∧
      (t.gate k).running = some l ∧ (t.gate k).pos = 0 ∧ (t.gate k).states = (l.entries.getD 0 (0, 0)).1 ∧
      (t.gate k).waiting = none ∧ Frame noReg [.ingress] s t) ∧
    (∀ l, (s.gate k).waiting = none → (s.gate k).running = some l → ∃ t, exec (.gateListEntry g) s = .next t ∧
      (t.gate k).running = some l ∧ (t.gate k).pos = ((s.gate k).pos + 1) % l.entries.length ∧
      (t.gate k).states = (l.entries.getD (t.gate k).pos (0, 0)).1 ∧ Frame noReg [.ingress] s t) ∧
    ((s.gate k).waiting = none → (s.gate k).running = none → exec (.gateListEntry g) s = .next s)) ∧
  (∀ (r : Fin 128) (tag : Fin 512) (s : State) (c : Cmd) (port table first n : Nat) (d : List Byte), Ready s r tag c →
    c.signal = false → c.par = .qciLoad port table first n d →
    (table = 0 → ∃ t, exec (.qciLoad r tag) s = .next t ∧ Ended t r tag 0 0 ∧ (∀ i, i < n →
      tabGet 0#128 t.filters (32 * port + first + i) = BitVec.ofNat 128 (leField d (16 * i) 16)) ∧ Frame noReg [.cmds, .ingress] s t) ∧
    (table = 2 → ∃ t, exec (.qciLoad r tag) s = .next t ∧ Ended t r tag 0 0 ∧ (∀ i, i < n →
      tabGet 0#128 t.meters (32 * port + first + i) = BitVec.ofNat 128 (leField d (16 * i) 16)) ∧ Frame noReg [.cmds, .ingress] s t) ∧
    (table = 1 ∨ table = 3 → let k := 17 * port + (if table = 3 then 16 else first)
      (sdiff (BitVec.ofNat 32 (leField d 0 4)) s.now ≤ 0 → ∃ t, exec (.qciLoad r tag) s = .next t ∧ Ended t r tag 0x0108 0 ∧
        Frame noReg [.cmds] s t) ∧
      (0 < sdiff (BitVec.ofNat 32 (leField d 0 4)) s.now → (s.gate k).waiting ≠ none → ∃ t, exec (.qciLoad r tag) s = .next t ∧
        Ended t r tag 0x0602 0 ∧ Frame noReg [.cmds] s t) ∧
      (0 < sdiff (BitVec.ofNat 32 (leField d 0 4)) s.now → (s.gate k).waiting = none → ∃ t, exec (.qciLoad r tag) s = .next t ∧
        Ended t r tag 0 0 ∧ (t.gate k).waiting = some (gateList n d) ∧ (t.gate k).running = (s.gate k).running ∧
        Frame noReg [.cmds, .ingress] s t))) ∧
  (∀ (r : Fin 128) (tag : Fin 512) (s : State) (c : Cmd) (q : Nat) (clear : Bool) (src : BufDesc), Ready s r tag c →
    c.signal = false → Flowing s (r.val / 16) → c.par = .dqSafeLoad q clear src →
    (s.fget F.ACT_DQ_CFG_PART q ≠ c.part → ∃ t, exec (.dqSafeLoad r tag) s = .next t ∧ Ended t r tag 0x0400 0 ∧
      Frame noReg [.cmds] s t) ∧
    (s.fget F.ACT_DQ_CFG_PART q = c.part → clear = true → ∃ t, exec (.dqSafeLoad r tag) s = .next t ∧ Ended t r tag 0 0 ∧
      (t.queue q).safe = none ∧ t.flag F.ACT_DQ_STAT_SAFE_LOADED q = false ∧
      Frame (oneReg .ACT_DQ_STAT q) [.cmds, .egress] s t) ∧
    (s.fget F.ACT_DQ_CFG_PART q = c.part → clear = false → s.dqSafeCheck c = 0 → BufHere s src true →
      let bs := bufBytes s c.part src
      (∀ f, driveFrame bs src.count = some f → f.length + 4 = src.count → ∃ t, exec (.dqSafeLoad r tag) s = .next t ∧
        Ended t r tag 0 0 ∧ (t.queue q).safe = some f ∧ t.flag F.ACT_DQ_STAT_SAFE_LOADED q = true ∧
        Frame (oneReg .ACT_DQ_STAT q) [.cmds, .egress] s t) ∧
      ((∀ f, driveFrame bs src.count = some f → f.length + 4 ≠ src.count) → ∃ t, exec (.dqSafeLoad r tag) s = .next t ∧
        Ended t r tag 0x0108 0 ∧ Frame noReg [.cmds] s t))) ∧
  (∀ s : State, (s.power.hubs = false ∨ s.flag F.ACT_ADV_STAT_SEALED 0 = false → exec .pacerTick s = .next s) ∧
    (s.power.hubs = true → s.flag F.ACT_ADV_STAT_SEALED 0 = true →
      let due := fun k => s.flag F.ACT_ADV_WL0_EN k = true ∧ (s.flag F.ACT_ADV_TSTAT_FRESH k = true ∨ (s.advTag k).due = true ∨
        s.fget F.ACT_ADV_WL0_REFRESH k ≤ (s.advTag k).ms + 1)
      ((∀ k, k < 64 → ¬ due k) → ∃ t, exec .pacerTick s = .next t ∧ t.outs = s.outs ∧
        (∀ k, k < 64 → s.flag F.ACT_ADV_WL0_EN k = true → (t.advTag k).ms = (s.advTag k).ms + 1) ∧ Frame noReg [.egress] s t) ∧
      (∀ j, j < 64 → due ((s.lastTag + 1 + j) % 64) → (∀ i, i < j → ¬ due ((s.lastTag + 1 + i) % 64)) →
        s.flag F.ACT_ADV_STAT_LINK 0 = true → let k := (s.lastTag + 1 + j) % 64
        let seq := (s.fget F.ACT_ADV_TSTAT_SEQ k + 1) % 2 ^ 16
        let f := s.advFrame k (s.advContent k).1 seq (s.advContent k).2
        ∃ t, exec .pacerTick s = .next t ∧ t.outs = s.outs ++ [.advisory (f ++ leBytes 4 (fcs f).toNat)] ∧ t.lastTag = k ∧
          t.flag F.ACT_ADV_TSTAT_FRESH k = false ∧ t.fget F.ACT_ADV_TSTAT_SEQ k = seq ∧
          t.fget F.ACT_ADV_CNT_SENT 0 = (s.fget F.ACT_ADV_CNT_SENT 0 + 1) % 2 ^ 32 ∧ (t.advTag k).ms = 0 ∧
          (t.advTag k).last = (if (s.advContent k).1 = 1 then some (s.advContent k).2 else (s.advTag k).last) ∧
          Frame (fun q i => oneReg .ACT_ADV_TSTAT k q i ∨ oneReg .ACT_ADV_CNT 0 q i) [.egress] s t) ∧
      (∀ j, j < 64 → due ((s.lastTag + 1 + j) % 64) → (∀ i, i < j → ¬ due ((s.lastTag + 1 + i) % 64)) →
        s.flag F.ACT_ADV_STAT_LINK 0 = false → let k := (s.lastTag + 1 + j) % 64
        ∃ t, exec .pacerTick s = .next t ∧ t.outs = s.outs ∧ t.lastTag = k ∧ t.flag F.ACT_ADV_TSTAT_FRESH k = false ∧
          (t.advTag k).staged = none ∧ (t.advTag k).last = (s.advTag k).last ∧ (t.advTag k).ms = 0 ∧
          t.fget F.ACT_ADV_CNT_DISCARDED 0 = (s.fget F.ACT_ADV_CNT_DISCARDED 0 + 1) % 2 ^ 32 ∧
          Frame (fun q i => oneReg .ACT_ADV_TSTAT k q i ∨ oneReg .ACT_ADV_CNT 0 q i) [.egress] s t))) ∧
  (∀ (up : Bool) (s : State), ∃ t, exec (.advisoryLink up) s = .next t ∧ t.flag F.ACT_ADV_STAT_LINK 0 = up ∧
    OnlyBits s t .ACT_ADV_STAT 0 [F.ACT_ADV_STAT_LINK] ∧ Frame (oneReg .ACT_ADV_STAT 0) [] s t)

/-- Host read and write errors, function-level reset, PERST#, configuration requests and PCIe retraining
(05_trehar_commands.md R153, 05_trehar_commands.md R156, 09_partitions_tollgates_serving.md R239,
09_partitions_tollgates_serving.md R252, 12_digests_trace_counters.md R318, 13_keystone_security.md R329,
16_first_second.md R395, 16_first_second.md R400) -/
def Obligations.HostSideResets : Prop :=
  (∀ (err : HostErr) (s : State), let cause := match err with | .unsupported => 1 | .abort => 2 | .poisoned => 3
    (∀ r : Fin 128, (s.fetchOpen r = true → ∃ t, exec (.hostReadError (.fetch r) err) s = .next t ∧ t.ringState r = 3 ∧
        t.fget F.TRH_RING_STAT_HALT_CAUSE r = 0x0504 ∧ Newest t 9 cause ∧ Frame (oneReg .TRH_RING_STAT r) [] s t) ∧
      (s.fetchOpen r = false → exec (.hostReadError (.fetch r) err) s = .next s)) ∧
    (∀ (r : Fin 128) (tag : Fin 512) (c : Cmd) (d : BufDesc), s.findCmd r tag = some c → s.resetBusy c.part = false →
      s.switching = false → c.signal = false → c.started = true ∨ s.fenceMet c = true → hostSrc c.par = some d → d.kind = 0 →
      ∃ t, exec (.hostReadError (.cmd r tag) err) s = .next t ∧ Ended t r tag 0x0504 0 ∧ Newest t 9 cause ∧
        ((∀ b, c.par ≠ .dmaCopy d b) → Frame noReg [.cmds, .hashes] s t) ∧
        ∀ b, c.par = .dmaCopy d b → Frame noReg [.cmds, Safety.bufPart b] s t) ∧
    (s.flag F.KS_FW_STAT_BUSY 0 = true → s.fget F.KS_FW_STAT_LAST_CMD 0 = 1 → ∃ t, exec (.hostReadError .stage err) s = .next t ∧
      t.flag F.KS_FW_STAT_BUSY 0 = false ∧ t.fget F.KS_FW_STAT_ERR 0 = 6 ∧ Newest t 9 cause ∧ Frame (oneReg .KS_FW_STAT 0) [] s t) ∧
    (s.flag F.KS_FW_STAT_BUSY 0 = false → exec (.hostReadError .stage err) s = .next s) ∧
    (let st := s.fget F.TRC_STAT_STATE 0
     (s.flag F.TRC_STAT_MODE 0 = true → st = 2 ∨ st = 3 → ∃ t, exec (.hostWriteError err) s = .next t ∧
        t.fget F.TRC_STAT_STATE 0 = 4 ∧ t.trace.buf = s.trace.buf ∧ Newest t 9 cause ∧ Frame noReg [] s t) ∧
     (¬ (s.flag F.TRC_STAT_MODE 0 = true ∧ (st = 2 ∨ st = 3)) → exec (.hostWriteError err) s = .next s))) ∧
  (∀ (p : Fin 8) (s : State), ∃ t, exec (.functionLevelReset p) s = .next t ∧
    (∀ c ∈ t.cmds, ¬ (c.ring / 16 = p.val ∧ s.flag F.TRH_RING_CFG_OWNER c.ring = true)) ∧
    (∀ r : Nat, r < 128 → r / 16 = p.val → s.flag F.TRH_RING_CFG_OWNER r = true → t.ringState r = 0 ∧ t.rget .TRH_RING_PTR r = 0 ∧
      t.flag F.TRH_RING_CFG_OWNER r = true) ∧
    (∀ r : Nat, ¬ (r < 128 ∧ r / 16 = p.val ∧ s.flag F.TRH_RING_CFG_OWNER r = true) → t.ringState r = s.ringState r ∧
      t.rget .TRH_RING_CFG r = s.rget .TRH_RING_CFG r) ∧
    (s.tdiLocked p = true → t.fget F.KS_PART_ATT_TDI p = 3) ∧
    (s.flag F.TRC_STAT_MODE 0 = true → s.fget F.TRC_STAT_OWNER 0 = p.val + 1 → s.trace.part = p →
      t.fget F.TRC_STAT_STATE 0 ≠ 2 ∧ t.fget F.TRC_STAT_STATE 0 ≠ 3) ∧
    (NoWork s (fun r _ => r / 16 == p.val && s.flag F.TRH_RING_CFG_OWNER r) → t.hbm = s.hbm ∧ t.deck = s.deck ∧
      (s.flag F.TRC_STAT_MODE 0 = false → Same s t .host))) ∧
  (∀ s : State, (s.power.perst = true → exec .perstAssert s = .next s ∧ exec .configRequest s = .next s ∧
      ∃ t, exec .perstDeassert s = .next t ∧ t.power.perst = false ∧ t.power.since = s.ticks + 5000000 ∧ Frame noReg [.power] s t) ∧
    (s.power.perst = false → exec .perstDeassert s = .next s ∧
      (∃ t, exec .perstAssert s = .next t ∧ t.power.perst = true ∧ t.cmds = [] ∧ t.flag F.FLT_EVR_CFG_EN 0 = false ∧ t.ide = 0 ∧
        (∀ r, r < 128 → t.ringState r = 0 ∧ t.flag F.TRH_RING_CFG_OWNER r = s.flag F.TRH_RING_CFG_OWNER r) ∧
        (∀ p, p < 8 → t.fget F.KS_PART_ATT_TDI p = 3) ∧
        (s.flag F.TRC_STAT_MODE 0 = true → s.fget F.TRC_STAT_STATE 0 ≠ 0 → t.fget F.TRC_STAT_STATE 0 = 4) ∧
        (NoWork s (fun _ _ => true) → t.hbm = s.hbm ∧ t.deck = s.deck ∧ (s.flag F.TRC_STAT_MODE 0 = false → t.host = s.host))) ∧
      (s.power.released = false → exec .configRequest s = .next s) ∧
      (s.power.released = true → ∃ t, exec .configRequest s = .next t ∧
        t.outs = s.outs ++ [.config (s.power.hostReady && decide (s.power.since ≤ s.ticks))] ∧ Frame noReg [] s t))) ∧
  (∀ (gts width : Nat) (s : State), let lf := min 64 (64 * gts * width / 512)
    (s.power.released = true → s.power.perst = false → lf ≠ s.fget F.TG_SERVICE_LF 0 →
      ∃ t, exec (.pcieRetrain gts width) s = .next t ∧ t.fget F.TG_SERVICE_LF 0 = lf ∧
        t.fget F.TG_CAP_D 3 = 17 * 560 * s.derate * lf / (20 * 1024 * 64) % 2 ^ 16 ∧ t.fget F.TG_CAP_D 4 = t.fget F.TG_CAP_D 3 ∧
        Frame (orRegs (oneReg .TG_SERVICE 0) capacityRegs) [.egress, .commit] s t) ∧
    (s.power.released = false ∨ s.power.perst = true ∨ lf = s.fget F.TG_SERVICE_LF 0 →
      exec (.pcieRetrain gts width) s = .next s))

/-- TG_COMMIT refused, rejected, rehearsed or begun; its single step; the end of DEGRADED
(09_partitions_tollgates_serving.md R244, 09_partitions_tollgates_serving.md R246, 09_partitions_tollgates_serving.md
R247, 09_partitions_tollgates_serving.md R248, 09_partitions_tollgates_serving.md R251,
09_partitions_tollgates_serving.md R254) -/
def Obligations.CommitTakesEffect : Prop :=
  (∀ (r : Fin 128) (tag : Fin 512) (s : State) (c : Cmd) (dry : Bool) (pool : Nat) (cfgs : List PartCfg), Ready s r tag c →
    c.signal = false → c.par = .tgCommit dry pool cfgs →
    (s.commitCheck c ≠ 0 → ∃ t, exec (.tgCommit r tag) s = .next t ∧ Ended t r tag (s.commitCheck c) 0 ∧ Frame noReg [.cmds] s t) ∧
    (s.commitCheck c = 0 →
      (∀ k, k < 5 → s.admitted cfgs k = false → (∀ j, j < k → s.admitted cfgs j = true) → ∃ t, exec (.tgCommit r tag) s = .next t ∧
        Ended t r tag 0x0303 0 ∧ (dry = false → t.flag F.TG_STATUS_REJ 0 = true ∧ t.fget F.TG_STATUS_REJ_RES 0 = k) ∧
        OnlyBits s t .TG_STATUS 0 [F.TG_STATUS_REJ, F.TG_STATUS_REJ_RES] ∧
        Frame (fun q k => dry = false ∧ oneReg .TG_STATUS 0 q k) [.cmds] s t) ∧
      ((∀ k, k < 5 → s.admitted cfgs k = true) →
        (dry = true → ∃ t, exec (.tgCommit r tag) s = .next t ∧ Ended t r tag 0 0 ∧ Frame noReg [.cmds] s t) ∧
        (dry = false → ∃ t, exec (.tgCommit r tag) s = .next t ∧ Waits t r tag ∧
          t.commit = some { ring := r, tag := tag, pool := pool, cfgs := cfgs } ∧ Frame noReg [.cmds, .commit] s t)))) ∧
  (∀ s : State, s.commit = none → exec .commitScrubEnd s = .next s) ∧
  (∀ (s : State) (c : Commit), s.commit = some c → (∀ p, p < 8 → Flowing s p) → (c.cfgs.map (·.part)).Nodup →
    (∀ x ∈ c.cfgs, x.cfg.length ≤ 5 ∧ x.runs.length ≤ 4) → ∃ t, exec .commitScrubEnd s = .next t ∧ t.commit = none ∧
      t.fget F.TG_STATUS_POOL_PART 0 = c.pool % 8 ∧
      (∀ x ∈ c.cfgs, t.fget F.TG_PART_TILES x.part = x.tiles % 2 ^ 16 ∧ t.fget F.TG_PART_RANK x.part = x.rank % 16 ∧
        (∀ k v, x.cfg[k]? = some v → t.rget .TG_CFG (5 * x.part + k) = v) ∧
        (∀ k a n, x.runs[k]? = some (a, n) → t.fget F.TG_FRAMES_FIRST (4 * x.part + k) = a % 2 ^ 15 ∧
          t.fget F.TG_FRAMES_COUNT (4 * x.part + k) = n % 2 ^ 16) ∧
        (∀ f ∈ s.lostFrames x, s.frameIn f = true → Zeros t.hbm (f * 0x200000) 0x200000)) ∧
      (∀ p, p ∉ c.cfgs.map (·.part) → t.fget F.TG_PART_TILES p = s.fget F.TG_PART_TILES p) ∧
      (∀ k, k < 16 → s.tileOwner k ≠ s.newOwner c.cfgs k → s.retired k = false → Zeros t.deck (k * 0x800000) 0x800000 ∧
        ∀ g, g < 16 → t.flag F.DK_RGN_CFG_EN (16 * k + g) = false) ∧
      (∀ d, s.findCmd c.ring c.tag = some d → d.signal = false →
        (∀ x i q g, (s.stay x i).owner = some (.cmd q g) → ¬ (q = c.ring ∧ g = c.tag)) → Ended t c.ring c.tag 0 0)) ∧
  (∀ s : State,
    (s.flag F.TG_STATUS_DEGRADED 0 = true → (∀ k, k < 5 → s.fget F.TG_CFG_FLOOR k ≤ s.fget F.TG_EFF_E k) →
      ∃ t, exec .degradedClear s = .next t ∧ t.flag F.TG_STATUS_DEGRADED 0 = false ∧ t.flag F.ACT_ADV_STAT_DEGRADED 0 = false ∧
        OnlyBits s t .TG_STATUS 0 [F.TG_STATUS_DEGRADED] ∧ OnlyBits s t .ACT_ADV_STAT 0 [F.ACT_ADV_STAT_DEGRADED] ∧
        Frame (theRegs [.TG_STATUS, .ACT_ADV_STAT] 0) [] s t) ∧
    (s.flag F.TG_STATUS_DEGRADED 0 = false → exec .degradedClear s = .next s) ∧
    (∀ k, k < 5 → s.fget F.TG_EFF_E k < s.fget F.TG_CFG_FLOOR k → exec .degradedClear s = .next s))

/-- PART_RESET and TENANT_SWITCH: work stopped, drained, scrubbed; a write of a Vault share (05_trehar_commands.md
R152, 09_partitions_tollgates_serving.md R257, 13_keystone_security.md R341, 13_keystone_security.md R342,
13_keystone_security.md R343, 14_caisson_sealed_arithmetic.md R359) -/
def Obligations.PartitionsResetAndSwitch : Prop :=
  (∀ (r : Fin 128) (tag : Fin 512) (s : State) (c : Cmd) (p : Nat), Ready s r tag c → c.signal = false → p < 8 →
    (c.par = .partReset p → s.tdiLocked p = true → ∃ t, exec (.partReset r tag) s = .next t ∧ Ended t r tag 0x0401 0 ∧
      Frame noReg [.cmds] s t) ∧
    (c.par = .partReset p → s.tdiLocked p = false → s.resetBusy p = true → ∃ t, exec (.partReset r tag) s = .next t ∧
      Ended t r tag 0x0602 0 ∧ Frame noReg [.cmds] s t) ∧
    (∀ i : Instr, (c.par = .partReset p ∧ s.tdiLocked p = false ∧ i = .partReset r tag) ∨
        (c.par = .tenantSwitch p none ∧ s.scrub p = none ∧ Flowing s p ∧ i = .tenantSwitch r tag) →
      s.resetBusy p = false → c.part ≠ p → r.val / 16 ≠ p → (∀ x ∈ s.runs, x.cmd ≠ some (r.val, tag.val)) →
      ∃ t x, exec i s = .next t ∧ Waits t r tag ∧ t.resetBusy p = true ∧ t.fget F.KS_PART_ATT_STATE p = 2 ∧ t.scrub p = some x ∧
        x.cmd = some (r.val, tag.val) ∧ x.drained = false ∧ x.was = s.fget F.KS_PART_ATT_STATE p ∧
        (∀ y ∈ t.cmds, y.part = p → y.done = some (0x0601, 0)) ∧
        (∀ k, k < 256 → s.fget F.BR_AL_CFG_PART k = p → t.flag F.BR_AL_STAT_ARMED k = false) ∧
        (∀ n, n < 128 → s.fget F.ING_D_CFG_PART n = p → t.fget F.ING_D_CTRL_STATE n = 0) ∧
        (NoWork s (fun q _ => q / 16 == p) → (∀ y ∈ s.runs, y.part ≠ p) →
          (∀ w, w < 32 → s.fget F.BR_WIN_OWN_PART w = p → s.flag F.BR_WIN_STAT_ARMED w = false) →
          (∀ n, n < 128 → s.fget F.ING_D_CFG_PART n = p → ∀ u ∈ (s.desc n).backlog, u.isWindow = false) →
          t.hbm = s.hbm ∧ t.deck = s.deck)) ∧
    (c.par = .tenantSwitch p none → s.scrub p = none → Flowing s p → s.resetBusy p = false →
      ∃ t, exec (.tenantSwitch r tag) s = .next t ∧ t.fget F.KS_PART_ATT_TDI p = 3 ∧
        (∀ k x, k < 8 → s.hashCtx k = some x → x.part = p → t.hashCtx k = none) ∧
        (∀ k, k < 4 → s.fget F.CS_CTX_STATE k ≠ 0 → s.fget F.CS_CTX_PART k = p → t.fget F.CS_CTX_STATE k = 0) ∧
        (∀ k, k < 4 → s.fget F.EXC_CH_CFG_PART k = p → s.fget F.EXC_CH_STAT_STATE k ≠ 4 → t.fget F.EXC_CH_STAT_STATE k = 0)) ∧
    (c.par = .tenantSwitch p none → s.scrub p = none → Flowing s p → s.resetBusy p = true → ∃ t, exec (.tenantSwitch r tag) s = .next t ∧
      Ended t r tag 0x0602 0 ∧ Frame noReg [.cmds] s t)) ∧
  (∀ (p : Fin 8) (s : State), (s.scrub p = none → exec (.partResetDrained p) s = .next s) ∧
    ∀ x, s.scrub p = some x → (x.drained = true → exec (.partResetDrained p) s = .next s) ∧
      (x.drained = false → Flowing s p → ∃ t, exec (.partResetDrained p) s = .next t ∧ (∀ y ∈ t.cmds, y.part ≠ p) ∧
        (∀ i, i < 16 → t.ringState (16 * p + i) = 3 ∧ t.fget F.TRH_RING_STAT_HALT_CAUSE (16 * p + i) = 0x0601) ∧
        (∀ k n, k < 16 → s.owns p k = true → n < 32768 → t.isFull k n = false) ∧ t.hbm = s.hbm ∧
        (x.tenant = false → t.resetBusy p = false ∧ t.fget F.KS_PART_ATT_STATE p = x.was % 4 ∧ t.scrub p = none ∧
          ∀ q g c, x.cmd = some (q, g) → s.findCmd q g = some c → c.part ≠ p → c.signal = false → Ended t q g 0 0) ∧
        (x.tenant = true → ∃ y, t.scrub p = some y ∧ y.drained = true))) ∧
  (∀ (p : Fin 8) (us : W32) (s : State), (s.scrub p = none → exec (.scrubEnd p us) s = .next s) ∧
    ∀ x, s.scrub p = some x → (¬ (x.tenant = true ∧ x.drained = true) → exec (.scrubEnd p us) s = .next s) ∧
      (x.tenant = true → x.drained = true → Flowing s p → let fl := leField (x.policy.getD []) 4 4
        ∃ t, exec (.scrubEnd p us) s = .next t ∧ t.resetBusy p = false ∧ t.fget F.KS_PART_ATT_STATE p = 1 ∧ t.scrub p = none ∧
          t.fget F.KS_PART_ATT_SCRUB_GEN p = (s.fget F.KS_PART_ATT_SCRUB_GEN p + 1) % 2 ^ 16 ∧
          t.fget F.KS_PART_ATT_SCRUB_US p = us.toNat ∧ t.flag F.KS_PART_ATT_CONFIDENTIAL p = natBit fl 0 ∧
          t.flag F.KS_PART_ATT_CONSENT p = natBit fl 1 ∧ t.flag F.KS_PART_ATT_SELF_TRACE p = natBit fl 2 ∧
          t.flag F.KS_PART_ATT_LIVE_UPDATE_OK p = natBit fl 3 ∧
          (∀ f, f < 32768 → s.granted p f = true → s.frameIn f = true → Zeros t.hbm (f * 0x200000) 0x200000) ∧
          (∀ k, k < 16 → s.owns p k = true → Zeros t.deck (k * 0x800000) 0x800000) ∧
          Zeros t.vault (s.fget F.CS_PART_VAULT_BASE p * 0x100000) (s.fget F.CS_PART_VAULT_SIZE p * 0x100000) ∧
          (∀ i, i < 16 → t.ringState (16 * p + i) = 0 ∧ t.flag F.TRH_RING_CFG_OWNER (16 * p + i) = false) ∧
          (∀ n, n < 8192 → s.fget F.SEM_CFG_PART n = p → t.flag F.SEM_CFG_EN n = false ∧ t.semWaiters n = []) ∧
          (∀ q g c, x.cmd = some (q, g) → s.findCmd q g = some c → c.signal = false →
            (∀ k i, (s.stay k i).owner ≠ some (.cmd q g)) → Ended t q g 0 us.toNat))) ∧
  (∀ (p : Fin 8) (v : W32) (s : State), Live s → let base := v.toNat % 2 ^ 7; let size := v.toNat / 2 ^ 8 % 2 ^ 7
    let ob := s.fget F.CS_PART_VAULT_BASE p; let os := s.fget F.CS_PART_VAULT_SIZE p
    let meets := ∃ k, k < 8 ∧ k ≠ p.val ∧ size ≠ 0 ∧ s.fget F.CS_PART_VAULT_SIZE k ≠ 0 ∧
      base < s.fget F.CS_PART_VAULT_BASE k + s.fget F.CS_PART_VAULT_SIZE k ∧ s.fget F.CS_PART_VAULT_BASE k < base + size
    let held := ∃ k, k < 4 ∧ s.fget F.CS_CTX_STATE k ≠ 0 ∧ s.fget F.CS_CTX_PART k = p
    (s.tdiLocked p = true → ∃ t, exec (.vaultShareWrite p v) s = .next t ∧ Recorded s t 2) ∧
    (s.tdiLocked p = false → 96 < base + size ∨ meets ∨ held ∨ s.resetBusy p = true →
      ∃ t, exec (.vaultShareWrite p v) s = .next t ∧ Recorded s t 3) ∧
    (s.tdiLocked p = false → ¬ (96 < base + size ∨ meets ∨ held ∨ s.resetBusy p = true) →
      ∃ t, exec (.vaultShareWrite p v) s = .next t ∧ t.fget F.CS_PART_VAULT_BASE p = base ∧ t.fget F.CS_PART_VAULT_SIZE p = size ∧
        (ob ≠ base ∨ os ≠ size → Zeros t.vault (ob * 0x100000) (os * 0x100000) ∧ Zeros t.vault (base * 0x100000) (size * 0x100000)) ∧
        (ob = base → os = size → t.vault = s.vault) ∧
        (∀ a, ¬ (ob * 0x100000 ≤ a ∧ a < (ob + os) * 0x100000) → ¬ (base * 0x100000 ≤ a ∧ a < (base + size) * 0x100000) →
          memGet t.vault a = memGet s.vault a) ∧
        t.csCtx = s.csCtx ∧ Frame (oneReg .CS_PART_VAULT p) [.caisson] s t))

/-- Corrected and uncorrectable memory errors, retired pseudo-channels, and the event ring enabled
(10_faults_retry_and_retirement.md R264, 10_faults_retry_and_retirement.md R282, 10_faults_retry_and_retirement.md
R284, 14_caisson_sealed_arithmetic.md R373) -/
def Obligations.MemoryErrorsAndEventRing : Prop :=
  (∀ (pc : Fin 64) (s : State), ∃ t, exec (.hbmCorrectedError pc) s = .next t ∧
    tabGet 0 t.ceNow pc = tabGet 0 s.ceNow pc + 1 ∧ (∀ k, k ≠ pc.val → tabGet 0 t.ceNow k = tabGet 0 s.ceNow k) ∧
    Frame noReg [.ceNow] s t) ∧
  (∀ s : State, ∃ t, exec .hbmCeIntervalEnd s = .next t ∧ t.ceNow = [] ∧
    (∀ k, k < 64 → t.fget F.FLT_PC_CE_LAST k = min (tabGet 0 s.ceNow k) 0xFFFF ∧
      t.flag F.FLT_PC_RETIRED k = (s.flag F.FLT_PC_RETIRED k || decide (64 < tabGet 0 s.ceNow k))) ∧
    ((∀ k, k < 64 → tabGet 0 s.ceNow k ≤ 64 ∨ s.flag F.FLT_PC_RETIRED k = true) →
      Frame (fun q k => q = .FLT_PC ∧ k < 64) [.ceNow] s t)) ∧
  (∀ (a : BitVec 36) (s : State), let f := a.toNat / 0x200000; let pc := f % 64
    (s.flag F.FLT_PC_RETIRED pc = true → exec (.hbmUncorrectableError a) s = .next s) ∧
    (s.flag F.FLT_PC_RETIRED pc = false → s.flag F.FLT_PC_UE_SEEN pc = false → ∃ t, exec (.hbmUncorrectableError a) s = .next t ∧
      t.flag F.FLT_PC_UE_SEEN pc = true ∧ f ∈ t.poisoned ∧ (∀ g, g ≠ f → (g ∈ t.poisoned ↔ g ∈ s.poisoned)) ∧ Newest t 3 2 ∧
      OnlyBits s t .FLT_PC pc [F.FLT_PC_UE_SEEN] ∧ Frame (oneReg .FLT_PC pc) [.poison] s t) ∧
    (s.flag F.FLT_PC_RETIRED pc = false → s.flag F.FLT_PC_UE_SEEN pc = true → ∃ t, exec (.hbmUncorrectableError a) s = .next t ∧
      t.flag F.FLT_PC_RETIRED pc = true ∧ (∀ x, memGet t.hbm x = if x / 0x200000 % 64 = pc then 0#8 else memGet s.hbm x) ∧
      (∀ g, g ∈ t.poisoned ↔ g ∈ s.poisoned ∧ g % 64 ≠ pc) ∧ Newest t 3 3 ∧
      Frame (orRegs (oneReg .FLT_PC pc) capacityRegs) [.hbm, .poison, .egress, .commit] s t)) ∧
  (∀ (c : Fin 4) (a : BitVec 27) (s : State), ((s.ctx c).jobs = [] → exec (.vaultUncorrectable c a) s = .next s) ∧
    ∀ j js, (s.ctx c).jobs = j :: js → (j.p.op = 0 → exec (.vaultUncorrectable c a) s = .next s) ∧
      (j.p.op ≠ 0 → (∀ d, s.findCmd j.ring j.tag = some d → d.signal = false) →
        let regs : Reg → Nat → Prop := fun q k => (q = .CS_CTX ∧ k < 4) ∨ (q = .CS_STAT ∧ k = 0)
        ∃ t, exec (.vaultUncorrectable c a) s = .next t ∧ a.toNat / 4096 ∈ t.vaultBad ∧ (t.ctx c).jobs = js ∧
        Newest t 0xC 1 ∧ (∀ d, s.findCmd j.ring j.tag = some d → Ended t j.ring j.tag 0x0500 0) ∧
        (j.p.op ≠ 1 → SameOutside s.vault t.vault (s.jobDest c j.p).1 (8 * (s.jobDest c j.p).2) ∧ Frame regs [.cmds, .caisson] s t) ∧
        (j.p.op = 1 → t.vault = s.vault ∧ Frame regs [.cmds, .caisson, Safety.bufPart j.p.hbm] s t))) ∧
  (∀ (v : W32) (s : State), Live s → s.fallback = none → let log := v.toNat / 2 ^ 24 % 32
    let en := v.getLsbD 31; let was := s.flag F.FLT_EVR_CFG_EN 0; let old := s.fget F.FLT_EVR_CFG_LOG2 0
    let late := was = true ∧ log ≠ old
    ∃ t, exec (.eventRingEnable v) s = .next t ∧ (late → Newest t 1 3) ∧
      t.fget F.FLT_EVR_CFG_COAL_N 0 = v.toNat / 2 ^ 16 % 2 ^ 8 ∧ t.fget F.FLT_EVR_CFG_COAL_US 0 = v.toNat % 2 ^ 16 ∧
      (late → t.fget F.FLT_EVR_CFG_LOG2 0 = old) ∧ (¬ late → t.fget F.FLT_EVR_CFG_LOG2 0 = log) ∧
      (let size := t.fget F.FLT_EVR_CFG_LOG2 0
       (en = false → t.flag F.FLT_EVR_CFG_EN 0 = false) ∧
       (en = true → 4 ≤ size → size ≤ 16 → t.flag F.FLT_EVR_CFG_EN 0 = true) ∧
       (en = true → 4 ≤ size → size ≤ 16 → ¬ late → s.evLost = 0 → t.rget .FLT_EVR_PTR 0 = 0 ∧ t.evPhase = true) ∧
       (en = true → size < 4 ∨ 16 < size → t.flag F.FLT_EVR_CFG_EN 0 = was)) ∧
      Frame (oneReg .FLT_EVR_CFG 0) [] s t)

/-- Link states from signal to retirement, grants, inbound requests, replays and retired masks (11_causeway_pooling.md
R287, 11_causeway_pooling.md R288, 11_causeway_pooling.md R289, 11_causeway_pooling.md R290, 11_causeway_pooling.md
R291, 11_causeway_pooling.md R297, 11_causeway_pooling.md R298, 11_causeway_pooling.md R302) -/
def Obligations.CausewayLinksAndRequests : Prop :=
  (∀ (l : Fin 8) (s : State), let st := s.linkState l; let fails := s.fget F.CW_LINK_STAT_FAILS l
    (st = 0 → s.flag F.CW_NODE_POOL_EN 0 = true → s.power.hubs = true → natBit s.conflicts l = false →
      ∃ t, exec (.signalDetect l) s = .next t ∧ t.linkState l = 1 ∧ OnlyBits s t .CW_LINK_STAT l [F.CW_LINK_STAT_STATE] ∧
        Frame (oneReg .CW_LINK_STAT l) [] s t) ∧
    (st ≠ 0 ∨ s.flag F.CW_NODE_POOL_EN 0 = false ∨ s.power.hubs = false ∨ natBit s.conflicts l = true →
      exec (.signalDetect l) s = .next s) ∧
    (st ≠ 1 → ∀ res, exec (.trainingEnd l res) s = .next s) ∧
    (st = 1 → ∀ (node plink : Fin 8) (mask : W64), ∃ t, exec (.trainingEnd l (.ok node plink mask)) s = .next t ∧
      t.fget F.CW_LINK_STAT_PEER_NODE l = node ∧ t.fget F.CW_LINK_STAT_PEER_LINK l = plink ∧
      (s.nodeConflict l node plink = true → t.linkState l = 0 ∧ Frame (oneReg .CW_LINK_STAT l) [.causeway] s t) ∧
      (s.nodeConflict l node plink = false → t.linkState l = (if s.linksReady then 3 else 2) ∧
        t.fget F.CW_LINK_STAT_FAILS l = 0 ∧ tabGet 0#64 t.peerMasks node = mask ∧
        Frame (orRegs (theRegs [.CW_LINK_STAT] l) (orRegs (oneReg .CW_NODE 0) capacityRegs)) [.causeway, .egress, .commit] s t)) ∧
    (st = 1 ∨ st = 4 → ∀ i : Instr, (st = 1 ∧ i = .trainingEnd l .failed) ∨ (st = 4 ∧ i = .retrainAttempt l false) →
      ∃ t, exec i s = .next t ∧
        (fails < 2 → t.linkState l = st ∧ t.fget F.CW_LINK_STAT_FAILS l = fails + 1 ∧ Newest t 5 2 ∧
          Frame (oneReg .CW_LINK_STAT l) [] s t) ∧
        (fails = 2 → t.linkState l = 5 ∧ Newest t 5 3)) ∧
    (st = 4 → ∃ t, exec (.retrainAttempt l true) s = .next t ∧ t.linkState l = 3 ∧ t.fget F.CW_LINK_STAT_FAILS l = 0 ∧
      Frame (orRegs (oneReg .CW_LINK_STAT l) (oneReg .CW_NODE 0)) [.causeway] s t) ∧
    (st ≠ 4 → ∀ ok, exec (.retrainAttempt l ok) s = .next s) ∧
    (st = 3 → let lost : State → Prop := fun t => t.linkState l = 4 ∧ Newest t 5 1 ∧ tabGet 0 t.replays l = 0 ∧
        t.fget F.CW_LINK_STAT_RETRAINS l = (s.fget F.CW_LINK_STAT_RETRAINS l + 1) % 2 ^ 16 ∧
        OnlyBits s t .CW_LINK_STAT l [F.CW_LINK_STAT_STATE, F.CW_LINK_STAT_RETRAINS]
      (∃ t, exec (.linkAlignmentLoss l) s = .next t ∧ lost t ∧ Frame (oneReg .CW_LINK_STAT l) [.causeway] s t) ∧
      ∃ t, exec (.linkCrcError l) s = .next t ∧
        t.fget F.CW_LINK_CNT_CRC_REPLAYS l = (s.fget F.CW_LINK_CNT_CRC_REPLAYS l + 1) % 2 ^ 32 ∧
        OnlyBits s t .CW_LINK_CNT l [F.CW_LINK_CNT_CRC_REPLAYS] ∧
        (tabGet 0 s.replays l < 15 → tabGet 0 t.replays l = tabGet 0 s.replays l + 1 ∧
          Frame (oneReg .CW_LINK_CNT l) [.causeway] s t) ∧
        (15 ≤ tabGet 0 s.replays l → lost t ∧ Frame (theRegs [.CW_LINK_CNT, .CW_LINK_STAT] l) [.causeway] s t)) ∧
    (st ≠ 3 → exec (.linkAlignmentLoss l) s = .next s ∧ exec (.linkCrcError l) s = .next s) ∧
    (Live s →
      (st = 5 → exec (.linkDisable l) s = .next s ∧ ∃ t, exec (.linkRestore l) s = .next t ∧ t.linkState l = 1 ∧
        t.fget F.CW_LINK_STAT_FAILS l = 0 ∧ Frame (oneReg .CW_LINK_STAT l) [.causeway] s t) ∧
      (st ≠ 5 → exec (.linkRestore l) s = .next s) ∧ (st = 0 → exec (.linkDisable l) s = .next s) ∧
      (st ≠ 0 → st ≠ 5 → ∃ t, exec (.linkDisable l) s = .next t ∧ t.linkState l = 0 ∧
        OnlyBits s t .CW_LINK_STAT l [F.CW_LINK_STAT_STATE] ∧
        Frame (orRegs (oneReg .CW_LINK_STAT l) (orRegs (oneReg .CW_NODE 0) capacityRegs)) [.causeway, .egress, .commit] s t))) ∧
  (∀ (i : Fin 64) (v : W64) (s : State), Live s → let p := s.fget F.CW_GRANT_PART i
    (s.tdiLocked p = true → ∃ t, exec (.cwGrantWrite i v) s = .next t ∧ Recorded s t 2) ∧
    (s.tdiLocked p = false → (∃ c ∈ s.cmds, c.part = p) → ∃ t, exec (.cwGrantWrite i v) s = .next t ∧ Recorded s t 3) ∧
    (s.tdiLocked p = false → (∀ c ∈ s.cmds, c.part ≠ p) → ∃ t, exec (.cwGrantWrite i v) s = .next t ∧
      t.fget F.CW_GRANT_PART i = v.toNat / 2 ^ 56 % 8 ∧ t.fget F.CW_GRANT_NODE i = v.toNat / 2 ^ 53 % 8 ∧
      t.fget F.CW_GRANT_COUNT i = v.toNat / 2 ^ 32 % 2 ^ 16 ∧ t.fget F.CW_GRANT_FIRST i = v.toNat % 2 ^ 15 ∧
      t.flag F.CW_GRANT_EN i = (v.getLsbD 63 && v.toNat / 2 ^ 53 % 8 != s.node) ∧ Frame (oneReg .CW_GRANT i) [] s t)) ∧
  (∀ (nd l : Fin 8) (s : State), Flowing s s.poolPart →
    let tells : State → PoolMsg → Prop := fun t m => t.outs = s.outs ++ [.pool nd.val m]
    (s.linkState l ≠ 3 → (∀ a n, exec (.inboundRequest (.read nd l a n)) s = .next s) ∧
      (∀ a d, exec (.inboundRequest (.write nd l a d)) s = .next s) ∧
      (∀ dest n rsp, exec (.inboundRequest (.transit nd l dest n rsp)) s = .next s)) ∧
    (s.linkState l = 3 →
      (∀ a n, ∃ t, exec (.inboundRequest (.read nd l a n)) s = .next t ∧
        (s.exported a.toNat n = false → tells t .refused) ∧
        (s.exported a.toNat n = true → (∀ f ∈ framesOf a.toNat n, f ∉ s.poisoned) → tells t (.data (memRead s.hbm a.toNat n)) ∧
          t.fget F.CW_LINK_CNT_BLOCKS l = (s.fget F.CW_LINK_CNT_BLOCKS l + (n + 255) / 256) % 2 ^ F.CW_LINK_CNT_BLOCKS.w) ∧
        (s.exported a.toNat n = true → (∃ f ∈ framesOf a.toNat n, f ∈ s.poisoned) → tells t .poisoned ∧ Newest t 3 2) ∧
        Frame (oneReg .CW_LINK_CNT l) [.causeway] s t) ∧
      (∀ a d, ∃ t, exec (.inboundRequest (.write nd l a d)) s = .next t ∧
        tells t (if s.exported a.toNat d.length then .done else .refused) ∧
        t.hbm = (if s.exported a.toNat d.length then memWrite s.hbm a.toNat d else s.hbm) ∧ Frame noReg [.hbm, .causeway] s t) ∧
      (∀ (seq : W64) (fmt : BitVec 4) (ring : Bool) (a : BitVec 36) (d : List Byte),
        let i := Instr.inboundRequest (.addHbm nd l seq fmt ring a d)
        (s.wasApplied nd seq = true → ∃ t, exec i s = .next t ∧ tells t .done ∧ Frame noReg [.causeway] s t) ∧
        (s.wasApplied nd seq = false → s.exported a.toNat d.length = false →
          ∃ t, exec i s = .next t ∧ tells t .refused ∧ t.applied = s.applied ∧ Frame noReg [.causeway] s t) ∧
        (s.wasApplied nd seq = false → s.exported a.toNat d.length = true →
          (∀ f ∈ framesOf a.toNat d.length, f ∉ s.poisoned) →
          ∃ t, exec i s = .next t ∧ tells t .done ∧ t.wasApplied nd seq = true ∧
            (let b := elemBits ring fmt.toNat
             t.hbm = memWrite s.hbm a.toNat (addPacked b fmt.toNat (memRead s.hbm a.toNat d.length) (contributions b d))) ∧
            Frame noReg [.hbm, .causeway] s t)) ∧
      (∀ (seq : W64) (fmt : BitVec 4) (ring : Bool) (t : Fin 16) (slot : Fin 32768) (d : List Byte), d.length ≤ 256 →
        let i := Instr.inboundRequest (.addDeck nd l seq fmt ring t slot d)
        (s.retired t = true ∨ s.fused t = false → ∃ u, exec i s = .next u ∧ tells u .refused ∧ Frame noReg [.causeway] s u) ∧
        (s.retired t = false → s.fused t = true → s.wasApplied nd seq = true →
          ∃ u, exec i s = .next u ∧ tells u .done ∧ Frame noReg [.causeway] s u) ∧
        (s.retired t = false → s.fused t = true → s.wasApplied nd seq = false → s.isFull t slot = false →
          ∃ u, exec i s = .next u ∧ tells u .done ∧ u.wasApplied nd seq = true ∧
            (let b := elemBits ring fmt.toNat
             u.deck = (s.deckWrite t slot 0 (addPacked b fmt.toNat (s.deckRead t slot 0 d.length) (contributions b d))).deck) ∧
            Frame noReg [.deck, .deckTags, .causeway] s u)))) ∧
  (∀ (nd : Fin 8) (m : W64) (s : State), (natBit (s.fget F.CW_NODE_MEMBERS 0) nd = true → nd.val ≠ s.node →
      ∃ t, exec (.retiredMaskUpdate nd m) s = .next t ∧ tabGet 0#64 t.peerMasks nd = m ∧
        (∀ k, k ≠ nd.val → tabGet 0#64 t.peerMasks k = tabGet 0#64 s.peerMasks k) ∧ Frame noReg [.causeway] s t) ∧
    (natBit (s.fget F.CW_NODE_MEMBERS 0) nd = false ∨ nd.val = s.node → exec (.retiredMaskUpdate nd m) s = .next s))

/-- Digest reads; the trace configured, read out, released, stopped, flushed, and its LOST records
(12_digests_trace_counters.md R310, 12_digests_trace_counters.md R313, 12_digests_trace_counters.md R315,
12_digests_trace_counters.md R317, 12_digests_trace_counters.md R318) -/
def Obligations.TraceRunsAndReads : Prop :=
  (∀ (r : Fin 128) (tag : Fin 512) (s : State) (c : Cmd), Ready s r tag c → c.signal = false →
    (∀ (a n : Nat) (d : BufDesc), c.par = .dgRead a n d → Flowing s (r.val / 16) → c.took = none → 32 * n ≤ d.count →
      let ds := s.digestsHeld c.part a n
      let old := (List.range n).any (fun k => overwritten (s.fget F.DG_PART_NEXT c.part) ((a + k) % 2 ^ 32))
      (s.dgCheck c ≠ 0 → ∃ t, exec (.dgRead r tag) s = .next t ∧ Ended t r tag (s.dgCheck c) 0 ∧ Frame noReg [.cmds] s t) ∧
      (s.ringFn r = 0 → s.confid c.part = true → s.dgCheck c = 0x0401) ∧
      (s.dgCheck c = 0 → BufHere s d false → ∃ t, exec (.dgRead r tag) s = .next t ∧
        Ended t r tag (if old then 1 else 0) ds.length ∧
        bufMem t d = memWrite (bufMem s d) (bufAt s c.part d) (ds.map digestBytes).flatten ∧
        Frame noReg [.cmds, Safety.bufPart d] s t)) ∧
    (∀ p : TrcParams, c.par = .trcCfg p →
      (∀ i : Instr, (p.op = 0 ∧ i = .traceConfigure r tag) ∨ (p.op = 1 ∧ i = .traceReadout r tag) ∨
          (p.op = 2 ∧ i = .traceRelease r tag) → (p.op = 1 → Flowing s p.charge) → s.trcCheck c ≠ 0 →
        ∃ t, exec i s = .next t ∧ Ended t r tag (s.trcCheck c) 0 ∧ Frame noReg [.cmds] s t) ∧
      (s.ringFn r = 0 → (p.op = 2 → s.trcCheck c = 0) ∧
        (p.op = 0 → p.mode = 0 → s.trcCheck c = if s.fget F.TRC_STAT_STATE 0 = 0 then 0 else 0x0602)) ∧
      (p.op = 0 → s.trcCheck c = 0 → ∃ t, exec (.traceConfigure r tag) s = .next t ∧ Ended t r tag 0 0 ∧
        t.fget F.TRC_STAT_STATE 0 = 1 ∧ t.fget F.TRC_STAT_OWNER 0 = s.ringFn r ∧ t.fget F.TRC_STAT_MODE 0 = p.mode % 2 ∧
        t.fget F.TRC_STAT_WRAPPED 0 = 0 ∧ t.fget F.TRC_CNT_WRITTEN 0 = 0 ∧ t.rget .TRC_SRC 0 = p.srcEn ∧
        t.rget .TRC_TRIG 0 = p.trig ∧ t.trace = { charge := p.charge, part := c.part, stream := p.buf } ∧
        Frame (theRegs [.TRC_SRC, .TRC_TRIG] 0) [.cmds] s t) ∧
      (p.op = 1 → s.trcCheck c = 0 → Flowing s p.charge → p.buf.kind ≤ 1 → BufHere s p.buf false →
        let rs := (s.traceHeld p.first p.nrec).take (p.buf.count / 16)
        ∃ t, exec (.traceReadout r tag) s = .next t ∧ Ended t r tag 0 rs.length ∧ t.trace = s.trace ∧
          bufMem t p.buf = memWrite (bufMem s p.buf) (bufAt s c.part p.buf) (rs.map traceBytes).flatten ∧
          Frame noReg [.cmds, Safety.bufPart p.buf] s t) ∧
      (p.op = 2 → s.trcCheck c = 0 → ∃ t, exec (.traceRelease r tag) s = .next t ∧ Ended t r tag 0 0 ∧
        t.fget F.TRC_STAT_STATE 0 = 0 ∧ t.trace = {} ∧ Frame noReg [.cmds] s t))) ∧
  (∀ s : State, Flowing s s.trace.charge → let st := s.fget F.TRC_STAT_STATE 0; let stream := s.flag F.TRC_STAT_MODE 0
    let written : State → Prop := fun t => t.trace.buf = [] ∧ t.trace.written = s.trace.written + s.trace.buf.length ∧
      memNat t.host (s.streamAddr 0 % 2 ^ 64) 8 = t.trace.written % 2 ^ 64
    (st = 3 → s.trace.post = 0 → ∃ t, exec .tracePostEnd s = .next t ∧ t.fget F.TRC_STAT_STATE 0 = 4 ∧
      (stream = false → t.trace = s.trace) ∧ (stream = true → written t) ∧ Frame noReg [] s t) ∧
    (¬ (st = 3 ∧ s.trace.post = 0) → exec .tracePostEnd s = .next s) ∧
    (stream = true → st = 2 ∨ st = 3 → s.trace.buf ≠ [] → ∃ t, exec .streamFlush s = .next t ∧ written t ∧
      t.fget F.TRC_STAT_STATE 0 = st ∧ Frame noReg [] s t) ∧
    (¬ (stream = true ∧ (st = 2 ∨ st = 3) ∧ s.trace.buf ≠ []) → exec .streamFlush s = .next s) ∧
    (∀ src : Fin 64, let n := tabGet 0 s.trace.fifoLost src
      (n ≠ 0 → st = 2 ∨ st = 3 ∧ 0 < s.trace.post → ∃ t, exec (.traceLostRecord src) s = .next t ∧
        tabGet 0 t.trace.fifoLost src = 0 ∧ (∀ k, k ≠ src.val → tabGet 0 t.trace.fifoLost k = tabGet 0 s.trace.fifoLost k) ∧
        t.fget F.TRC_CNT_WRITTEN 0 = (s.fget F.TRC_CNT_WRITTEN 0 + 1) % 2 ^ 32 ∧
        (stream = false → t.trace.buf.getLast? = some (s.traceRec 0x3F 3 s.tracePart [(16, src.val), (16, n)])) ∧
        t.trace.post = (if st = 3 then s.trace.post - 1 else s.trace.post) ∧ Frame noReg [] s t) ∧
      (n = 0 ∨ ¬ (st = 2 ∨ st = 3 ∧ 0 < s.trace.post) → exec (.traceLostRecord src) s = .next s)))

/-- Event counter control; register writes by field type, discarded, ignored or before host-ready (00_scope.md R8,
00_scope.md R9, 00_scope.md R13, 10_faults_retry_and_retirement.md R262, 12_digests_trace_counters.md R320,
12_digests_trace_counters.md R321, 16_first_second.md R391) -/
def Obligations.CountersAndRegisterWrites : Prop :=
  (∀ (v : W32) (s : State), Live s →
    (∀ i : Instr, ∀ w : W32, (i = .evcSnap v ∧ w = v ||| 0x40000000#32) ∨ (i = .evcClear v ∧ w = v ||| 0x20000000#32) →
      ∃ t, exec i s = .next t ∧ t.flag F.EVC_CTRL_RUN 0 = v.getLsbD 31 ∧ t.flag F.EVC_CTRL_SNAP_ON_TRC 0 = v.getLsbD 28 ∧
        (w.getLsbD 30 = true → t.fget F.EVC_SNAPTIME_NS 0 = s.now.toNat ∧
          ∀ k, k < 64 → t.fget F.EVC_SNAP_COUNT k = s.fget F.EVC_VAL_COUNT k) ∧
        (w.getLsbD 30 = false → t.rget .EVC_SNAPTIME 0 = s.rget .EVC_SNAPTIME 0 ∧ ∀ k, t.rget .EVC_SNAP k = s.rget .EVC_SNAP k) ∧
        (∀ k, k < 64 → t.fget F.EVC_VAL_COUNT k = (if w.getLsbD 29 then 0 else s.fget F.EVC_VAL_COUNT k)) ∧
        (∀ k, OnlyBits s t .EVC_VAL k [F.EVC_VAL_COUNT]) ∧
        Frame (orRegs (theRegs [.EVC_CTRL, .EVC_SNAPTIME] 0) (regsAt [.EVC_SNAP] (List.range 64))) [] s t)) ∧
  (∀ (k : Fin 64) (v : W32) (s : State), Live s →
    let ev := v.toNat / 2 ^ 20 % 2 ^ 9; let q := v.toNat % 2 ^ 13
    let same := ev = s.fget F.EVC_CFG_EVENT k ∧ q = s.fget F.EVC_CFG_QUAL k ∧ v.getLsbD 30 = s.flag F.EVC_CFG_ANY k
    let ok := ∃ n, evcRange ev = some n ∧ (v.getLsbD 30 = true ∨ q < n)
    let stops := same ∧ v.getLsbD 31 = false ∧ ¬ (v.getLsbD 29 = true ∧ s.flag F.EVC_CFG_CFG_ERR k = true)
    (s.flag F.EVC_CFG_EN k = true → stops → ∃ t, exec (.evcCfgWrite k v) s = .next t ∧
      t.flag F.EVC_CFG_EN k = false ∧ OnlyBits s t .EVC_CFG k [F.EVC_CFG_EN] ∧ Frame (oneReg .EVC_CFG k) [] s t) ∧
    (s.flag F.EVC_CFG_EN k = true → ¬ stops → ∃ t, exec (.evcCfgWrite k v) s = .next t ∧ Recorded s t 3) ∧
    (s.flag F.EVC_CFG_EN k = false → ∃ t, exec (.evcCfgWrite k v) s = .next t ∧ t.fget F.EVC_CFG_EVENT k = ev ∧
      t.fget F.EVC_CFG_QUAL k = q ∧ t.flag F.EVC_CFG_ANY k = v.getLsbD 30 ∧
      (t.flag F.EVC_CFG_EN k = true ↔ v.getLsbD 31 = true ∧ ok) ∧
      (t.flag F.EVC_CFG_CFG_ERR k = true ↔
        (v.getLsbD 31 = true ∧ ¬ ok) ∨ (s.flag F.EVC_CFG_CFG_ERR k = true ∧ v.getLsbD 29 = false)) ∧
      Frame (oneReg .EVC_CFG k) [] s t)) ∧
  (∀ (r : Reg) (k : Nat) (data : W64) (s : State), Live s →
    (r, k) ∈ [(Reg.TB_CTRL, 0), (.TB_STATUS, 0), (.BR_CH_OFFSET, 0), (.BR_CH_OFFSET, 15), (.BR_CH_STAT, 0), (.BR_CH_STAT, 15),
      (.ING_PORT_STAT, 0), (.FLT_EVR_STAT, 0), (.KS_FW_SRC, 0), (.TH_STAT, 0)] →
    ∃ t, exec (.registerWrite .pf (regOffset r k) (regPlace r).width data) s = .next t ∧
      (∀ i, i < 64 → (t.rget r k).getLsbD i =
        (if (regMask r .rw).getLsbD i then data.getLsbD i
         else (s.rget r k).getLsbD i && !((regMask r .rw1c).getLsbD i && data.getLsbD i))) ∧
      (∀ q j, (q, j) ≠ (r, k) → t.rget q j = s.rget q j) ∧ Frame (oneReg r k) [] s t) ∧
  (∀ (fn : Fn) (a width : Nat) (data : W64) (s : State),
    let reaches := ∃ i, i < (width + 7) / 8 ∧ (s.regByte fn (a + i)).isSome = true
    (0 < width → ¬ reaches → exec (.registerWrite fn a width data) s = .next s) ∧
    (s.fget F.KS_STAT_STATE 0 = 0 → exec (.registerWrite fn a width data) s = .next s) ∧
    (Live s → reaches → (∀ r k, s.regByte fn a = some (r, k, 0) → (regPlace r).width ≠ width) →
      ∃ t, exec (.registerWrite fn a width data) s = .next t ∧ Recorded s t 1))

/-- Firmware banks: STAGE, its verification, activation, the bank switch window, COMMIT_SVN, DISCARD; debug
(13_keystone_security.md R326, 13_keystone_security.md R328, 13_keystone_security.md R329, 13_keystone_security.md
R330, 13_keystone_security.md R331, 13_keystone_security.md R339, 13_keystone_security.md R347,
13_keystone_security.md R353) -/
def Obligations.FirmwareBanks : Prop :=
  (∀ (v : W32) (s : State),
    let part := v.toNat / 2 ^ 24 % 2 ^ 3; let len := v.toNat % 2 ^ 13
    let cmds : List (Nat × Instr) := [(1, .fwStage v), (2, .fwActivateLive v), (3, .fwActivateAtReset v), (4, .fwCommitSvn v),
      (5, .fwDiscard v)]
    let ended : State → Nat → Nat → Prop := fun t n e => t.fget F.KS_FW_CTRL_PART 0 = part ∧ t.fget F.KS_FW_CTRL_LEN 0 = len ∧
      t.fget F.KS_FW_STAT_LAST_CMD 0 = n ∧ t.flag F.KS_FW_STAT_BUSY 0 = false ∧ t.fget F.KS_FW_STAT_ERR 0 = e
    (s.fget F.KS_STAT_STATE 0 = 0 → ∀ x ∈ cmds, exec x.2 s = .next s) ∧
    (s.fget F.KS_STAT_STATE 0 ≠ 0 → s.flag F.KS_FW_STAT_BUSY 0 = true → ∀ x ∈ cmds, (x.1 = 1 → Flowing s part) →
      ∃ t, exec x.2 s = .next t ∧ t.fget F.KS_FW_CTRL_PART 0 = part ∧ t.fget F.KS_FW_CTRL_LEN 0 = len ∧ Frame (oneReg .KS_FW_CTRL 0) [] s t) ∧
    (s.fget F.KS_STAT_STATE 0 ≠ 0 → s.flag F.KS_FW_STAT_BUSY 0 = false →
      (Flowing s part → len = 0 ∨ 4096 < len → ∃ t, exec (.fwStage v) s = .next t ∧ ended t 1 9 ∧
        Frame (theRegs [.KS_FW_CTRL, .KS_FW_STAT] 0) [] s t) ∧
      (Flowing s part → 1 ≤ len → len ≤ 4096 → ∃ t, exec (.fwStage v) s = .next t ∧ t.flag F.KS_FW_STAT_BUSY 0 = true ∧
        t.fget F.KS_FW_STAT_LAST_CMD 0 = 1 ∧ t.flag F.KS_STAT_PENDING 0 = false ∧
        (t.bank s.otherBank).firmware = memRead s.host (s.fget F.KS_FW_SRC_ADDR 0 * 4096) (len * 4096) ∧
        (t.bank s.otherBank).signed = false ∧ t.bank s.runBank = s.bank s.runBank ∧
        OnlyBits s t .KS_STAT 0 [F.KS_STAT_PENDING] ∧
        Frame (theRegs [.KS_FW_CTRL, .KS_FW_STAT, .KS_STAT] 0) [.keystone] s t) ∧
      (s.activateErr true ≠ 0 → ∃ t, exec (.fwActivateLive v) s = .next t ∧ ended t 2 (s.activateErr true) ∧
        Frame (theRegs [.KS_FW_CTRL, .KS_FW_STAT] 0) [] s t) ∧
      (s.activateErr true = 0 → ∃ t, exec (.fwActivateLive v) s = .next t ∧ t.switching = true ∧ t.swStart = s.ticks ∧
        t.flag F.KS_FW_STAT_BUSY 0 = true ∧ OnlyBits s t .KS_STAT 0 [F.KS_STAT_STATE] ∧
        Frame (theRegs [.KS_FW_CTRL, .KS_FW_STAT, .KS_STAT] 0) [.keystone] s t) ∧
      (∃ t, exec (.fwActivateAtReset v) s = .next t ∧ ended t 3 (s.activateErr false) ∧
        (s.activateErr false = 0 → t.fget F.KS_STAT_NEXT_BANK 0 = s.otherBank) ∧
        (s.activateErr false ≠ 0 → t.rget .KS_STAT 0 = s.rget .KS_STAT 0) ∧
        OnlyBits s t .KS_STAT 0 [F.KS_STAT_NEXT_BANK] ∧ Frame (theRegs [.KS_FW_CTRL, .KS_FW_STAT, .KS_STAT] 0) [] s t) ∧
      (∃ t, exec (.fwCommitSvn v) s = .next t ∧ ended t 4 (if s.reverted then 7 else 0) ∧
        t.fget F.KS_STAT_FUSED_SVN 0 = (if s.reverted then s.fget F.KS_STAT_FUSED_SVN 0
          else max (s.fget F.KS_STAT_FUSED_SVN 0) (s.fget F.KS_STAT_RUN_SVN 0)) ∧
        t.fuses.svn = (if s.reverted then s.fuses.svn
          else max (s.fget F.KS_STAT_FUSED_SVN 0) (s.fget F.KS_STAT_RUN_SVN 0)) ∧
        OnlyBits s t .KS_STAT 0 [F.KS_STAT_FUSED_SVN] ∧
        Frame (theRegs [.KS_FW_CTRL, .KS_FW_STAT, .KS_STAT] 0) [.keystone] s t) ∧
      (∃ t, exec (.fwDiscard v) s = .next t ∧ ended t 5 0 ∧ t.flag F.KS_STAT_PENDING 0 = false ∧
        OnlyBits s t .KS_STAT 0 [F.KS_STAT_PENDING] ∧ Frame (theRegs [.KS_FW_CTRL, .KS_FW_STAT, .KS_STAT] 0) [] s t))) ∧
  (∀ s : State, let x := Config.parseBank (s.bank s.otherBank).firmware
    let err := if x.signed = false then 1 else if x.svn < s.fget F.KS_STAT_FUSED_SVN 0 then 2 else 0
    (s.flag F.KS_FW_STAT_BUSY 0 = true → s.fget F.KS_FW_STAT_LAST_CMD 0 = 1 → ∃ t, exec .fwStageVerified s = .next t ∧
      t.flag F.KS_FW_STAT_BUSY 0 = false ∧ t.fget F.KS_FW_STAT_ERR 0 = err ∧
      (err = 0 → t.flag F.KS_STAT_PENDING 0 = true ∧ t.fget F.KS_STAT_PEND_SVN 0 = x.svn % 2 ^ 8) ∧
      (err ≠ 0 → t.rget .KS_STAT 0 = s.rget .KS_STAT 0) ∧ t.bank s.runBank = s.bank s.runBank ∧
      OnlyBits s t .KS_STAT 0 [F.KS_STAT_PENDING, F.KS_STAT_PEND_SVN] ∧
      Frame (theRegs [.KS_FW_STAT, .KS_STAT] 0) [.keystone] s t) ∧
    (¬ (s.flag F.KS_FW_STAT_BUSY 0 = true ∧ s.fget F.KS_FW_STAT_LAST_CMD 0 = 1) → exec .fwStageVerified s = .next s) ∧
    (s.switching = false → exec .firmwareReady s = .next s ∧ exec .switchTimeout s = .next s) ∧
    (s.switching = true →
      (∃ t, exec .firmwareReady s = .next t ∧ t.fget F.KS_STAT_STATE 0 = 1 ∧ t.fget F.KS_STAT_RUN_BANK 0 = s.otherBank ∧
        t.fget F.KS_STAT_NEXT_BANK 0 = s.otherBank ∧ t.fget F.KS_STAT_RUN_SVN 0 = s.fget F.KS_STAT_PEND_SVN 0 ∧
        t.flag F.KS_STAT_PENDING 0 = false ∧ t.fget F.KS_STAT_FUSED_SVN 0 = s.fget F.KS_STAT_FUSED_SVN 0 ∧
        t.flag F.KS_FW_STAT_BUSY 0 = false ∧ t.fget F.KS_FW_STAT_ERR 0 = 0 ∧ t.evHeld = [] ∧
        (∀ p, p < 8 → t.fget F.KS_PART_ATT_TDI p =
          (if s.tdiLocked p = true ∧ s.flag F.KS_PART_ATT_LIVE_UPDATE_OK p = false then 3 else s.fget F.KS_PART_ATT_TDI p)) ∧
        Frame (orRegs (theRegs [.KS_STAT, .KS_FW_STAT] 0) (regsAt [.KS_PART_ATT] (List.range 8))) [.keystone] s t) ∧
      (∃ t, exec .switchTimeout s = .next t ∧ t.fget F.KS_STAT_STATE 0 = 1 ∧ t.reverted = true ∧
        t.flag F.KS_FW_STAT_BUSY 0 = false ∧ t.fget F.KS_FW_STAT_ERR 0 = 7 ∧ t.evHeld = [] ∧
        OnlyBits s t .KS_STAT 0 [F.KS_STAT_STATE] ∧ Frame (theRegs [.KS_STAT, .KS_FW_STAT] 0) [.keystone] s t))) ∧
  (∀ (v : W32) (s : State),
    let valid := Config.tokenOk (memRead s.host (s.fget F.KS_DBG_SRC_ADDR 0) 256) = true ∧ ∀ p, p < 8 → s.confid p = false
    (s.fget F.KS_STAT_STATE 0 = 0 ∨ v.getLsbD 31 = false → exec (.ksDbgOpen v) s = .next s) ∧
    (s.fget F.KS_STAT_STATE 0 ≠ 0 → v.getLsbD 31 = true → Flowing s 0 → ∃ t, exec (.ksDbgOpen v) s = .next t ∧
      (t.flag F.KS_STAT_DEBUG_OPEN 0 = true ↔ s.flag F.KS_STAT_DEBUG_OPEN 0 = true ∨ valid) ∧
      OnlyBits s t .KS_STAT 0 [F.KS_STAT_DEBUG_OPEN] ∧ Frame (oneReg .KS_STAT 0) [] s t))

/-- Hash contexts opened, fed, closed and read out; Caisson contexts opened and closed; LOAD and STORE
(13_keystone_security.md R348, 14_caisson_sealed_arithmetic.md R355, 14_caisson_sealed_arithmetic.md R356,
14_caisson_sealed_arithmetic.md R360, 14_caisson_sealed_arithmetic.md R362, 14_caisson_sealed_arithmetic.md R364,
14_caisson_sealed_arithmetic.md R365, 14_caisson_sealed_arithmetic.md R366, 14_caisson_sealed_arithmetic.md R368,
14_caisson_sealed_arithmetic.md R373, 14_caisson_sealed_arithmetic.md R374) -/
def Obligations.HashAndCaissonContexts : Prop :=
  (∀ (r : Fin 128) (tag : Fin 512) (s : State) (c : Cmd), Ready s r tag c → c.signal = false →
    (∀ (op alg k : Nat) (d : BufDesc), c.par = .ksHash op alg k d →
      (op = 0 →
        ((∀ j, j < 8 → (s.hashCtx j).isSome = true) → ∃ t, exec (.hashOpen r tag) s = .next t ∧ Ended t r tag 0x0301 0 ∧
          Frame noReg [.cmds] s t) ∧
        (∀ j, j < 8 → s.hashCtx j = none → (∀ i, i < j → (s.hashCtx i).isSome = true) →
          ∃ t, exec (.hashOpen r tag) s = .next t ∧ Ended t r tag 0 j ∧ t.hashCtx j = some { part := c.part, alg := alg } ∧
            (∀ i, i ≠ j → t.hashCtx i = s.hashCtx i) ∧ Frame noReg [.cmds, .hashes] s t)) ∧
      (∀ i : Instr, (op = 1 ∧ i = .hashUpdate r tag) ∨ (op = 2 ∧ i = .hashFinal r tag) ∨ (op = 3 ∧ i = .hashClose r tag) →
        (op ≠ 3 → Flowing s (r.val / 16)) → hashCheck s c ≠ 0 →
        ∃ t, exec i s = .next t ∧ Ended t r tag (hashCheck s c) 0 ∧ Frame noReg [.cmds] s t) ∧
      (∀ x : HashCtx, s.hashCtx k = some x → hashCheck s c = 0 →
        (op = 1 → Flowing s (r.val / 16) → BufHere s d true → 0 < d.count → c.moved = 0 → ∃ t, exec (.hashUpdate r tag) s = .next t ∧ Ended t r tag 0 k ∧
          (∃ y, t.hashCtx k = some y ∧ y.part = x.part ∧ y.alg = x.alg ∧ y.busy = none ∧
            y.msg = x.msg ++ bufBytes s c.part d) ∧
          (∀ i, i ≠ k → t.hashCtx i = s.hashCtx i) ∧ Frame noReg [.cmds, .hashes] s t) ∧
        (op = 2 → Flowing s (r.val / 16) → BufHere s d false → 48 ≤ d.count → ∃ t, exec (.hashFinal r tag) s = .next t ∧
          Ended t r tag 0 k ∧ bufMem t d = memWrite (bufMem s d) (bufAt s c.part d) (digest48 x.alg x.msg) ∧
          t.hashCtx k = none ∧ (∀ i, i ≠ k → t.hashCtx i = s.hashCtx i) ∧
          Frame noReg [.cmds, .hashes, Safety.bufPart d] s t) ∧
        (op = 3 → x.busy = none → ∃ t, exec (.hashClose r tag) s = .next t ∧ Ended t r tag 0 k ∧ t.hashCtx k = none ∧
          (∀ i, i ≠ k → t.hashCtx i = s.hashCtx i) ∧ Frame noReg [.cmds, .hashes] s t))) ∧
    (s.csAhead c = true → (∀ k, c.par = .csCtxClose k → exec (.csCtxClose r tag) s = .next s) ∧
      (Flowing s (r.val / 16) → ∀ n np d, c.par = .csCtxOpen n np d → exec (.csCtxOpen r tag) s = .next s)) ∧
    (∀ (logn np : Nat) (d : BufDesc), c.par = .csCtxOpen logn np d → s.csAhead c = false → Flowing s (r.val / 16) →
      BufHere s d true → 16 * np ≤ d.count →
      let bs := bufBytes s c.part d
      let fails : Nat → Prop := fun st => ∃ t, exec (.csCtxOpen r tag) s = .next t ∧ Ended t r tag st 0 ∧
        Frame noReg [.cmds] s t
      (s.csCtxOpenCheck c ≠ 0 → fails (s.csCtxOpenCheck c)) ∧
      (s.fget F.CS_PART_VAULT_SIZE c.part = 0 → s.csCtxOpenCheck c ≠ 0) ∧
      (s.csCtxOpenCheck c = 0 →
        ((∀ k, k < 4 → s.fget F.CS_CTX_STATE k ≠ 0) → fails 0x0301) ∧
        (∀ k, k < 4 → s.fget F.CS_CTX_STATE k = 0 → (∀ j, j < k → s.fget F.CS_CTX_STATE j ≠ 0) →
          (chainOf bs np = none → fails 0x0108) ∧
          (∀ ps, chainOf bs np = some ps → chainOk logn ps = false → fails 0x0108) ∧
          (∀ ps, chainOf bs np = some ps → chainOk logn ps = true → ∃ t, exec (.csCtxOpen r tag) s = .next t ∧
            Ended t r tag 0 k ∧ t.ctx k = { chain := ps } ∧ t.fget F.CS_CTX_STATE k = 1 ∧
            t.fget F.CS_CTX_PART k = c.part % 8 ∧ t.fget F.CS_CTX_LOGN k = logn % 32 ∧ t.fget F.CS_CTX_NPRIMES k = np % 64 ∧
            t.vault = s.vault ∧ (∀ j, j ≠ k → t.ctx j = s.ctx j) ∧ Frame (oneReg .CS_CTX k) [.cmds, .caisson] s t)))) ∧
    (∀ k : Nat, c.par = .csCtxClose k → s.csAhead c = false → let st := s.csCtxCloseCheck c
      ∃ t, exec (.csCtxClose r tag) s = .next t ∧ Ended t r tag st 0 ∧ t.vault = s.vault ∧
        (s.fget F.CS_CTX_STATE k = 0 → st = 0x0602) ∧
        (s.fget F.CS_CTX_STATE k ≠ 0 → (s.fget F.CS_CTX_PART k ≠ c.part → st = 0x0400) ∧
          (s.fget F.CS_CTX_PART k = c.part → (s.ctx k).jobs ≠ [] → st = 0x0602)) ∧
        (st = 0 → t.ctx k = {} ∧ t.fget F.CS_CTX_STATE k = 0) ∧ (st ≠ 0 → Frame noReg [.cmds] s t) ∧
        (∀ j, j ≠ k → t.ctx j = s.ctx j) ∧ Frame (oneReg .CS_CTX k) [.cmds, .caisson] s t) ∧
    (∀ p : CsParams, c.par = .csOp p → p.op ≤ 1 → Flowing s (r.val / 16) →
      let i : Instr := if p.op = 0 then .csLoad r tag else .csStore r tag
      let regs : Reg → Nat → Prop := fun q k => (q = .CS_CTX ∧ k < 4) ∨ (q = .CS_STAT ∧ k = 0)
      let o := p.hbm.addr % 2 ^ 36
      (s.csAhead c = true → exec i s = .next s) ∧
      (s.csAhead c = false →
        (s.csCheck c ≠ 0 → ∃ t, exec i s = .next t ∧ Ended t r tag (s.csCheck c) 0 ∧ Frame noReg [.cmds] s t) ∧
        (s.csCheck c = 0 → (s.ctx p.ctx).jobs ≠ [] → (∀ j ∈ (s.ctx p.ctx).jobs, j.ring ≠ r ∨ j.tag ≠ tag) →
          ∃ t, exec i s = .next t ∧ Waits t r tag ∧
            (t.ctx p.ctx).jobs = (s.ctx p.ctx).jobs ++ [{ ring := r, tag := tag, p := p }] ∧ t.vault = s.vault ∧
            Frame regs [.cmds, .caisson] s t) ∧
        (s.csCheck c = 0 → (s.ctx p.ctx).jobs = [] → p.hbm.addr / 2 ^ 36 = s.node → FramesGood s o p.hbm.count (p.op = 0) →
          (p.op = 0 → ∃ t, exec (.csLoad r tag) s = .next t ∧ Ended t r tag 0 0 ∧ (t.ctx p.ctx).jobs = [] ∧
            t.vault = memWrite s.vault (s.vaultAddr c.part p.d) (memRead s.hbm o p.hbm.count) ∧
            Frame regs [.cmds, .caisson] s t) ∧
          (p.op = 1 → p.hbm.kind = 1 → let a := s.vaultAddr c.part p.a
            (∀ b, s.vaultPoisoned a p.hbm.count = some b → ∃ t, exec (.csStore r tag) s = .next t ∧
              Ended t r tag 0x0500 0 ∧ Newest t 0xC 1 ∧ t.vault = s.vault ∧ SameOutside s.hbm t.hbm o p.hbm.count ∧
              Frame regs [.cmds, .caisson, .hbm] s t) ∧
            (s.vaultPoisoned a p.hbm.count = none → ∃ t, exec (.csStore r tag) s = .next t ∧ Ended t r tag 0 0 ∧
              t.hbm = memWrite s.hbm o (memRead s.vault a p.hbm.count) ∧ t.vault = s.vault ∧
              Frame regs [.cmds, .caisson, .hbm] s t))))))

/-- Sealed operations join their context; each limb step writes one limb of results modulo its prime
(14_caisson_sealed_arithmetic.md R355, 14_caisson_sealed_arithmetic.md R358, 14_caisson_sealed_arithmetic.md R360,
14_caisson_sealed_arithmetic.md R364, 14_caisson_sealed_arithmetic.md R365, 14_caisson_sealed_arithmetic.md R366,
14_caisson_sealed_arithmetic.md R367, 14_caisson_sealed_arithmetic.md R373) -/
def Obligations.CaissonArithmetic : Prop :=
  (∀ (r : Fin 128) (tag : Fin 512) (s : State) (c : Cmd) (p : CsParams), Ready s r tag c → c.signal = false → c.par = .csOp p →
    ∀ i : Instr, (p.op, i) ∈ [(2, Instr.csNtt r tag), (3, .csIntt r tag), (4, .csAdd r tag), (5, .csSub r tag), (6, .csMul r tag),
        (7, .csMac r tag), (8, .csMulc r tag), (9, .csAuto r tag), (10, .csBconv r tag)] →
      (s.csAhead c = true → exec i s = .next s) ∧
      (s.csAhead c = false → csCheck s c ≠ 0 → ∃ t, exec i s = .next t ∧ Ended t r tag (csCheck s c) 0 ∧ Frame noReg [.cmds] s t) ∧
      (s.csAhead c = false → csCheck s c = 0 → ∃ t, exec i s = .next t ∧ Waits t r tag ∧ t.vault = s.vault ∧
        (t.ctx p.ctx).jobs = (s.ctx p.ctx).jobs ++ [{ ring := r, tag := tag, p := p }] ∧ (t.ctx p.ctx).chain = (s.ctx p.ctx).chain ∧
        (∀ k, k ≠ p.ctx → t.ctx k = s.ctx k) ∧
        Frame (fun q k => (q = .CS_CTX ∧ k < 4) ∨ (q = .CS_STAT ∧ k = 0)) [.cmds, .caisson] s t)) ∧
  (∀ s : State, let c := s.fget F.CS_STAT_CUR 0
    (s.flag F.CS_STAT_IDLE 0 = true ∨ s.pipeWork c = false → exec .limbStepEnd s = .next s) ∧
    (∀ (j : CsJob) (js : List CsJob), s.flag F.CS_STAT_IDLE 0 = false → (s.ctx c).jobs = j :: js → 2 ≤ j.p.op →
      let part := s.fget F.CS_CTX_PART c; let logn := s.fget F.CS_CTX_LOGN c; let n := 2 ^ logn
      let out := if j.p.op = 10 then j.step / j.p.nl else j.step
      let dst := s.vaultAddr part j.p.d + out * 2 ^ logn * 8
      let regs : Reg → Nat → Prop := fun q k => (q = .CS_CTX ∧ k < 4) ∨ (q = .CS_STAT ∧ k = 0)
      let bad := (s.stepReads part logn j.step j.p).any (fun e => (s.vaultPoisoned e.1 e.2).isSome)
      let pr := (s.ctx c).prime (j.p.first + out); let q := pr.q
      let val := if j.p.op = 10 then s.bconvValue part logn (j.step % j.p.nl) out (s.ctx c) j.p
        else s.limbValue part logn out pr j.p
      let word : Nat → Nat → Nat := fun o x => memNat s.vault (s.vaultAddr part o + out * 2 ^ logn * 8 + 8 * x) 8
      (bad = true → ∃ t, exec .limbStepEnd s = .next t ∧ SameOutside s.vault t.vault (s.jobDest c j.p).1 ((s.jobDest c j.p).2 * 8) ∧
        (t.ctx c).jobs = js ∧ Newest t 0xC 1 ∧
        (∀ d, s.findCmd j.ring j.tag = some d → Ended t j.ring j.tag 0x0500 0) ∧ Frame regs [.cmds, .caisson] s t) ∧
      (bad = false → ∃ t, exec .limbStepEnd s = .next t ∧ SameOutside s.vault t.vault dst (n * 8) ∧
        (∀ ws, val = some ws → t.vault = memWrite s.vault dst (ws.map (leBytes 8)).flatten) ∧
        (isPrime q = true → q ≤ 2 ^ 60 →
          (∀ x, x < n → word j.p.a x < q ∧ (j.p.op = 4 ∨ j.p.op = 5 ∨ j.p.op = 6 ∨ j.p.op = 7 → word j.p.b x < q) ∧
            (j.p.op = 7 → word j.p.d x < q)) →
          ∀ x, x < n →
            (j.p.op = 4 → memNat t.vault (dst + 8 * x) 8 = (word j.p.a x + word j.p.b x) % q) ∧
            (j.p.op = 5 → memNat t.vault (dst + 8 * x) 8 = (word j.p.a x + q - word j.p.b x) % q) ∧
            (j.p.op = 6 → memNat t.vault (dst + 8 * x) 8 = word j.p.a x * word j.p.b x % q) ∧
            (j.p.op = 7 → memNat t.vault (dst + 8 * x) 8 = (word j.p.d x + word j.p.a x * word j.p.b x % q) % q) ∧
            (j.p.op = 8 → memNat t.vault (dst + 8 * x) 8 = word j.p.a x * j.p.consts.getD out 0 % q)) ∧
        (j.step + 1 ≠ jobSteps j.p → (t.ctx c).jobs = { j with step := j.step + 1 } :: js ∧
          Frame regs [.caisson] s t) ∧
        (j.step + 1 = jobSteps j.p → (t.ctx c).jobs = js ∧
          ∀ d, s.findCmd j.ring j.tag = some d → d.signal = false → Ended t j.ring j.tag 0 0 ∧ Frame regs [.cmds, .caisson] s t))))

/-- The mailbox: retry before host-ready, silence in RECOVERY, ResponseNotReady; the SPDM answers
(13_keystone_security.md R326, 13_keystone_security.md R327, 13_keystone_security.md R332, 13_keystone_security.md
R333, 13_keystone_security.md R334, 13_keystone_security.md R336, 16_first_second.md R395, 16_first_second.md R400) -/
def Obligations.SpdmAnswers : Prop :=
  (∀ (i : Instr) (ses : Session) (rec : Bool) (s : State), requestOf i = some (ses, rec) →
    (s.power.perst = true → exec i s = .next s) ∧
    (s.power.perst = false → s.configOpen = false → ∃ t, exec i s = .next t ∧ t.outs = s.outs ++ [.config false] ∧
      Frame noReg [] s t) ∧
    (s.power.perst = false → s.configOpen = true →
      (s.fget F.KS_STAT_STATE 0 = 3 → rec = false → exec i s = .next s) ∧ (s.lostSession ses = true → exec i s = .next s) ∧
      (s.switching = true → s.lostSession ses = false → ∃ t, exec i s = .next t ∧ Sent s t (.notReady 16 4 s.spdm.token) ∧
        t.spdm.token = s.spdm.token + 1 ∧ t.spdm.deferred = s.spdm.deferred ++ [(s.spdm.token, i)] ∧
        t.spdm.sessions = s.spdm.sessions ∧ t.spdm.handshake = s.spdm.handshake ∧ t.ide = s.ide ∧
        Frame noReg [.keystone] s t))) ∧
  (∀ (ses : Session) (s : State), Talks s ses →
    (∃ t, exec (.spdmGetVersion ses) s = .next t ∧ Says s t (.version [0x12, 0x13])) ∧
    (∃ t, exec (.spdmGetCapabilities ses) s = .next t ∧ Says s t (.capabilities ["CERT", "CHAL", "MEAS with signature",
      "MEAS_FRESH", "ENCRYPT", "MAC", "KEY_EX", "HBEAT", "KEY_UPD", "CHUNK", "SET_CERT", "CSR"])) ∧
    (∃ t, exec (.spdmNegotiateAlgorithms ses) s = .next t ∧ Says s t (.algorithms ["ECDSA P-384", "SHA-384", "DHE secp384r1",
      "AES-256-GCM", "SPDM key schedule"])) ∧
    (∃ t, exec (.spdmGetDigests ses) s = .next t ∧ Says s t (.digests (digest48 0 (s.certChain 0) ::
      if s.spdm.slot1 = [] then [] else [digest48 0 s.spdm.slot1]))) ∧
    (∀ slot : Fin 8,
      (∃ t, exec (.spdmGetCertificate ses slot) s = .next t ∧ Says s t (if 2 ≤ slot.val then .unsupported
        else if slot.val = 1 ∧ s.spdm.slot1 = [] then .refused else .certificate slot (s.certChain slot))) ∧
      (∀ nonce : List Byte, ∃ t, exec (.spdmChallenge ses slot nonce) s = .next t ∧ Says s t (if 2 ≤ slot.val then .unsupported
        else if slot.val = 1 ∧ s.spdm.slot1 = [] then .refused
        else .challengeAuth slot (Config.secret 1 (s.certChain slot ++ nonce)))) ∧
      (∀ exch : List Byte,
        (2 ≤ slot.val → ∃ t, exec (.spdmKeyExchange ses slot exch) s = .next t ∧ Says s t .unsupported) ∧
        (slot.val = 1 → s.spdm.slot1 = [] → ∃ t, exec (.spdmKeyExchange ses slot exch) s = .next t ∧ Says s t .refused) ∧
        (slot.val < 2 → (slot.val = 1 → s.spdm.slot1 ≠ []) →
          ((∀ k, k < 4 → s.sessionOpen k = true ∨ s.spdm.handshake.getD k false = true) →
            ∃ t, exec (.spdmKeyExchange ses slot exch) s = .next t ∧ Says s t .refused) ∧
          (∀ k, k < 4 → s.sessionOpen k = false → s.spdm.handshake.getD k false = false →
            (∀ j, j < k → s.sessionOpen j = true ∨ s.spdm.handshake.getD j false = true) →
            ∃ t, exec (.spdmKeyExchange ses slot exch) s = .next t ∧
              Sent s t (.keyExchange k (Config.secret 3 (s.certChain slot ++ exch))) ∧
              t.spdm.handshake = s.spdm.handshake.set k true ∧ t.spdm.sessions = s.spdm.sessions.set k false ∧
              t.spdm.slot1 = s.spdm.slot1 ∧ t.ide = s.ide ∧ Frame noReg [.keystone] s t)))) ∧
    (∀ (k : Fin 256) (nonce : List Byte),
      let ms := if k.val = 0xFF then s.measurements else s.measurements.filter (fun e => e.1 == k.val)
      ∃ t, exec (.spdmGetMeasurements ses k nonce) s = .next t ∧ Says s t (if k.val ≠ 0 ∧ ms = [] then .refused
        else .measurements s.measurements.length ms (Config.secret 2 (nonce ++ (ms.map (·.2)).flatten)))) ∧
    ((s.measurements.map (·.1)).Pairwise (· < ·) ∧ (∀ p, p < 8 → (0x10 + p, s.partState p) ∈ s.measurements) ∧
      (7, leBytes 8 (s.fget F.KS_STAT_RUN_SVN 0)) ∈ s.measurements ∧
      (s.flag F.KS_STAT_PENDING 0 = false → ∀ e ∈ s.measurements, e.1 ≠ 8))) ∧
  (∀ (k : Fin 4) (verify : List Byte) (s : State), Talks s none →
    (s.spdm.handshake.getD k false = false → ∃ t, exec (.spdmFinish k verify) s = .next t ∧ Says s t .refused) ∧
    (s.spdm.handshake.getD k false = true → ∃ t, exec (.spdmFinish k verify) s = .next t ∧
      Sent s t (if Config.finishOk k verify then .finish k else .refused) ∧ t.spdm.handshake = s.spdm.handshake.set k false ∧
      t.spdm.sessions = s.spdm.sessions.set k (Config.finishOk k verify) ∧ t.spdm.slot1 = s.spdm.slot1 ∧ t.ide = s.ide ∧
      Frame noReg [.keystone] s t))

/-- Session upkeep, chunks, certificates, deferred requests, IDE keys and the TDISP interface states
(13_keystone_security.md R327, 13_keystone_security.md R332, 13_keystone_security.md R336, 13_keystone_security.md
R337, 13_keystone_security.md R338, 13_keystone_security.md R339) -/
def Obligations.SessionsIdeAndTdisp : Prop :=
  (∀ (k : Fin 4) (s : State), Talks s (some k) →
    (∃ t, exec (.spdmHeartbeat k) s = .next t ∧ Says s t (.heartbeat k)) ∧
    (∃ t, exec (.spdmKeyUpdate k) s = .next t ∧ Says s t (.keyUpdate k)) ∧
    (∃ t, exec (.spdmEndSession k) s = .next t ∧ Sent s t (.endSession k) ∧ t.sessionOpen k = false ∧
      (∀ j, j ≠ k.val → t.sessionOpen j = s.sessionOpen j) ∧ t.spdm.slot1 = s.spdm.slot1 ∧ t.ide = s.ide ∧
      Frame noReg [.keystone] s t)) ∧
  (∀ (ses : Session) (s : State), Talks s ses →
    (∀ (h : Byte) (last : Bool) (d : List Byte), ∃ t, exec (.spdmChunkSend ses h last d) s = .next t ∧
      Sent s t (.chunkSendAck h.toNat) ∧ t.spdm.chunk = (if last then [] else s.spdm.chunk ++ d) ∧
      t.spdm.large = (if last then s.spdm.chunk ++ d else s.spdm.large) ∧ t.spdm.sessions = s.spdm.sessions ∧
      t.spdm.slot1 = s.spdm.slot1 ∧ t.ide = s.ide ∧ Frame noReg [.keystone] s t) ∧
    (∀ (h : Byte) (q : Nat), ∃ t, exec (.spdmChunkGet ses h q) s = .next t ∧
      Says s t (.chunk h.toNat (Config.secret 4 (leBytes 1 h.toNat ++ leBytes 4 q ++ s.spdm.large)))) ∧
    (∃ t, exec (.spdmGetCsr ses) s = .next t ∧
      Says s t (if ses = none then .refused else .csr (Config.secret 5 s.measuredBank.firmware))) ∧
    (∀ (slot : Fin 8) (chain : List Byte),
      (2 ≤ slot.val → ∃ t, exec (.spdmSetCertificate ses slot chain) s = .next t ∧ Says s t .unsupported) ∧
      (slot.val < 2 → ses = none ∨ slot.val = 0 → ∃ t, exec (.spdmSetCertificate ses slot chain) s = .next t ∧
        Says s t .refused) ∧
      (slot.val = 1 → ses ≠ none → ∃ t, exec (.spdmSetCertificate ses slot chain) s = .next t ∧ Sent s t (.setCertificate 1) ∧
        t.spdm = { s.spdm with slot1 := chain } ∧ t.ide = s.ide ∧ Frame noReg [.keystone] s t)) ∧
    (∀ token : Nat,
      ((∀ e ∈ s.spdm.deferred, e.1 ≠ token) → ∃ t, exec (.spdmRespondIfReady ses token) s = .next t ∧ Says s t .refused) ∧
      (∀ i, s.spdm.deferred.find? (fun e => e.1 == token) = some (token, i) →
        ∃ t u, exec (.spdmRespondIfReady ses token) s = .next t ∧
          u = { s with spdm := { s.spdm with deferred := s.spdm.deferred.filter (fun e => e.1 != token) } } ∧
          Sent s t (answerOf i u).1 ∧ (∀ e ∈ t.spdm.deferred, e.1 ≠ token) ∧
          Frame (regsAt [.KS_PART_ATT] (List.range 8)) [.keystone] s t)) ∧
    (∀ n : Fin 9, (ses = none → ∃ t, exec (.ideKSetGo ses n) s = .next t ∧ Says s t .refused) ∧
      (ses ≠ none → ∃ t, exec (.ideKSetGo ses n) s = .next t ∧ Sent s t (.keyGo n) ∧ natBit t.ide n = true ∧
        (∀ j, j ≠ n.val → natBit t.ide j = natBit s.ide j) ∧ t.spdm = s.spdm ∧ Frame noReg [.keystone] s t)) ∧
    (∀ p : Fin 8, let tdi := s.fget F.KS_PART_ATT_TDI p
      (ses = none → ∀ i ∈ [Instr.tdispGetVersion ses p, .tdispGetCapabilities ses p, .tdispLock ses p, .tdispGetReport ses p,
        .tdispGetState ses p, .tdispStart ses p, .tdispStop ses p], ∃ t, exec i s = .next t ∧ Says s t .refused) ∧
      (ses ≠ none →
        (∃ t, exec (.tdispGetVersion ses p) s = .next t ∧ Says s t .tdispVersion) ∧
        (∃ t, exec (.tdispGetCapabilities ses p) s = .next t ∧ Says s t .tdispCapabilities) ∧
        (∃ t, exec (.tdispGetReport ses p) s = .next t ∧ Says s t (.tdispReport p (s.fget F.TG_PART_TILES p)
          [s.fget F.TG_CFG_RES (5 * p.val), s.fget F.TG_CFG_RES (5 * p.val + 1), s.fget F.TG_CFG_RES (5 * p.val + 2),
            s.fget F.TG_CFG_RES (5 * p.val + 3), s.fget F.TG_CFG_RES (5 * p.val + 4)] (s.partState p))) ∧
        (∃ t, exec (.tdispGetState ses p) s = .next t ∧ Says s t (.tdispState p tdi)) ∧
        (let ok := tdi = 0 ∧ (∀ i, i < 16 → s.flag F.TRH_RING_CFG_OWNER (16 * p.val + i) = true) ∧ s.resetBusy p = false ∧
            natBit s.ide (p.val + 1) = true
         (ok → ∃ t, exec (.tdispLock ses p) s = .next t ∧ Sent s t (.tdispLocked p) ∧ t.fget F.KS_PART_ATT_TDI p = 1 ∧
            OnlyBits s t .KS_PART_ATT p [F.KS_PART_ATT_TDI] ∧ Frame (oneReg .KS_PART_ATT p) [] s t) ∧
         (¬ ok → ∃ t, exec (.tdispLock ses p) s = .next t ∧ Says s t .refused)) ∧
        (tdi = 1 → ∃ t, exec (.tdispStart ses p) s = .next t ∧ Sent s t (.tdispStarted p) ∧ t.fget F.KS_PART_ATT_TDI p = 2 ∧
          OnlyBits s t .KS_PART_ATT p [F.KS_PART_ATT_TDI] ∧ Frame (oneReg .KS_PART_ATT p) [] s t) ∧
        (tdi ≠ 1 → ∃ t, exec (.tdispStart ses p) s = .next t ∧ Says s t .refused) ∧
        (∃ t, exec (.tdispStop ses p) s = .next t ∧ Sent s t (.tdispStopped p) ∧ t.fget F.KS_PART_ATT_TDI p = 0 ∧
          OnlyBits s t .KS_PART_ATT p [F.KS_PART_ATT_TDI] ∧ Frame (oneReg .KS_PART_ATT p) [] s t))))

/-- Thermal samples, throttle, trip, inlet reads and the evaluation; the test access port (15_thermal_and_power_cap.md
R375, 15_thermal_and_power_cap.md R376, 15_thermal_and_power_cap.md R377, 15_thermal_and_power_cap.md R378,
15_thermal_and_power_cap.md R380, 15_thermal_and_power_cap.md R381, 15_thermal_and_power_cap.md R382,
17_signals_package_electrical.md R413, 17_signals_package_electrical.md R414) -/
def Obligations.ThermalAndTestAccess : Prop :=
  (∀ (st : Vector W16 4) (tl : Vector W16 16) (power : W16) (s : State),
    let stack : Int → Prop := fun x => ∃ k : Fin 4, x ≤ (st[k]).toInt
    let die : Int → Prop := fun x => ∃ k : Fin 16, s.tileIn k = true ∧ x ≤ (tl[k]).toInt
    let temps : State → Prop := fun t => (∀ k : Fin 4, t.fget F.TH_STACK_TEMP k = (st[k]).toNat) ∧
      (∀ k : Fin 16, s.tileIn k = true → t.fget F.TH_TILE_TEMP k = (tl[k]).toNat) ∧
      (∀ k, 16 ≤ k ∨ s.tileIn k = false → t.fget F.TH_TILE_TEMP k = s.fget F.TH_TILE_TEMP k) ∧
      t.thermal.window.length = min 1000 (s.thermal.window.length + 1)
    let regs : Reg → Nat → Prop := fun q _ => q ∈ [Reg.TH_STACK, .TH_TILE, .TH_DIE, .TH_POWER, .TH_STAT]
    (s.power.pll = false → exec (.thermalSample st tl power) s = .next s) ∧
    (s.power.pll = true → s.thermal.window.length ≤ 1000 →
      (¬ stack 1520 → ¬ die 1680 → ∃ t, exec (.thermalSample st tl power) s = .next t ∧ temps t ∧ t.thermal.shut = 0 ∧
        t.rget .TH_STAT 0 = s.rget .TH_STAT 0 ∧ Frame regs [.thermal] s t) ∧
      (stack 1520 ∨ die 1680 → ¬ stack 1680 → ¬ die 1840 → ∃ t, exec (.thermalSample st tl power) s = .next t ∧ temps t ∧
        t.thermal.shut = 0 ∧ t.flag F.TH_STAT_THROTTLE 0 = true ∧ OnlyBits s t .TH_STAT 0 [F.TH_STAT_THROTTLE] ∧
        (s.flag F.TH_STAT_THROTTLE 0 = false → Newest t 0xD 1) ∧ Frame regs [.thermal] s t) ∧
      (stack 1680 ∨ die 1840 →
        (s.thermal.shut = 0 → ∃ t, exec (.thermalSample st tl power) s = .next t ∧ temps t ∧ t.thermal.shut = 1 ∧
          Newest t 0xD 3 ∧ t.flag F.TH_STAT_THROTTLE 0 = true ∧ Frame regs [.thermal] s t) ∧
        (s.thermal.shut = 2 → ∃ t, exec (.thermalSample st tl power) s = .next t ∧ Restarted s t ∧ t.power.tripped = true ∧
          t.power.tripOut = true ∧ t.power.released = false ∧ (stack 1680 → t.fget F.TH_STAT_TRIP_CAUSE 0 = 1) ∧
          (¬ stack 1680 → t.fget F.TH_STAT_TRIP_CAUSE 0 = 2))))) ∧
  (∀ s : State,
    (s.flag F.TH_STAT_THROTTLE 0 = true → s.cooled = true → ∃ t, exec .throttleClear s = .next t ∧
      t.flag F.TH_STAT_THROTTLE 0 = false ∧ OnlyBits s t .TH_STAT 0 [F.TH_STAT_THROTTLE] ∧ Frame (oneReg .TH_STAT 0) [] s t) ∧
    (s.flag F.TH_STAT_THROTTLE 0 = false ∨ s.cooled = false → exec .throttleClear s = .next s) ∧
    (s.power.pll = false ∨ s.flag F.TH_CFG_INLET_SRC 0 = true → ∀ v, exec (.inletRead v) s = .next s) ∧
    (s.power.pll = true → s.flag F.TH_CFG_INLET_SRC 0 = false →
      (∀ v : W16, ∃ t, exec (.inletRead (some v)) s = .next t ∧ t.flag F.TH_STAT_INLET_LOST 0 = false ∧
        t.fget F.TH_INLET_T_IN 0 = ofSigned 16 (v.toInt / 16) ∧ t.thermal.inletFails = 0 ∧
        OnlyBits s t .TH_STAT 0 [F.TH_STAT_INLET_LOST] ∧ Frame (theRegs [.TH_STAT, .TH_INLET] 0) [.thermal] s t) ∧
      (∃ t, exec (.inletRead none) s = .next t ∧ t.thermal.inletFails = s.thermal.inletFails + 1 ∧
        (s.thermal.inletFails = 2 → t.flag F.TH_STAT_INLET_LOST 0 = true ∧ Newest t 0xD 2 ∧
          t.fget F.TH_INLET_T_IN 0 = s.fget F.TH_CFG_FALLBACK 0 * 16) ∧
        (s.thermal.inletFails ≠ 2 → Frame noReg [.thermal] s t) ∧ OnlyBits s t .TH_STAT 0 [F.TH_STAT_INLET_LOST] ∧
        Frame (theRegs [.TH_STAT, .TH_INLET] 0) [.thermal] s t)) ∧
    (s.power.pll = false ∨ s.thermal.window = [] → exec .thermalEvaluation s = .next s) ∧
    (s.power.pll = true → s.thermal.window ≠ [] →
      let noms := List.replicate 4 (nominal (s.fget F.TH_RTH_RTH_HBM 0)) ++ [nominal (s.fget F.TH_RTH_RTH_DIE 0)]
      let cap := s.powerCap (s.estimates noms) noms
      ∃ t, exec .thermalEvaluation s = .next t ∧ t.fget F.TH_POWER_P_CAP 0 = cap ∧ cap ≤ s.pMax ∧
        min s.pMax (s.fget F.TH_STATIC_P_STATIC 0) ≤ cap ∧ t.derate = derateNext s.derate (s.derateTarget cap) ∧
        t.derate ≤ s.derate + 64 ∧ t.derate ≤ 1024 ∧ (1000 ≤ s.thermal.window.length → t.flag F.TH_STAT_EST_VALID 0 = true) ∧
        t.thermal.window = s.thermal.window ∧
        Frame (fun q k => q ∈ [Reg.TH_STACK, .TH_DIE, .TH_POWER, .TH_STAT, .TH_INLET] ∨ capacityRegs q k)
          [.thermal, .egress, .commit] s t)) ∧
  (∀ s : State,
    (∀ x ∈ [(Instr.jtagExtest, 0x00), (.jtagClamp, 0x03), (.jtagHighz, 0x04), (.jtagExtestPulse, 0x05), (.jtagExtestTrain, 0x06)],
      ∃ t, exec x.1 s = .next t ∧ t.jtag = { ir := x.2, active := s.power.resetLow } ∧ Frame noReg [.jtag] s t) ∧
    (∀ x ∈ [(Instr.jtagSamplePreload, 0x02), (.jtagBypass, 0xFF)],
      ∃ t, exec x.1 s = .next t ∧ t.jtag = { ir := x.2, active := false } ∧ Frame noReg [.jtag] s t) ∧
    (∃ t v, exec .jtagIdcode s = .next t ∧ t.jtag = { ir := 0x01, active := false } ∧ t.outs = s.outs ++ [.tdo 0x01 v] ∧
      v.toNat % 2 = 1 ∧ v.toNat / 2 ^ 12 % 2 ^ 16 = 0x4A14 ∧ v.toNat / 2 % 2 ^ 11 = Config.jedec.toNat ∧
      v.toNat / 2 ^ 28 = s.fuses.stepping / 16 % 8 * 2 + s.fuses.stepping % 2 ∧ Frame noReg [.jtag] s t) ∧
    (∃ t, exec .testLogicReset s = .next t ∧ t.jtag = { ir := 0x01, active := false } ∧ t.power.scanHeld = false ∧
      t.power.released =
        (s.power.released || (s.power.pwrGood && !s.power.resetLow && !s.power.tripped)) ∧
      Frame (oneReg .KS_BOOT 0) [.jtag, .power] s t))

/-- Supplies, device reset and its release, boot or RECOVERY, hubs, HBM training, memory-ready, host-ready
(13_keystone_security.md R326, 13_keystone_security.md R328, 16_first_second.md R388, 16_first_second.md R389,
16_first_second.md R390, 16_first_second.md R391, 16_first_second.md R393, 16_first_second.md R394, 16_first_second.md
R395, 16_first_second.md R399, 17_signals_package_electrical.md R412, 17_signals_package_electrical.md R416) -/
def Obligations.PowerUpTimeline : Prop :=
  (∀ s : State,
    (s.power.pwrGood = true → exec .supplyGood s = .next s) ∧
    (s.power.pwrGood = false → exec .pwrGoodFall s = .next s ∧ exec .supplyDrop s = .next s ∧
      ∃ t, exec .supplyGood s = .next t ∧ Restarted s t ∧ t.power.pwrGood = true ∧ t.power.tripped = false ∧
        t.power.released = (!s.power.resetLow && !s.power.scanHeld) ∧
        (t.power.released = true → t.fget F.KS_BOOT_RESET_SRC 0 = s.power.cause % 4)) ∧
    (s.power.pwrGood = true → ∀ i ∈ [Instr.pwrGoodFall, .supplyDrop], ∃ t, exec i s = .next t ∧ Restarted s t ∧
      t.power.pwrGood = false ∧ t.power.released = false ∧ t.power.cause = 1) ∧
    (∃ t, exec (.resetN true) s = .next t ∧ Restarted s t ∧ t.power.resetLow = true ∧ t.power.released = false ∧
      t.power.cause = 2) ∧
    (s.power.resetLow = false → exec (.resetN false) s = .next s) ∧
    (s.power.resetLow = true → let held := s.power.scanHeld || s.jtag.active
      ∃ t, exec (.resetN false) s = .next t ∧ t.power.resetLow = false ∧ t.power.scanHeld = held ∧
        t.power.released = (s.power.released || (s.power.pwrGood && !s.power.tripped && !held)) ∧
        Frame (oneReg .KS_BOOT 0) [.power] s t) ∧
    (s.power.released = false → exec .pllLock s = .next s) ∧
    (s.power.released = true → ∃ t, exec .pllLock s = .next t ∧ t.power.pll = true ∧ t.tb = s.tb ∧ Frame noReg [.power] s t) ∧
    (s.power.pll = false ∨ s.power.boot = true → exec .bootComplete s = .next s) ∧
    (s.power.pll = true → s.power.boot = false →
      let b := s.fget F.KS_STAT_NEXT_BANK 0; let f := s.fuses
      let ok : Nat → Prop := fun k => (s.bank k).signed = true ∧ f.svn ≤ (s.bank k).svn
      let regs : Reg → Nat → Prop := fun q _ => q ∈ [Reg.KS_GRADE, .KS_STAT, .TH_STATIC, .TH_POWER, .ACT_ADV_WL0, .ACT_ADV_WL1,
        .ACT_ADV_WL2, .ACT_ADV_STAT, .CW_EXPORT, .CW_NODE]
      ∃ t, exec .bootComplete s = .next t ∧ t.power.boot = true ∧ t.fget F.KS_GRADE_STEPPING 0 = f.stepping % 256 ∧
        t.fget F.KS_GRADE_GRADE 0 = f.grade % 16 ∧ t.fget F.KS_GRADE_TILE_MASK 0 = f.mask % 2 ^ 16 ∧
        t.fget F.KS_STAT_FUSED_SVN 0 = f.svn % 256 ∧ t.fget F.TH_STATIC_P_STATIC 0 = f.pStatic % 2 ^ 16 ∧
        t.fget F.TH_POWER_P_CAP 0 = (if f.grade % 16 = 0 then 1800 else if f.grade % 16 = 1 then 1500 else 1200) ∧
        (ok b → t.fget F.KS_STAT_RUN_BANK 0 = b ∧ t.fget F.KS_STAT_RUN_SVN 0 = (s.bank b).svn % 256 ∧
          t.power.recovery = s.power.recovery ∧ t.fallback = s.fallback) ∧
        (¬ ok b → ok (1 - b) → t.fget F.KS_STAT_RUN_BANK 0 = 1 - b ∧ t.fget F.KS_STAT_RUN_SVN 0 = (s.bank (1 - b)).svn % 256 ∧
          t.fallback = some (1 - b, b)) ∧
        (¬ ok b → ¬ ok (1 - b) → t.fget F.KS_STAT_STATE 0 = 3 ∧ t.power.recovery = true) ∧
        (ok b ∨ ok (1 - b) → t.fget F.KS_STAT_STATE 0 = s.fget F.KS_STAT_STATE 0) ∧
        Frame regs [.power, .egress, .keystone] s t) ∧
    (s.power.boot = false ∨ s.power.hubs = true → exec .hubRelease s = .next s) ∧
    (s.power.boot = true → s.power.hubs = false → ∃ t, exec .hubRelease s = .next t ∧ t.power.hubs = true ∧
      (∀ k, k < 64 → (t.advTag k).due = (s.flag F.ACT_ADV_WL0_EN k || (s.advTag k).due)) ∧ Frame noReg [.power, .egress] s t) ∧
    (∀ failed : W64,
      (s.power.hubs = false ∨ s.power.trained = true → exec (.hbmTrainingEnd failed) s = .next s) ∧
      (s.power.hubs = true → s.power.trained = false → ∃ t, exec (.hbmTrainingEnd failed) s = .next t ∧ t.power.trained = true ∧
        (∀ c, c < 64 → t.flag F.FLT_PC_RETIRED c = (s.flag F.FLT_PC_RETIRED c || failed.getLsbD c)) ∧
        t.fget F.KS_BOOT_PC_FAIL 0 = ((List.range 64).filter (fun c => failed.getLsbD c)).length ∧
        (∀ k, k < 4 → natBit (t.fget F.KS_BOOT_STACK_OK 0) k = (List.range 16).any (fun c => !(failed.getLsbD (16 * k + c)))) ∧
        (failed ≠ 0 → Newest t 3 4) ∧
        Frame (fun q k => (q = .FLT_PC ∧ k < 64) ∨ (q = .KS_BOOT ∧ k = 0) ∨ capacityRegs q k)
          [.hbm, .poison, .egress, .commit, .power] s t)) ∧
    (s.power.trained = false ∨ s.power.memReady = true → exec .memoryReady s = .next s) ∧
    (s.power.trained = true → s.power.memReady = false →
      let joins := s.power.recovery = false ∧ s.flag F.CW_NODE_POOL_EN 0 = true
      ∃ t, exec .memoryReady s = .next t ∧ t.power.memReady = true ∧ t.fget F.KS_BOOT_T_MEM 0 = s.ticks / 250000 % 512 ∧
        (∀ l, l < 8 → t.linkState l = (if joins ∧ s.linkState l = 2 then 3 else s.linkState l)) ∧
        Frame (fun q k => (q = .KS_BOOT ∧ k = 0) ∨ (q = .CW_LINK_STAT ∧ k < 8) ∨ (q = .CW_NODE ∧ k = 0)) [.power, .causeway] s t) ∧
    (let due := s.power.memReady = true ∧ s.power.hostReady = false ∧ s.power.perst = false ∧ s.power.since ≤ s.ticks
     (¬ due → exec .hostReady s = .next s) ∧
     (due → ∃ t, exec .hostReady s = .next t ∧ t.power.hostReady = true ∧ t.fget F.KS_BOOT_T_HOST 0 = s.ticks / 250000 % 512 ∧
        t.fget F.KS_STAT_STATE 0 = (if s.power.recovery then s.fget F.KS_STAT_STATE 0 else 1) ∧
        OnlyBits s t .KS_STAT 0 [F.KS_STAT_STATE] ∧ Frame (theRegs [.KS_BOOT, .KS_STAT] 0) [.power] s t)) ∧
    (let due := s.power.hubs = true ∧ s.power.recovery = false ∧ s.power.servo = false
     (¬ due → exec .ptpServoStart s = .next s) ∧
     (due → ∃ t, exec .ptpServoStart s = .next t ∧ t.power.servo = true ∧ t.flag F.KS_BOOT_PTP_RUN 0 = true ∧
        OnlyBits s t .KS_BOOT 0 [F.KS_BOOT_PTP_RUN] ∧ Frame (oneReg .KS_BOOT 0) [.power] s t))) ∧
  (∀ (rail : Rail) (pct : Nat) (s : State),
    let lo := if rail = .core then 97 else 95; let hi := if rail = .core then 103 else 105
    let off := rail = .aux ∧ pct < 10
    ∃ t, exec (.supplyRailChange rail pct) s = .next t ∧ (natBit t.power.rails (railBit rail) = true ↔ lo ≤ pct ∧ pct ≤ hi) ∧
      (∀ b, b ≠ railBit rail → natBit t.power.rails b = natBit s.power.rails b) ∧
      t.power.outsDriven = natBit t.power.rails (railBit .io) ∧
      (t.power.tripOut = true ↔ s.power.tripOut = true ∧ ¬ off ∧
        ¬ (rail = .io ∧ natBit s.power.rails (railBit .io) = false ∧ natBit t.power.rails (railBit .io) = true)) ∧
      (off → t.fget F.TH_STAT_TRIP_CAUSE 0 = 0 ∧ t.power.cause = 0) ∧
      (¬ off → t.rget .TH_STAT 0 = s.rget .TH_STAT 0 ∧ t.power.cause = s.power.cause) ∧
      OnlyBits s t .TH_STAT 0 [F.TH_STAT_TRIP_CAUSE] ∧ Frame (oneReg .TH_STAT 0) [.power] s t)
end

