-- ==== Sys2Proof/Laws/Tables.lean ====
section
/-! SUPPORT. Laws of bit fields, sparse tables and byte memories: read after write, the other keys, the canonical form. -/

namespace Sys2Proof.Machine

/-! Bit fields -/

/-- A field reads what was set in it, modulo its width. -/
@[simp] theorem getBits_setBits_same (v : W64) (lo w x : Nat) (h : lo + w ≤ 64) :
    getBits (setBits v lo w x) lo w = x % 2 ^ w := by
  unfold getBits setBits fieldMask
  have e : BitVec.extractLsb' lo w
      ((v &&& ~~~ (BitVec.ofNat 64 (2 ^ w - 1) <<< lo)) ||| ((BitVec.ofNat 64 (x % 2 ^ w)) <<< lo)) = BitVec.ofNat w x := by
    apply BitVec.eq_of_getLsbD_eq
    intro i hi
    have h1 : lo + i < 64 := by omega
    have h2 : i < 64 := by omega
    have h3 : ¬ (lo + i < lo) := by omega
    have h4 : lo + i - lo = i := by omega
    simp only [BitVec.getLsbD_extractLsb', hi, BitVec.getLsbD_or, BitVec.getLsbD_and, BitVec.getLsbD_not,
      BitVec.getLsbD_shiftLeft, BitVec.getLsbD_ofNat, Nat.testBit_two_pow_sub_one, Nat.testBit_mod_two_pow, h1, h2, h3, h4]
    simp
  rw [e]; simp

/-- A field keeps its value when a field apart from it is set. -/
theorem getBits_setBits_other (v : W64) (lo w x lo' w' : Nat) (h : lo + w ≤ lo' ∨ lo' + w' ≤ lo) :
    getBits (setBits v lo w x) lo' w' = getBits v lo' w' := by
  unfold getBits setBits fieldMask
  congr 1
  apply BitVec.eq_of_getLsbD_eq
  intro i hi
  simp only [BitVec.getLsbD_extractLsb', hi, BitVec.getLsbD_or, BitVec.getLsbD_and, BitVec.getLsbD_not,
    BitVec.getLsbD_shiftLeft, BitVec.getLsbD_ofNat, Nat.testBit_two_pow_sub_one, Nat.testBit_mod_two_pow]
  by_cases h64 : lo' + i < 64
  · rcases h with h | h
    · have h1 : ¬ (lo' + i < lo) := by omega
      have h2 : ¬ (lo' + i - lo < w) := by omega
      simp [h1, h2, h64]
    · have h1 : lo' + i < lo := by omega
      simp [h1, h64]
  · have hz : v.getLsbD (lo' + i) = false := BitVec.getLsbD_of_ge _ _ (by omega)
    simp [hz, h64]

/-! Tables -/

section
variable {V : Type}

/-- An entry put is read back. -/
theorem tabGet_tabPut_same (d : V) (t : Tab V) (k : Nat) (v : V) : tabGet d (tabPut t k v) k = v := by
  induction t with
  | nil => simp [tabPut, tabGet]
  | cons e t ih =>
    obtain ⟨k', v'⟩ := e
    by_cases h1 : k < k'
    · simp [tabPut, h1, tabGet]
    · by_cases h2 : k = k'
      · simp [tabPut, h2, tabGet]
      · simp [tabPut, h1, h2, tabGet, ih]

/-- The other keys keep their values. -/
theorem tabGet_tabPut_other (d : V) (t : Tab V) (k j : Nat) (v : V) (h : j ≠ k) : tabGet d (tabPut t k v) j = tabGet d t j := by
  induction t with
  | nil => simp [tabPut, tabGet, h]
  | cons e t ih =>
    obtain ⟨k', v'⟩ := e
    by_cases h1 : k < k'
    · simp [tabPut, h1, tabGet, h]
    · by_cases h2 : k = k'
      · subst h2; simp [tabPut, tabGet, h]
      · by_cases h3 : j = k'
        · simp [tabPut, h1, h2, tabGet, h3]
        · simp [tabPut, h1, h2, tabGet, h3, ih]

/-- Removing one key leaves its default, and the other keys alone. -/
theorem tabGet_filter_key (d : V) (t : Tab V) (k j : Nat) :
    tabGet d (t.filter (fun e => e.1 ≠ k)) j = if j = k then d else tabGet d t j := by
  induction t with
  | nil => simp [tabGet]
  | cons e t ih =>
    obtain ⟨k', v'⟩ := e
    by_cases h : k' = k
    · subst h
      simp only [ne_eq, not_true_eq_false, decide_false, Bool.false_eq_true, not_false_eq_true, List.filter_cons_of_neg, ih]
      by_cases hj : j = k'
      · simp [hj]
      · simp [hj, tabGet]
    · have hk : decide (k' ≠ k) = true := by simp [h]
      rw [List.filter_cons_of_pos (by simpa using h)]
      by_cases hj : j = k'
      · subst hj; simp [tabGet, h]
      · simp only [tabGet, if_neg hj, ih]

variable [DecidableEq V]

/-- A key written reads back. -/
@[simp] theorem tabGet_tabSet_same (d : V) (t : Tab V) (k : Nat) (v : V) : tabGet d (tabSet d t k v) k = v := by
  unfold tabSet
  split
  · rename_i h; rw [tabGet_filter_key]; simp [h]
  · exact tabGet_tabPut_same d t k v

/-- A write of one key leaves every other key alone. -/
theorem tabGet_tabSet_other (d : V) (t : Tab V) (k j : Nat) (v : V) (h : j ≠ k) : tabGet d (tabSet d t k v) j = tabGet d t j := by
  unfold tabSet
  split
  · rw [tabGet_filter_key]; simp [h]
  · exact tabGet_tabPut_other d t k j v h

/-- A write of one key leaves every other key alone, whatever default the other key is read with. -/
theorem tabGet_tabSet_keep (d d' : V) (t : Tab V) (k j : Nat) (v : V) (h : j ≠ k) :
    tabGet d' (tabSet d t k v) j = tabGet d' t j := by
  unfold tabSet
  split
  · rw [tabGet_filter_key]; simp [h]
  · exact tabGet_tabPut_other d' t k j v h

omit [DecidableEq V] in
/-- Every key of `t` is above `k`. -/
def tabAbove (k : Nat) (t : Tab V) : Prop := ∀ e ∈ t, k < e.1

omit [DecidableEq V] in
/-- A table with rising keys is one whose first key is below the others, and whose rest has rising keys. -/
theorem tabSorted_cons (k : Nat) (v : V) (t : Tab V) :
    tabSorted ((k, v) :: t) = true ↔ tabAbove k t ∧ tabSorted t = true := by
  induction t generalizing k v with
  | nil => simp [tabSorted, tabAbove]
  | cons e t ih =>
    obtain ⟨k', v'⟩ := e
    simp only [tabSorted, Bool.and_eq_true, decide_eq_true_eq]
    constructor
    · rintro ⟨h1, h2⟩
      refine ⟨?_, h2⟩
      intro e he
      rcases List.mem_cons.1 he with rfl | he
      · exact h1
      · exact Nat.lt_trans h1 (((ih k' v').1 h2).1 e he)
    · rintro ⟨h1, h2⟩
      exact ⟨h1 (k', v') List.mem_cons_self, h2⟩

omit [DecidableEq V] in
/-- Removing entries keeps the keys rising. -/
theorem tabSorted_filter (p : Nat × V → Bool) (t : Tab V) (h : tabSorted t = true) : tabSorted (t.filter p) = true := by
  induction t with
  | nil => simp [tabSorted]
  | cons e t ih =>
    obtain ⟨k, v⟩ := e
    obtain ⟨h1, h2⟩ := (tabSorted_cons k v t).1 h
    by_cases hp : p (k, v) = true
    · rw [List.filter_cons_of_pos hp, tabSorted_cons]
      exact ⟨fun e he => h1 e (List.mem_of_mem_filter he), ih h2⟩
    · rw [List.filter_cons_of_neg hp]; exact ih h2

omit [DecidableEq V] in
/-- The entries of a table with one put are the new one and old ones. -/
theorem mem_tabPut (t : Tab V) (k : Nat) (v : V) (e : Nat × V) (h : e ∈ tabPut t k v) : e = (k, v) ∨ e ∈ t := by
  induction t with
  | nil => simpa [tabPut] using h
  | cons e' t ih =>
    obtain ⟨k', v'⟩ := e'
    by_cases h1 : k < k'
    · simp only [tabPut, if_pos h1] at h
      rcases List.mem_cons.1 h with h | h
      · exact .inl h
      · exact .inr h
    · by_cases h2 : k = k'
      · simp only [tabPut, if_neg h1, if_pos h2] at h
        rcases List.mem_cons.1 h with h | h
        · exact .inl h
        · exact .inr (List.mem_cons_of_mem _ h)
      · simp only [tabPut, if_neg h1, if_neg h2] at h
        rcases List.mem_cons.1 h with h | h
        · exact .inr (h ▸ List.mem_cons_self)
        · exact (ih h).imp_right (List.mem_cons_of_mem _)

omit [DecidableEq V] in
/-- Putting an entry keeps the keys rising. -/
theorem tabSorted_tabPut (t : Tab V) (k : Nat) (v : V) (h : tabSorted t = true) : tabSorted (tabPut t k v) = true := by
  induction t with
  | nil => simp [tabPut, tabSorted]
  | cons e t ih =>
    obtain ⟨k', v'⟩ := e
    obtain ⟨ha, hs⟩ := (tabSorted_cons k' v' t).1 h
    by_cases h1 : k < k'
    · rw [tabPut, if_pos h1, tabSorted_cons]
      refine ⟨?_, h⟩
      intro e he
      rcases List.mem_cons.1 he with rfl | he
      · exact h1
      · exact Nat.lt_trans h1 (ha e he)
    · by_cases h2 : k = k'
      · rw [tabPut, if_neg h1, if_pos h2, tabSorted_cons]
        exact ⟨h2 ▸ ha, hs⟩
      · rw [tabPut, if_neg h1, if_neg h2, tabSorted_cons]
        refine ⟨?_, ih hs⟩
        intro e he
        rcases mem_tabPut t k v e he with rfl | he
        · show k' < k; omega
        · exact ha e he

/-- A write keeps the canonical form of a table. -/
theorem tabWf_tabSet (d : V) (t : Tab V) (k : Nat) (v : V) (h : tabWf d t = true) : tabWf d (tabSet d t k v) = true := by
  unfold tabWf at *
  simp only [Bool.and_eq_true, List.all_eq_true, decide_eq_true_eq] at *
  obtain ⟨h1, h2⟩ := h
  unfold tabSet
  split
  · exact ⟨tabSorted_filter _ t h1, fun e he => h2 e (List.mem_of_mem_filter he)⟩
  · rename_i hv
    refine ⟨tabSorted_tabPut t k v h1, fun e he => ?_⟩
    rcases mem_tabPut t k v e he with rfl | he
    · exact hv
    · exact h2 e he

/-- Removing entries keeps the canonical form. -/
theorem tabWf_filter (d : V) (p : Nat × V → Bool) (t : Tab V) (h : tabWf d t = true) : tabWf d (t.filter p) = true := by
  unfold tabWf at *
  simp only [Bool.and_eq_true, List.all_eq_true, decide_eq_true_eq] at *
  exact ⟨tabSorted_filter p t h.1, fun e he => h.2 e (List.mem_of_mem_filter he)⟩

end

/-! Byte memories -/

/-- A byte written reads back. -/
@[simp] theorem memGet_memSet_same (m : Memory) (a : Nat) (b : Byte) : memGet (memSet m a b) a = b := tabGet_tabSet_same _ _ _ _

/-- A byte written leaves every other byte alone. -/
theorem memGet_memSet_other (m : Memory) (a x : Nat) (b : Byte) (h : x ≠ a) : memGet (memSet m a b) x = memGet m x :=
  tabGet_tabSet_other _ _ _ _ _ h

/-- Sorting keeps a list's members. -/
theorem mem_insertBy {α : Type} (le : α → α → Bool) (a x : α) (l : List α) : x ∈ insertBy le a l ↔ x = a ∨ x ∈ l := by
  induction l with
  | nil => simp [insertBy]
  | cons b l ih =>
    unfold insertBy
    split
    · simp
    · simp only [List.mem_cons, ih]
      constructor
      · rintro (h | h | h) <;> simp [h]
      · rintro (h | h | h) <;> simp [h]

theorem mem_sortBy {α : Type} (le : α → α → Bool) (x : α) (l : List α) : x ∈ sortBy le l ↔ x ∈ l := by
  induction l with
  | nil => simp [sortBy]
  | cons a l ih => rw [sortBy, List.foldr_cons, mem_insertBy, ← sortBy, ih, List.mem_cons]

/-- Bytes written read back at their addresses, and every other byte is left alone. -/
theorem memGet_memWrite (m : Memory) (a x : Nat) (bs : List Byte) :
    memGet (memWrite m a bs) x = if a ≤ x ∧ x < a + bs.length then bs.getD (x - a) 0 else memGet m x := by
  induction bs generalizing m a with
  | nil => simp [memWrite]
  | cons b bs ih =>
    rw [memWrite, ih]
    by_cases h1 : a + 1 ≤ x ∧ x < a + 1 + bs.length
    · rw [if_pos h1, if_pos (by simp; omega)]
      have : x - a = (x - (a + 1)) + 1 := by omega
      rw [this]; simp
    · rw [if_neg h1]
      by_cases h2 : x = a
      · subst h2; rw [memGet_memSet_same, if_pos (by simp)]; simp
      · rw [memGet_memSet_other _ _ _ _ h2, if_neg (by simp; omega)]

/-- One byte written keeps the canonical form. -/
theorem memWf_memSet (m : Memory) (a : Nat) (b : Byte) (h : memWf m = true) : memWf (memSet m a b) = true :=
  tabWf_tabSet _ _ _ _ h

/-- Bytes written keep the canonical form. -/
theorem memWf_memWrite (m : Memory) (a : Nat) (bs : List Byte) (h : memWf m = true) : memWf (memWrite m a bs) = true := by
  induction bs generalizing m a with
  | nil => exact h
  | cons b bs ih => exact ih _ _ (memWf_memSet m a b h)

/-- A number written keeps the canonical form. -/
theorem memWf_memPut (m : Memory) (a n x : Nat) (h : memWf m = true) : memWf (memPut m a n x) = true :=
  memWf_memWrite m a _ h

/-- A scrub keeps the canonical form. -/
theorem memWf_memClear (m : Memory) (a n : Nat) (h : memWf m = true) : memWf (memClear m a n) = true := tabWf_filter _ _ _ h

/-- A filter over addresses: what stays reads as before, what goes reads 0. -/
theorem memGet_filter (m : Memory) (q : Nat → Bool) (x : Nat) :
    memGet (m.filter (fun e => q e.1)) x = if q x then memGet m x else 0 := by
  unfold memGet
  induction m with
  | nil => simp [tabGet]
  | cons e m ih =>
    obtain ⟨k, v⟩ := e
    by_cases hq : q k = true
    · rw [List.filter_cons_of_pos (by simpa using hq)]
      by_cases hx : x = k
      · subst hx; simp [tabGet, hq]
      · simp only [tabGet, if_neg hx, ih]
    · rw [List.filter_cons_of_neg (by simpa using hq), ih]
      by_cases hx : x = k
      · subst hx; simp [hq]
      · simp only [tabGet, if_neg hx]

/-- A scrub returns its bytes to 0 and leaves the others alone. -/
theorem memGet_memClear (m : Memory) (a n x : Nat) :
    memGet (memClear m a n) x = if a ≤ x ∧ x < a + n then 0 else memGet m x := by
  have h := memGet_filter m (fun k => decide (¬ (a ≤ k ∧ k < a + n))) x
  unfold memClear
  rw [h]
  by_cases hx : a ≤ x ∧ x < a + n <;> simp [hx]

/-- A read of `n` bytes has `n` bytes. -/
@[simp] theorem memRead_length (m : Memory) (a n : Nat) : (memRead m a n).length = n := by
  induction n generalizing a with
  | zero => rfl
  | succ n ih => simp [memRead, ih]

/-- Bytes written are read back whole. -/
theorem memRead_memWrite_same (m : Memory) (a : Nat) (bs : List Byte) : memRead (memWrite m a bs) a bs.length = bs := by
  have key : ∀ (n k : Nat), k + n = bs.length → memRead (memWrite m a bs) (a + k) n = bs.drop k := by
    intro n
    induction n with
    | zero => intro k hk; simp [memRead, List.drop_of_length_le (Nat.le_of_eq (by omega : bs.length = k))]
    | succ n ih =>
      intro k hk
      have hlt : k < bs.length := by omega
      rw [memRead, memGet_memWrite, if_pos (by omega), Nat.add_assoc, ih (k + 1) (by omega), List.drop_eq_getElem_cons hlt]
      simp [hlt]
  simpa using key bs.length 0 (by simp)

end Sys2Proof.Machine
end

