-- ==== Sys2Proof/Laws/State.lean ====
section
/-! SUPPORT. What each update of the state leaves alone, one lemma per field per update, and what each accessor reads after
its own update. -/

namespace Sys2Proof.Machine
namespace State

variable (s : State)

/-! rset -/
@[simp] theorem rset_pending (r : Reg) (k : Nat) (v : W64) : (s.rset r k v).pending = s.pending := rfl
@[simp] theorem rset_tb (r : Reg) (k : Nat) (v : W64) : (s.rset r k v).tb = s.tb := rfl
@[simp] theorem rset_wrap (r : Reg) (k : Nat) (v : W64) : (s.rset r k v).wrap = s.wrap := rfl
@[simp] theorem rset_ticks (r : Reg) (k : Nat) (v : W64) : (s.rset r k v).ticks = s.ticks := rfl
@[simp] theorem rset_goodSyncs (r : Reg) (k : Nat) (v : W64) : (s.rset r k v).goodSyncs = s.goodSyncs := rfl
@[simp] theorem rset_servoStepped (r : Reg) (k : Nat) (v : W64) : (s.rset r k v).servoStepped = s.servoStepped := rfl
@[simp] theorem rset_bearings (r : Reg) (k : Nat) (v : W64) : (s.rset r k v).bearings = s.bearings := rfl
@[simp] theorem rset_entries (r : Reg) (k : Nat) (v : W64) : (s.rset r k v).entries = s.entries := rfl
@[simp] theorem rset_holds (r : Reg) (k : Nat) (v : W64) : (s.rset r k v).holds = s.holds := rfl
@[simp] theorem rset_windows (r : Reg) (k : Nat) (v : W64) : (s.rset r k v).windows = s.windows := rfl
@[simp] theorem rset_ports (r : Reg) (k : Nat) (v : W64) : (s.rset r k v).ports = s.ports := rfl
@[simp] theorem rset_descs (r : Reg) (k : Nat) (v : W64) : (s.rset r k v).descs = s.descs := rfl
@[simp] theorem rset_filters (r : Reg) (k : Nat) (v : W64) : (s.rset r k v).filters = s.filters := rfl
@[simp] theorem rset_meters (r : Reg) (k : Nat) (v : W64) : (s.rset r k v).meters = s.meters := rfl
@[simp] theorem rset_tokens (r : Reg) (k : Nat) (v : W64) : (s.rset r k v).tokens = s.tokens := rfl
@[simp] theorem rset_gates (r : Reg) (k : Nat) (v : W64) : (s.rset r k v).gates = s.gates := rfl
@[simp] theorem rset_pwms (r : Reg) (k : Nat) (v : W64) : (s.rset r k v).pwms = s.pwms := rfl
@[simp] theorem rset_pulses (r : Reg) (k : Nat) (v : W64) : (s.rset r k v).pulses = s.pulses := rfl
@[simp] theorem rset_groups (r : Reg) (k : Nat) (v : W64) : (s.rset r k v).groups = s.groups := rfl
@[simp] theorem rset_queues (r : Reg) (k : Nat) (v : W64) : (s.rset r k v).queues = s.queues := rfl
@[simp] theorem rset_txq (r : Reg) (k : Nat) (v : W64) : (s.rset r k v).txq = s.txq := rfl
@[simp] theorem rset_tags (r : Reg) (k : Nat) (v : W64) : (s.rset r k v).tags = s.tags := rfl
@[simp] theorem rset_smac (r : Reg) (k : Nat) (v : W64) : (s.rset r k v).smac = s.smac := rfl
@[simp] theorem rset_lastTag (r : Reg) (k : Nat) (v : W64) : (s.rset r k v).lastTag = s.lastTag := rfl
@[simp] theorem rset_rampUs (r : Reg) (k : Nat) (v : W64) : (s.rset r k v).rampUs = s.rampUs := rfl
@[simp] theorem rset_cmds (r : Reg) (k : Nat) (v : W64) : (s.rset r k v).cmds = s.cmds := rfl
@[simp] theorem rset_phases (r : Reg) (k : Nat) (v : W64) : (s.rset r k v).phases = s.phases := rfl
@[simp] theorem rset_mrs (r : Reg) (k : Nat) (v : W64) : (s.rset r k v).mrs = s.mrs := rfl
@[simp] theorem rset_unsig (r : Reg) (k : Nat) (v : W64) : (s.rset r k v).unsig = s.unsig := rfl
@[simp] theorem rset_progs (r : Reg) (k : Nat) (v : W64) : (s.rset r k v).progs = s.progs := rfl
@[simp] theorem rset_runs (r : Reg) (k : Nat) (v : W64) : (s.rset r k v).runs = s.runs := rfl
@[simp] theorem rset_nextRun (r : Reg) (k : Nat) (v : W64) : (s.rset r k v).nextRun = s.nextRun := rfl
@[simp] theorem rset_nextProg (r : Reg) (k : Nat) (v : W64) : (s.rset r k v).nextProg = s.nextProg := rfl
@[simp] theorem rset_tiles (r : Reg) (k : Nat) (v : W64) : (s.rset r k v).tiles = s.tiles := rfl
@[simp] theorem rset_stays (r : Reg) (k : Nat) (v : W64) : (s.rset r k v).stays = s.stays := rfl
@[simp] theorem rset_scales (r : Reg) (k : Nat) (v : W64) : (s.rset r k v).scales = s.scales := rfl
@[simp] theorem rset_deck (r : Reg) (k : Nat) (v : W64) : (s.rset r k v).deck = s.deck := rfl
@[simp] theorem rset_full (r : Reg) (k : Nat) (v : W64) : (s.rset r k v).full = s.full := rfl
@[simp] theorem rset_waiters (r : Reg) (k : Nat) (v : W64) : (s.rset r k v).waiters = s.waiters := rfl
@[simp] theorem rset_hbm (r : Reg) (k : Nat) (v : W64) : (s.rset r k v).hbm = s.hbm := rfl
@[simp] theorem rset_poisoned (r : Reg) (k : Nat) (v : W64) : (s.rset r k v).poisoned = s.poisoned := rfl
@[simp] theorem rset_host (r : Reg) (k : Nat) (v : W64) : (s.rset r k v).host = s.host := rfl
@[simp] theorem rset_resUsed (r : Reg) (k : Nat) (v : W64) : (s.rset r k v).resUsed = s.resUsed := rfl
@[simp] theorem rset_ceilUsed (r : Reg) (k : Nat) (v : W64) : (s.rset r k v).ceilUsed = s.ceilUsed := rfl
@[simp] theorem rset_turnPart (r : Reg) (k : Nat) (v : W64) : (s.rset r k v).turnPart = s.turnPart := rfl
@[simp] theorem rset_turnRing (r : Reg) (k : Nat) (v : W64) : (s.rset r k v).turnRing = s.turnRing := rfl
@[simp] theorem rset_fedOut (r : Reg) (k : Nat) (v : W64) : (s.rset r k v).fedOut = s.fedOut := rfl
@[simp] theorem rset_held (r : Reg) (k : Nat) (v : W64) : (s.rset r k v).held = s.held := rfl
@[simp] theorem rset_turnRsv (r : Reg) (k : Nat) (v : W64) : (s.rset r k v).turnRsv = s.turnRsv := rfl
@[simp] theorem rset_turnExc (r : Reg) (k : Nat) (v : W64) : (s.rset r k v).turnExc = s.turnExc := rfl
@[simp] theorem rset_deckCe (r : Reg) (k : Nat) (v : W64) : (s.rset r k v).deckCe = s.deckCe := rfl
@[simp] theorem rset_ceDue (r : Reg) (k : Nat) (v : W64) : (s.rset r k v).ceDue = s.ceDue := rfl
@[simp] theorem rset_credits (r : Reg) (k : Nat) (v : W64) : (s.rset r k v).credits = s.credits := rfl
@[simp] theorem rset_replays (r : Reg) (k : Nat) (v : W64) : (s.rset r k v).replays = s.replays := rfl
@[simp] theorem rset_atomicSeq (r : Reg) (k : Nat) (v : W64) : (s.rset r k v).atomicSeq = s.atomicSeq := rfl
@[simp] theorem rset_hashLast (r : Reg) (k : Nat) (v : W64) : (s.rset r k v).hashLast = s.hashLast := rfl
@[simp] theorem rset_config (r : Reg) (k : Nat) (v : W64) : (s.rset r k v).config = s.config := rfl
@[simp] theorem rset_commit (r : Reg) (k : Nat) (v : W64) : (s.rset r k v).commit = s.commit := rfl
@[simp] theorem rset_degradedRes (r : Reg) (k : Nat) (v : W64) : (s.rset r k v).degradedRes = s.degradedRes := rfl
@[simp] theorem rset_faults (r : Reg) (k : Nat) (v : W64) : (s.rset r k v).faults = s.faults := rfl
@[simp] theorem rset_evPhase (r : Reg) (k : Nat) (v : W64) : (s.rset r k v).evPhase = s.evPhase := rfl
@[simp] theorem rset_evLost (r : Reg) (k : Nat) (v : W64) : (s.rset r k v).evLost = s.evLost := rfl
@[simp] theorem rset_evHeld (r : Reg) (k : Nat) (v : W64) : (s.rset r k v).evHeld = s.evHeld := rfl
@[simp] theorem rset_ceNow (r : Reg) (k : Nat) (v : W64) : (s.rset r k v).ceNow = s.ceNow := rfl
@[simp] theorem rset_peerMasks (r : Reg) (k : Nat) (v : W64) : (s.rset r k v).peerMasks = s.peerMasks := rfl
@[simp] theorem rset_conflicts (r : Reg) (k : Nat) (v : W64) : (s.rset r k v).conflicts = s.conflicts := rfl
@[simp] theorem rset_restores (r : Reg) (k : Nat) (v : W64) : (s.rset r k v).restores = s.restores := rfl
@[simp] theorem rset_applied (r : Reg) (k : Nat) (v : W64) : (s.rset r k v).applied = s.applied := rfl
@[simp] theorem rset_digests (r : Reg) (k : Nat) (v : W64) : (s.rset r k v).digests = s.digests := rfl
@[simp] theorem rset_trace (r : Reg) (k : Nat) (v : W64) : (s.rset r k v).trace = s.trace := rfl
@[simp] theorem rset_fuses (r : Reg) (k : Nat) (v : W64) : (s.rset r k v).fuses = s.fuses := rfl
@[simp] theorem rset_bankA (r : Reg) (k : Nat) (v : W64) : (s.rset r k v).bankA = s.bankA := rfl
@[simp] theorem rset_bankB (r : Reg) (k : Nat) (v : W64) : (s.rset r k v).bankB = s.bankB := rfl
@[simp] theorem rset_reverted (r : Reg) (k : Nat) (v : W64) : (s.rset r k v).reverted = s.reverted := rfl
@[simp] theorem rset_fallback (r : Reg) (k : Nat) (v : W64) : (s.rset r k v).fallback = s.fallback := rfl
@[simp] theorem rset_swStart (r : Reg) (k : Nat) (v : W64) : (s.rset r k v).swStart = s.swStart := rfl
@[simp] theorem rset_policies (r : Reg) (k : Nat) (v : W64) : (s.rset r k v).policies = s.policies := rfl
@[simp] theorem rset_scrubs (r : Reg) (k : Nat) (v : W64) : (s.rset r k v).scrubs = s.scrubs := rfl
@[simp] theorem rset_scrubInfo (r : Reg) (k : Nat) (v : W64) : (s.rset r k v).scrubInfo = s.scrubInfo := rfl
@[simp] theorem rset_hashes (r : Reg) (k : Nat) (v : W64) : (s.rset r k v).hashes = s.hashes := rfl
@[simp] theorem rset_spdm (r : Reg) (k : Nat) (v : W64) : (s.rset r k v).spdm = s.spdm := rfl
@[simp] theorem rset_ide (r : Reg) (k : Nat) (v : W64) : (s.rset r k v).ide = s.ide := rfl
@[simp] theorem rset_csCtx (r : Reg) (k : Nat) (v : W64) : (s.rset r k v).csCtx = s.csCtx := rfl
@[simp] theorem rset_vault (r : Reg) (k : Nat) (v : W64) : (s.rset r k v).vault = s.vault := rfl
@[simp] theorem rset_vaultBad (r : Reg) (k : Nat) (v : W64) : (s.rset r k v).vaultBad = s.vaultBad := rfl
@[simp] theorem rset_thermal (r : Reg) (k : Nat) (v : W64) : (s.rset r k v).thermal = s.thermal := rfl
@[simp] theorem rset_power (r : Reg) (k : Nat) (v : W64) : (s.rset r k v).power = s.power := rfl
@[simp] theorem rset_jtag (r : Reg) (k : Nat) (v : W64) : (s.rset r k v).jtag = s.jtag := rfl
@[simp] theorem rset_outs (r : Reg) (k : Nat) (v : W64) : (s.rset r k v).outs = s.outs := rfl
@[simp] theorem rset_draws (r : Reg) (k : Nat) (v : W64) : (s.rset r k v).draws = s.draws := rfl
/-! rreset -/
@[simp] theorem rreset_pending (r : Reg) (k : Nat) : (s.rreset r k).pending = s.pending := rfl
@[simp] theorem rreset_tb (r : Reg) (k : Nat) : (s.rreset r k).tb = s.tb := rfl
@[simp] theorem rreset_wrap (r : Reg) (k : Nat) : (s.rreset r k).wrap = s.wrap := rfl
@[simp] theorem rreset_ticks (r : Reg) (k : Nat) : (s.rreset r k).ticks = s.ticks := rfl
@[simp] theorem rreset_goodSyncs (r : Reg) (k : Nat) : (s.rreset r k).goodSyncs = s.goodSyncs := rfl
@[simp] theorem rreset_servoStepped (r : Reg) (k : Nat) : (s.rreset r k).servoStepped = s.servoStepped := rfl
@[simp] theorem rreset_bearings (r : Reg) (k : Nat) : (s.rreset r k).bearings = s.bearings := rfl
@[simp] theorem rreset_entries (r : Reg) (k : Nat) : (s.rreset r k).entries = s.entries := rfl
@[simp] theorem rreset_holds (r : Reg) (k : Nat) : (s.rreset r k).holds = s.holds := rfl
@[simp] theorem rreset_windows (r : Reg) (k : Nat) : (s.rreset r k).windows = s.windows := rfl
@[simp] theorem rreset_ports (r : Reg) (k : Nat) : (s.rreset r k).ports = s.ports := rfl
@[simp] theorem rreset_descs (r : Reg) (k : Nat) : (s.rreset r k).descs = s.descs := rfl
@[simp] theorem rreset_filters (r : Reg) (k : Nat) : (s.rreset r k).filters = s.filters := rfl
@[simp] theorem rreset_meters (r : Reg) (k : Nat) : (s.rreset r k).meters = s.meters := rfl
@[simp] theorem rreset_tokens (r : Reg) (k : Nat) : (s.rreset r k).tokens = s.tokens := rfl
@[simp] theorem rreset_gates (r : Reg) (k : Nat) : (s.rreset r k).gates = s.gates := rfl
@[simp] theorem rreset_pwms (r : Reg) (k : Nat) : (s.rreset r k).pwms = s.pwms := rfl
@[simp] theorem rreset_pulses (r : Reg) (k : Nat) : (s.rreset r k).pulses = s.pulses := rfl
@[simp] theorem rreset_groups (r : Reg) (k : Nat) : (s.rreset r k).groups = s.groups := rfl
@[simp] theorem rreset_queues (r : Reg) (k : Nat) : (s.rreset r k).queues = s.queues := rfl
@[simp] theorem rreset_txq (r : Reg) (k : Nat) : (s.rreset r k).txq = s.txq := rfl
@[simp] theorem rreset_tags (r : Reg) (k : Nat) : (s.rreset r k).tags = s.tags := rfl
@[simp] theorem rreset_smac (r : Reg) (k : Nat) : (s.rreset r k).smac = s.smac := rfl
@[simp] theorem rreset_lastTag (r : Reg) (k : Nat) : (s.rreset r k).lastTag = s.lastTag := rfl
@[simp] theorem rreset_rampUs (r : Reg) (k : Nat) : (s.rreset r k).rampUs = s.rampUs := rfl
@[simp] theorem rreset_cmds (r : Reg) (k : Nat) : (s.rreset r k).cmds = s.cmds := rfl
@[simp] theorem rreset_phases (r : Reg) (k : Nat) : (s.rreset r k).phases = s.phases := rfl
@[simp] theorem rreset_mrs (r : Reg) (k : Nat) : (s.rreset r k).mrs = s.mrs := rfl
@[simp] theorem rreset_unsig (r : Reg) (k : Nat) : (s.rreset r k).unsig = s.unsig := rfl
@[simp] theorem rreset_progs (r : Reg) (k : Nat) : (s.rreset r k).progs = s.progs := rfl
@[simp] theorem rreset_runs (r : Reg) (k : Nat) : (s.rreset r k).runs = s.runs := rfl
@[simp] theorem rreset_nextRun (r : Reg) (k : Nat) : (s.rreset r k).nextRun = s.nextRun := rfl
@[simp] theorem rreset_nextProg (r : Reg) (k : Nat) : (s.rreset r k).nextProg = s.nextProg := rfl
@[simp] theorem rreset_tiles (r : Reg) (k : Nat) : (s.rreset r k).tiles = s.tiles := rfl
@[simp] theorem rreset_stays (r : Reg) (k : Nat) : (s.rreset r k).stays = s.stays := rfl
@[simp] theorem rreset_scales (r : Reg) (k : Nat) : (s.rreset r k).scales = s.scales := rfl
@[simp] theorem rreset_deck (r : Reg) (k : Nat) : (s.rreset r k).deck = s.deck := rfl
@[simp] theorem rreset_full (r : Reg) (k : Nat) : (s.rreset r k).full = s.full := rfl
@[simp] theorem rreset_waiters (r : Reg) (k : Nat) : (s.rreset r k).waiters = s.waiters := rfl
@[simp] theorem rreset_hbm (r : Reg) (k : Nat) : (s.rreset r k).hbm = s.hbm := rfl
@[simp] theorem rreset_poisoned (r : Reg) (k : Nat) : (s.rreset r k).poisoned = s.poisoned := rfl
@[simp] theorem rreset_host (r : Reg) (k : Nat) : (s.rreset r k).host = s.host := rfl
@[simp] theorem rreset_resUsed (r : Reg) (k : Nat) : (s.rreset r k).resUsed = s.resUsed := rfl
@[simp] theorem rreset_ceilUsed (r : Reg) (k : Nat) : (s.rreset r k).ceilUsed = s.ceilUsed := rfl
@[simp] theorem rreset_turnPart (r : Reg) (k : Nat) : (s.rreset r k).turnPart = s.turnPart := rfl
@[simp] theorem rreset_turnRing (r : Reg) (k : Nat) : (s.rreset r k).turnRing = s.turnRing := rfl
@[simp] theorem rreset_fedOut (r : Reg) (k : Nat) : (s.rreset r k).fedOut = s.fedOut := rfl
@[simp] theorem rreset_held (r : Reg) (k : Nat) : (s.rreset r k).held = s.held := rfl
@[simp] theorem rreset_turnRsv (r : Reg) (k : Nat) : (s.rreset r k).turnRsv = s.turnRsv := rfl
@[simp] theorem rreset_turnExc (r : Reg) (k : Nat) : (s.rreset r k).turnExc = s.turnExc := rfl
@[simp] theorem rreset_deckCe (r : Reg) (k : Nat) : (s.rreset r k).deckCe = s.deckCe := rfl
@[simp] theorem rreset_ceDue (r : Reg) (k : Nat) : (s.rreset r k).ceDue = s.ceDue := rfl
@[simp] theorem rreset_credits (r : Reg) (k : Nat) : (s.rreset r k).credits = s.credits := rfl
@[simp] theorem rreset_replays (r : Reg) (k : Nat) : (s.rreset r k).replays = s.replays := rfl
@[simp] theorem rreset_atomicSeq (r : Reg) (k : Nat) : (s.rreset r k).atomicSeq = s.atomicSeq := rfl
@[simp] theorem rreset_hashLast (r : Reg) (k : Nat) : (s.rreset r k).hashLast = s.hashLast := rfl
@[simp] theorem rreset_config (r : Reg) (k : Nat) : (s.rreset r k).config = s.config := rfl
@[simp] theorem rreset_commit (r : Reg) (k : Nat) : (s.rreset r k).commit = s.commit := rfl
@[simp] theorem rreset_degradedRes (r : Reg) (k : Nat) : (s.rreset r k).degradedRes = s.degradedRes := rfl
@[simp] theorem rreset_faults (r : Reg) (k : Nat) : (s.rreset r k).faults = s.faults := rfl
@[simp] theorem rreset_evPhase (r : Reg) (k : Nat) : (s.rreset r k).evPhase = s.evPhase := rfl
@[simp] theorem rreset_evLost (r : Reg) (k : Nat) : (s.rreset r k).evLost = s.evLost := rfl
@[simp] theorem rreset_evHeld (r : Reg) (k : Nat) : (s.rreset r k).evHeld = s.evHeld := rfl
@[simp] theorem rreset_ceNow (r : Reg) (k : Nat) : (s.rreset r k).ceNow = s.ceNow := rfl
@[simp] theorem rreset_peerMasks (r : Reg) (k : Nat) : (s.rreset r k).peerMasks = s.peerMasks := rfl
@[simp] theorem rreset_conflicts (r : Reg) (k : Nat) : (s.rreset r k).conflicts = s.conflicts := rfl
@[simp] theorem rreset_restores (r : Reg) (k : Nat) : (s.rreset r k).restores = s.restores := rfl
@[simp] theorem rreset_applied (r : Reg) (k : Nat) : (s.rreset r k).applied = s.applied := rfl
@[simp] theorem rreset_digests (r : Reg) (k : Nat) : (s.rreset r k).digests = s.digests := rfl
@[simp] theorem rreset_trace (r : Reg) (k : Nat) : (s.rreset r k).trace = s.trace := rfl
@[simp] theorem rreset_fuses (r : Reg) (k : Nat) : (s.rreset r k).fuses = s.fuses := rfl
@[simp] theorem rreset_bankA (r : Reg) (k : Nat) : (s.rreset r k).bankA = s.bankA := rfl
@[simp] theorem rreset_bankB (r : Reg) (k : Nat) : (s.rreset r k).bankB = s.bankB := rfl
@[simp] theorem rreset_reverted (r : Reg) (k : Nat) : (s.rreset r k).reverted = s.reverted := rfl
@[simp] theorem rreset_fallback (r : Reg) (k : Nat) : (s.rreset r k).fallback = s.fallback := rfl
@[simp] theorem rreset_swStart (r : Reg) (k : Nat) : (s.rreset r k).swStart = s.swStart := rfl
@[simp] theorem rreset_policies (r : Reg) (k : Nat) : (s.rreset r k).policies = s.policies := rfl
@[simp] theorem rreset_scrubs (r : Reg) (k : Nat) : (s.rreset r k).scrubs = s.scrubs := rfl
@[simp] theorem rreset_scrubInfo (r : Reg) (k : Nat) : (s.rreset r k).scrubInfo = s.scrubInfo := rfl
@[simp] theorem rreset_hashes (r : Reg) (k : Nat) : (s.rreset r k).hashes = s.hashes := rfl
@[simp] theorem rreset_spdm (r : Reg) (k : Nat) : (s.rreset r k).spdm = s.spdm := rfl
@[simp] theorem rreset_ide (r : Reg) (k : Nat) : (s.rreset r k).ide = s.ide := rfl
@[simp] theorem rreset_csCtx (r : Reg) (k : Nat) : (s.rreset r k).csCtx = s.csCtx := rfl
@[simp] theorem rreset_vault (r : Reg) (k : Nat) : (s.rreset r k).vault = s.vault := rfl
@[simp] theorem rreset_vaultBad (r : Reg) (k : Nat) : (s.rreset r k).vaultBad = s.vaultBad := rfl
@[simp] theorem rreset_thermal (r : Reg) (k : Nat) : (s.rreset r k).thermal = s.thermal := rfl
@[simp] theorem rreset_power (r : Reg) (k : Nat) : (s.rreset r k).power = s.power := rfl
@[simp] theorem rreset_jtag (r : Reg) (k : Nat) : (s.rreset r k).jtag = s.jtag := rfl
@[simp] theorem rreset_outs (r : Reg) (k : Nat) : (s.rreset r k).outs = s.outs := rfl
@[simp] theorem rreset_draws (r : Reg) (k : Nat) : (s.rreset r k).draws = s.draws := rfl
/-! fset -/
@[simp] theorem fset_pending (f : Fld) (k v : Nat) : (s.fset f k v).pending = s.pending := rfl
@[simp] theorem fset_tb (f : Fld) (k v : Nat) : (s.fset f k v).tb = s.tb := rfl
@[simp] theorem fset_wrap (f : Fld) (k v : Nat) : (s.fset f k v).wrap = s.wrap := rfl
@[simp] theorem fset_ticks (f : Fld) (k v : Nat) : (s.fset f k v).ticks = s.ticks := rfl
@[simp] theorem fset_goodSyncs (f : Fld) (k v : Nat) : (s.fset f k v).goodSyncs = s.goodSyncs := rfl
@[simp] theorem fset_servoStepped (f : Fld) (k v : Nat) : (s.fset f k v).servoStepped = s.servoStepped := rfl
@[simp] theorem fset_bearings (f : Fld) (k v : Nat) : (s.fset f k v).bearings = s.bearings := rfl
@[simp] theorem fset_entries (f : Fld) (k v : Nat) : (s.fset f k v).entries = s.entries := rfl
@[simp] theorem fset_holds (f : Fld) (k v : Nat) : (s.fset f k v).holds = s.holds := rfl
@[simp] theorem fset_windows (f : Fld) (k v : Nat) : (s.fset f k v).windows = s.windows := rfl
@[simp] theorem fset_ports (f : Fld) (k v : Nat) : (s.fset f k v).ports = s.ports := rfl
@[simp] theorem fset_descs (f : Fld) (k v : Nat) : (s.fset f k v).descs = s.descs := rfl
@[simp] theorem fset_filters (f : Fld) (k v : Nat) : (s.fset f k v).filters = s.filters := rfl
@[simp] theorem fset_meters (f : Fld) (k v : Nat) : (s.fset f k v).meters = s.meters := rfl
@[simp] theorem fset_tokens (f : Fld) (k v : Nat) : (s.fset f k v).tokens = s.tokens := rfl
@[simp] theorem fset_gates (f : Fld) (k v : Nat) : (s.fset f k v).gates = s.gates := rfl
@[simp] theorem fset_pwms (f : Fld) (k v : Nat) : (s.fset f k v).pwms = s.pwms := rfl
@[simp] theorem fset_pulses (f : Fld) (k v : Nat) : (s.fset f k v).pulses = s.pulses := rfl
@[simp] theorem fset_groups (f : Fld) (k v : Nat) : (s.fset f k v).groups = s.groups := rfl
@[simp] theorem fset_queues (f : Fld) (k v : Nat) : (s.fset f k v).queues = s.queues := rfl
@[simp] theorem fset_txq (f : Fld) (k v : Nat) : (s.fset f k v).txq = s.txq := rfl
@[simp] theorem fset_tags (f : Fld) (k v : Nat) : (s.fset f k v).tags = s.tags := rfl
@[simp] theorem fset_smac (f : Fld) (k v : Nat) : (s.fset f k v).smac = s.smac := rfl
@[simp] theorem fset_lastTag (f : Fld) (k v : Nat) : (s.fset f k v).lastTag = s.lastTag := rfl
@[simp] theorem fset_rampUs (f : Fld) (k v : Nat) : (s.fset f k v).rampUs = s.rampUs := rfl
@[simp] theorem fset_cmds (f : Fld) (k v : Nat) : (s.fset f k v).cmds = s.cmds := rfl
@[simp] theorem fset_phases (f : Fld) (k v : Nat) : (s.fset f k v).phases = s.phases := rfl
@[simp] theorem fset_mrs (f : Fld) (k v : Nat) : (s.fset f k v).mrs = s.mrs := rfl
@[simp] theorem fset_unsig (f : Fld) (k v : Nat) : (s.fset f k v).unsig = s.unsig := rfl
@[simp] theorem fset_progs (f : Fld) (k v : Nat) : (s.fset f k v).progs = s.progs := rfl
@[simp] theorem fset_runs (f : Fld) (k v : Nat) : (s.fset f k v).runs = s.runs := rfl
@[simp] theorem fset_nextRun (f : Fld) (k v : Nat) : (s.fset f k v).nextRun = s.nextRun := rfl
@[simp] theorem fset_nextProg (f : Fld) (k v : Nat) : (s.fset f k v).nextProg = s.nextProg := rfl
@[simp] theorem fset_tiles (f : Fld) (k v : Nat) : (s.fset f k v).tiles = s.tiles := rfl
@[simp] theorem fset_stays (f : Fld) (k v : Nat) : (s.fset f k v).stays = s.stays := rfl
@[simp] theorem fset_scales (f : Fld) (k v : Nat) : (s.fset f k v).scales = s.scales := rfl
@[simp] theorem fset_deck (f : Fld) (k v : Nat) : (s.fset f k v).deck = s.deck := rfl
@[simp] theorem fset_full (f : Fld) (k v : Nat) : (s.fset f k v).full = s.full := rfl
@[simp] theorem fset_waiters (f : Fld) (k v : Nat) : (s.fset f k v).waiters = s.waiters := rfl
@[simp] theorem fset_hbm (f : Fld) (k v : Nat) : (s.fset f k v).hbm = s.hbm := rfl
@[simp] theorem fset_poisoned (f : Fld) (k v : Nat) : (s.fset f k v).poisoned = s.poisoned := rfl
@[simp] theorem fset_host (f : Fld) (k v : Nat) : (s.fset f k v).host = s.host := rfl
@[simp] theorem fset_resUsed (f : Fld) (k v : Nat) : (s.fset f k v).resUsed = s.resUsed := rfl
@[simp] theorem fset_ceilUsed (f : Fld) (k v : Nat) : (s.fset f k v).ceilUsed = s.ceilUsed := rfl
@[simp] theorem fset_turnPart (f : Fld) (k v : Nat) : (s.fset f k v).turnPart = s.turnPart := rfl
@[simp] theorem fset_turnRing (f : Fld) (k v : Nat) : (s.fset f k v).turnRing = s.turnRing := rfl
@[simp] theorem fset_fedOut (f : Fld) (k v : Nat) : (s.fset f k v).fedOut = s.fedOut := rfl
@[simp] theorem fset_held (f : Fld) (k v : Nat) : (s.fset f k v).held = s.held := rfl
@[simp] theorem fset_turnRsv (f : Fld) (k v : Nat) : (s.fset f k v).turnRsv = s.turnRsv := rfl
@[simp] theorem fset_turnExc (f : Fld) (k v : Nat) : (s.fset f k v).turnExc = s.turnExc := rfl
@[simp] theorem fset_deckCe (f : Fld) (k v : Nat) : (s.fset f k v).deckCe = s.deckCe := rfl
@[simp] theorem fset_ceDue (f : Fld) (k v : Nat) : (s.fset f k v).ceDue = s.ceDue := rfl
@[simp] theorem fset_credits (f : Fld) (k v : Nat) : (s.fset f k v).credits = s.credits := rfl
@[simp] theorem fset_replays (f : Fld) (k v : Nat) : (s.fset f k v).replays = s.replays := rfl
@[simp] theorem fset_atomicSeq (f : Fld) (k v : Nat) : (s.fset f k v).atomicSeq = s.atomicSeq := rfl
@[simp] theorem fset_hashLast (f : Fld) (k v : Nat) : (s.fset f k v).hashLast = s.hashLast := rfl
@[simp] theorem fset_config (f : Fld) (k v : Nat) : (s.fset f k v).config = s.config := rfl
@[simp] theorem fset_commit (f : Fld) (k v : Nat) : (s.fset f k v).commit = s.commit := rfl
@[simp] theorem fset_degradedRes (f : Fld) (k v : Nat) : (s.fset f k v).degradedRes = s.degradedRes := rfl
@[simp] theorem fset_faults (f : Fld) (k v : Nat) : (s.fset f k v).faults = s.faults := rfl
@[simp] theorem fset_evPhase (f : Fld) (k v : Nat) : (s.fset f k v).evPhase = s.evPhase := rfl
@[simp] theorem fset_evLost (f : Fld) (k v : Nat) : (s.fset f k v).evLost = s.evLost := rfl
@[simp] theorem fset_evHeld (f : Fld) (k v : Nat) : (s.fset f k v).evHeld = s.evHeld := rfl
@[simp] theorem fset_ceNow (f : Fld) (k v : Nat) : (s.fset f k v).ceNow = s.ceNow := rfl
@[simp] theorem fset_peerMasks (f : Fld) (k v : Nat) : (s.fset f k v).peerMasks = s.peerMasks := rfl
@[simp] theorem fset_conflicts (f : Fld) (k v : Nat) : (s.fset f k v).conflicts = s.conflicts := rfl
@[simp] theorem fset_restores (f : Fld) (k v : Nat) : (s.fset f k v).restores = s.restores := rfl
@[simp] theorem fset_applied (f : Fld) (k v : Nat) : (s.fset f k v).applied = s.applied := rfl
@[simp] theorem fset_digests (f : Fld) (k v : Nat) : (s.fset f k v).digests = s.digests := rfl
@[simp] theorem fset_trace (f : Fld) (k v : Nat) : (s.fset f k v).trace = s.trace := rfl
@[simp] theorem fset_fuses (f : Fld) (k v : Nat) : (s.fset f k v).fuses = s.fuses := rfl
@[simp] theorem fset_bankA (f : Fld) (k v : Nat) : (s.fset f k v).bankA = s.bankA := rfl
@[simp] theorem fset_bankB (f : Fld) (k v : Nat) : (s.fset f k v).bankB = s.bankB := rfl
@[simp] theorem fset_reverted (f : Fld) (k v : Nat) : (s.fset f k v).reverted = s.reverted := rfl
@[simp] theorem fset_fallback (f : Fld) (k v : Nat) : (s.fset f k v).fallback = s.fallback := rfl
@[simp] theorem fset_swStart (f : Fld) (k v : Nat) : (s.fset f k v).swStart = s.swStart := rfl
@[simp] theorem fset_policies (f : Fld) (k v : Nat) : (s.fset f k v).policies = s.policies := rfl
@[simp] theorem fset_scrubs (f : Fld) (k v : Nat) : (s.fset f k v).scrubs = s.scrubs := rfl
@[simp] theorem fset_scrubInfo (f : Fld) (k v : Nat) : (s.fset f k v).scrubInfo = s.scrubInfo := rfl
@[simp] theorem fset_hashes (f : Fld) (k v : Nat) : (s.fset f k v).hashes = s.hashes := rfl
@[simp] theorem fset_spdm (f : Fld) (k v : Nat) : (s.fset f k v).spdm = s.spdm := rfl
@[simp] theorem fset_ide (f : Fld) (k v : Nat) : (s.fset f k v).ide = s.ide := rfl
@[simp] theorem fset_csCtx (f : Fld) (k v : Nat) : (s.fset f k v).csCtx = s.csCtx := rfl
@[simp] theorem fset_vault (f : Fld) (k v : Nat) : (s.fset f k v).vault = s.vault := rfl
@[simp] theorem fset_vaultBad (f : Fld) (k v : Nat) : (s.fset f k v).vaultBad = s.vaultBad := rfl
@[simp] theorem fset_thermal (f : Fld) (k v : Nat) : (s.fset f k v).thermal = s.thermal := rfl
@[simp] theorem fset_power (f : Fld) (k v : Nat) : (s.fset f k v).power = s.power := rfl
@[simp] theorem fset_jtag (f : Fld) (k v : Nat) : (s.fset f k v).jtag = s.jtag := rfl
@[simp] theorem fset_outs (f : Fld) (k v : Nat) : (s.fset f k v).outs = s.outs := rfl
@[simp] theorem fset_draws (f : Fld) (k v : Nat) : (s.fset f k v).draws = s.draws := rfl
/-! fadd -/
@[simp] theorem fadd_pending (f : Fld) (k n : Nat) : (s.fadd f k n).pending = s.pending := rfl
@[simp] theorem fadd_tb (f : Fld) (k n : Nat) : (s.fadd f k n).tb = s.tb := rfl
@[simp] theorem fadd_wrap (f : Fld) (k n : Nat) : (s.fadd f k n).wrap = s.wrap := rfl
@[simp] theorem fadd_ticks (f : Fld) (k n : Nat) : (s.fadd f k n).ticks = s.ticks := rfl
@[simp] theorem fadd_goodSyncs (f : Fld) (k n : Nat) : (s.fadd f k n).goodSyncs = s.goodSyncs := rfl
@[simp] theorem fadd_servoStepped (f : Fld) (k n : Nat) : (s.fadd f k n).servoStepped = s.servoStepped := rfl
@[simp] theorem fadd_bearings (f : Fld) (k n : Nat) : (s.fadd f k n).bearings = s.bearings := rfl
@[simp] theorem fadd_entries (f : Fld) (k n : Nat) : (s.fadd f k n).entries = s.entries := rfl
@[simp] theorem fadd_holds (f : Fld) (k n : Nat) : (s.fadd f k n).holds = s.holds := rfl
@[simp] theorem fadd_windows (f : Fld) (k n : Nat) : (s.fadd f k n).windows = s.windows := rfl
@[simp] theorem fadd_ports (f : Fld) (k n : Nat) : (s.fadd f k n).ports = s.ports := rfl
@[simp] theorem fadd_descs (f : Fld) (k n : Nat) : (s.fadd f k n).descs = s.descs := rfl
@[simp] theorem fadd_filters (f : Fld) (k n : Nat) : (s.fadd f k n).filters = s.filters := rfl
@[simp] theorem fadd_meters (f : Fld) (k n : Nat) : (s.fadd f k n).meters = s.meters := rfl
@[simp] theorem fadd_tokens (f : Fld) (k n : Nat) : (s.fadd f k n).tokens = s.tokens := rfl
@[simp] theorem fadd_gates (f : Fld) (k n : Nat) : (s.fadd f k n).gates = s.gates := rfl
@[simp] theorem fadd_pwms (f : Fld) (k n : Nat) : (s.fadd f k n).pwms = s.pwms := rfl
@[simp] theorem fadd_pulses (f : Fld) (k n : Nat) : (s.fadd f k n).pulses = s.pulses := rfl
@[simp] theorem fadd_groups (f : Fld) (k n : Nat) : (s.fadd f k n).groups = s.groups := rfl
@[simp] theorem fadd_queues (f : Fld) (k n : Nat) : (s.fadd f k n).queues = s.queues := rfl
@[simp] theorem fadd_txq (f : Fld) (k n : Nat) : (s.fadd f k n).txq = s.txq := rfl
@[simp] theorem fadd_tags (f : Fld) (k n : Nat) : (s.fadd f k n).tags = s.tags := rfl
@[simp] theorem fadd_smac (f : Fld) (k n : Nat) : (s.fadd f k n).smac = s.smac := rfl
@[simp] theorem fadd_lastTag (f : Fld) (k n : Nat) : (s.fadd f k n).lastTag = s.lastTag := rfl
@[simp] theorem fadd_rampUs (f : Fld) (k n : Nat) : (s.fadd f k n).rampUs = s.rampUs := rfl
@[simp] theorem fadd_cmds (f : Fld) (k n : Nat) : (s.fadd f k n).cmds = s.cmds := rfl
@[simp] theorem fadd_phases (f : Fld) (k n : Nat) : (s.fadd f k n).phases = s.phases := rfl
@[simp] theorem fadd_mrs (f : Fld) (k n : Nat) : (s.fadd f k n).mrs = s.mrs := rfl
@[simp] theorem fadd_unsig (f : Fld) (k n : Nat) : (s.fadd f k n).unsig = s.unsig := rfl
@[simp] theorem fadd_progs (f : Fld) (k n : Nat) : (s.fadd f k n).progs = s.progs := rfl
@[simp] theorem fadd_runs (f : Fld) (k n : Nat) : (s.fadd f k n).runs = s.runs := rfl
@[simp] theorem fadd_nextRun (f : Fld) (k n : Nat) : (s.fadd f k n).nextRun = s.nextRun := rfl
@[simp] theorem fadd_nextProg (f : Fld) (k n : Nat) : (s.fadd f k n).nextProg = s.nextProg := rfl
@[simp] theorem fadd_tiles (f : Fld) (k n : Nat) : (s.fadd f k n).tiles = s.tiles := rfl
@[simp] theorem fadd_stays (f : Fld) (k n : Nat) : (s.fadd f k n).stays = s.stays := rfl
@[simp] theorem fadd_scales (f : Fld) (k n : Nat) : (s.fadd f k n).scales = s.scales := rfl
@[simp] theorem fadd_deck (f : Fld) (k n : Nat) : (s.fadd f k n).deck = s.deck := rfl
@[simp] theorem fadd_full (f : Fld) (k n : Nat) : (s.fadd f k n).full = s.full := rfl
@[simp] theorem fadd_waiters (f : Fld) (k n : Nat) : (s.fadd f k n).waiters = s.waiters := rfl
@[simp] theorem fadd_hbm (f : Fld) (k n : Nat) : (s.fadd f k n).hbm = s.hbm := rfl
@[simp] theorem fadd_poisoned (f : Fld) (k n : Nat) : (s.fadd f k n).poisoned = s.poisoned := rfl
@[simp] theorem fadd_host (f : Fld) (k n : Nat) : (s.fadd f k n).host = s.host := rfl
@[simp] theorem fadd_resUsed (f : Fld) (k n : Nat) : (s.fadd f k n).resUsed = s.resUsed := rfl
@[simp] theorem fadd_ceilUsed (f : Fld) (k n : Nat) : (s.fadd f k n).ceilUsed = s.ceilUsed := rfl
@[simp] theorem fadd_turnPart (f : Fld) (k n : Nat) : (s.fadd f k n).turnPart = s.turnPart := rfl
@[simp] theorem fadd_turnRing (f : Fld) (k n : Nat) : (s.fadd f k n).turnRing = s.turnRing := rfl
@[simp] theorem fadd_fedOut (f : Fld) (k n : Nat) : (s.fadd f k n).fedOut = s.fedOut := rfl
@[simp] theorem fadd_held (f : Fld) (k n : Nat) : (s.fadd f k n).held = s.held := rfl
@[simp] theorem fadd_turnRsv (f : Fld) (k n : Nat) : (s.fadd f k n).turnRsv = s.turnRsv := rfl
@[simp] theorem fadd_turnExc (f : Fld) (k n : Nat) : (s.fadd f k n).turnExc = s.turnExc := rfl
@[simp] theorem fadd_deckCe (f : Fld) (k n : Nat) : (s.fadd f k n).deckCe = s.deckCe := rfl
@[simp] theorem fadd_ceDue (f : Fld) (k n : Nat) : (s.fadd f k n).ceDue = s.ceDue := rfl
@[simp] theorem fadd_credits (f : Fld) (k n : Nat) : (s.fadd f k n).credits = s.credits := rfl
@[simp] theorem fadd_replays (f : Fld) (k n : Nat) : (s.fadd f k n).replays = s.replays := rfl
@[simp] theorem fadd_atomicSeq (f : Fld) (k n : Nat) : (s.fadd f k n).atomicSeq = s.atomicSeq := rfl
@[simp] theorem fadd_hashLast (f : Fld) (k n : Nat) : (s.fadd f k n).hashLast = s.hashLast := rfl
@[simp] theorem fadd_config (f : Fld) (k n : Nat) : (s.fadd f k n).config = s.config := rfl
@[simp] theorem fadd_commit (f : Fld) (k n : Nat) : (s.fadd f k n).commit = s.commit := rfl
@[simp] theorem fadd_degradedRes (f : Fld) (k n : Nat) : (s.fadd f k n).degradedRes = s.degradedRes := rfl
@[simp] theorem fadd_faults (f : Fld) (k n : Nat) : (s.fadd f k n).faults = s.faults := rfl
@[simp] theorem fadd_evPhase (f : Fld) (k n : Nat) : (s.fadd f k n).evPhase = s.evPhase := rfl
@[simp] theorem fadd_evLost (f : Fld) (k n : Nat) : (s.fadd f k n).evLost = s.evLost := rfl
@[simp] theorem fadd_evHeld (f : Fld) (k n : Nat) : (s.fadd f k n).evHeld = s.evHeld := rfl
@[simp] theorem fadd_ceNow (f : Fld) (k n : Nat) : (s.fadd f k n).ceNow = s.ceNow := rfl
@[simp] theorem fadd_peerMasks (f : Fld) (k n : Nat) : (s.fadd f k n).peerMasks = s.peerMasks := rfl
@[simp] theorem fadd_conflicts (f : Fld) (k n : Nat) : (s.fadd f k n).conflicts = s.conflicts := rfl
@[simp] theorem fadd_restores (f : Fld) (k n : Nat) : (s.fadd f k n).restores = s.restores := rfl
@[simp] theorem fadd_applied (f : Fld) (k n : Nat) : (s.fadd f k n).applied = s.applied := rfl
@[simp] theorem fadd_digests (f : Fld) (k n : Nat) : (s.fadd f k n).digests = s.digests := rfl
@[simp] theorem fadd_trace (f : Fld) (k n : Nat) : (s.fadd f k n).trace = s.trace := rfl
@[simp] theorem fadd_fuses (f : Fld) (k n : Nat) : (s.fadd f k n).fuses = s.fuses := rfl
@[simp] theorem fadd_bankA (f : Fld) (k n : Nat) : (s.fadd f k n).bankA = s.bankA := rfl
@[simp] theorem fadd_bankB (f : Fld) (k n : Nat) : (s.fadd f k n).bankB = s.bankB := rfl
@[simp] theorem fadd_reverted (f : Fld) (k n : Nat) : (s.fadd f k n).reverted = s.reverted := rfl
@[simp] theorem fadd_fallback (f : Fld) (k n : Nat) : (s.fadd f k n).fallback = s.fallback := rfl
@[simp] theorem fadd_swStart (f : Fld) (k n : Nat) : (s.fadd f k n).swStart = s.swStart := rfl
@[simp] theorem fadd_policies (f : Fld) (k n : Nat) : (s.fadd f k n).policies = s.policies := rfl
@[simp] theorem fadd_scrubs (f : Fld) (k n : Nat) : (s.fadd f k n).scrubs = s.scrubs := rfl
@[simp] theorem fadd_scrubInfo (f : Fld) (k n : Nat) : (s.fadd f k n).scrubInfo = s.scrubInfo := rfl
@[simp] theorem fadd_hashes (f : Fld) (k n : Nat) : (s.fadd f k n).hashes = s.hashes := rfl
@[simp] theorem fadd_spdm (f : Fld) (k n : Nat) : (s.fadd f k n).spdm = s.spdm := rfl
@[simp] theorem fadd_ide (f : Fld) (k n : Nat) : (s.fadd f k n).ide = s.ide := rfl
@[simp] theorem fadd_csCtx (f : Fld) (k n : Nat) : (s.fadd f k n).csCtx = s.csCtx := rfl
@[simp] theorem fadd_vault (f : Fld) (k n : Nat) : (s.fadd f k n).vault = s.vault := rfl
@[simp] theorem fadd_vaultBad (f : Fld) (k n : Nat) : (s.fadd f k n).vaultBad = s.vaultBad := rfl
@[simp] theorem fadd_thermal (f : Fld) (k n : Nat) : (s.fadd f k n).thermal = s.thermal := rfl
@[simp] theorem fadd_power (f : Fld) (k n : Nat) : (s.fadd f k n).power = s.power := rfl
@[simp] theorem fadd_jtag (f : Fld) (k n : Nat) : (s.fadd f k n).jtag = s.jtag := rfl
@[simp] theorem fadd_outs (f : Fld) (k n : Nat) : (s.fadd f k n).outs = s.outs := rfl
@[simp] theorem fadd_draws (f : Fld) (k n : Nat) : (s.fadd f k n).draws = s.draws := rfl
/-! fsat -/
@[simp] theorem fsat_pending (f : Fld) (k n : Nat) : (s.fsat f k n).pending = s.pending := rfl
@[simp] theorem fsat_tb (f : Fld) (k n : Nat) : (s.fsat f k n).tb = s.tb := rfl
@[simp] theorem fsat_wrap (f : Fld) (k n : Nat) : (s.fsat f k n).wrap = s.wrap := rfl
@[simp] theorem fsat_ticks (f : Fld) (k n : Nat) : (s.fsat f k n).ticks = s.ticks := rfl
@[simp] theorem fsat_goodSyncs (f : Fld) (k n : Nat) : (s.fsat f k n).goodSyncs = s.goodSyncs := rfl
@[simp] theorem fsat_servoStepped (f : Fld) (k n : Nat) : (s.fsat f k n).servoStepped = s.servoStepped := rfl
@[simp] theorem fsat_bearings (f : Fld) (k n : Nat) : (s.fsat f k n).bearings = s.bearings := rfl
@[simp] theorem fsat_entries (f : Fld) (k n : Nat) : (s.fsat f k n).entries = s.entries := rfl
@[simp] theorem fsat_holds (f : Fld) (k n : Nat) : (s.fsat f k n).holds = s.holds := rfl
@[simp] theorem fsat_windows (f : Fld) (k n : Nat) : (s.fsat f k n).windows = s.windows := rfl
@[simp] theorem fsat_ports (f : Fld) (k n : Nat) : (s.fsat f k n).ports = s.ports := rfl
@[simp] theorem fsat_descs (f : Fld) (k n : Nat) : (s.fsat f k n).descs = s.descs := rfl
@[simp] theorem fsat_filters (f : Fld) (k n : Nat) : (s.fsat f k n).filters = s.filters := rfl
@[simp] theorem fsat_meters (f : Fld) (k n : Nat) : (s.fsat f k n).meters = s.meters := rfl
@[simp] theorem fsat_tokens (f : Fld) (k n : Nat) : (s.fsat f k n).tokens = s.tokens := rfl
@[simp] theorem fsat_gates (f : Fld) (k n : Nat) : (s.fsat f k n).gates = s.gates := rfl
@[simp] theorem fsat_pwms (f : Fld) (k n : Nat) : (s.fsat f k n).pwms = s.pwms := rfl
@[simp] theorem fsat_pulses (f : Fld) (k n : Nat) : (s.fsat f k n).pulses = s.pulses := rfl
@[simp] theorem fsat_groups (f : Fld) (k n : Nat) : (s.fsat f k n).groups = s.groups := rfl
@[simp] theorem fsat_queues (f : Fld) (k n : Nat) : (s.fsat f k n).queues = s.queues := rfl
@[simp] theorem fsat_txq (f : Fld) (k n : Nat) : (s.fsat f k n).txq = s.txq := rfl
@[simp] theorem fsat_tags (f : Fld) (k n : Nat) : (s.fsat f k n).tags = s.tags := rfl
@[simp] theorem fsat_smac (f : Fld) (k n : Nat) : (s.fsat f k n).smac = s.smac := rfl
@[simp] theorem fsat_lastTag (f : Fld) (k n : Nat) : (s.fsat f k n).lastTag = s.lastTag := rfl
@[simp] theorem fsat_rampUs (f : Fld) (k n : Nat) : (s.fsat f k n).rampUs = s.rampUs := rfl
@[simp] theorem fsat_cmds (f : Fld) (k n : Nat) : (s.fsat f k n).cmds = s.cmds := rfl
@[simp] theorem fsat_phases (f : Fld) (k n : Nat) : (s.fsat f k n).phases = s.phases := rfl
@[simp] theorem fsat_mrs (f : Fld) (k n : Nat) : (s.fsat f k n).mrs = s.mrs := rfl
@[simp] theorem fsat_unsig (f : Fld) (k n : Nat) : (s.fsat f k n).unsig = s.unsig := rfl
@[simp] theorem fsat_progs (f : Fld) (k n : Nat) : (s.fsat f k n).progs = s.progs := rfl
@[simp] theorem fsat_runs (f : Fld) (k n : Nat) : (s.fsat f k n).runs = s.runs := rfl
@[simp] theorem fsat_nextRun (f : Fld) (k n : Nat) : (s.fsat f k n).nextRun = s.nextRun := rfl
@[simp] theorem fsat_nextProg (f : Fld) (k n : Nat) : (s.fsat f k n).nextProg = s.nextProg := rfl
@[simp] theorem fsat_tiles (f : Fld) (k n : Nat) : (s.fsat f k n).tiles = s.tiles := rfl
@[simp] theorem fsat_stays (f : Fld) (k n : Nat) : (s.fsat f k n).stays = s.stays := rfl
@[simp] theorem fsat_scales (f : Fld) (k n : Nat) : (s.fsat f k n).scales = s.scales := rfl
@[simp] theorem fsat_deck (f : Fld) (k n : Nat) : (s.fsat f k n).deck = s.deck := rfl
@[simp] theorem fsat_full (f : Fld) (k n : Nat) : (s.fsat f k n).full = s.full := rfl
@[simp] theorem fsat_waiters (f : Fld) (k n : Nat) : (s.fsat f k n).waiters = s.waiters := rfl
@[simp] theorem fsat_hbm (f : Fld) (k n : Nat) : (s.fsat f k n).hbm = s.hbm := rfl
@[simp] theorem fsat_poisoned (f : Fld) (k n : Nat) : (s.fsat f k n).poisoned = s.poisoned := rfl
@[simp] theorem fsat_host (f : Fld) (k n : Nat) : (s.fsat f k n).host = s.host := rfl
@[simp] theorem fsat_resUsed (f : Fld) (k n : Nat) : (s.fsat f k n).resUsed = s.resUsed := rfl
@[simp] theorem fsat_ceilUsed (f : Fld) (k n : Nat) : (s.fsat f k n).ceilUsed = s.ceilUsed := rfl
@[simp] theorem fsat_turnPart (f : Fld) (k n : Nat) : (s.fsat f k n).turnPart = s.turnPart := rfl
@[simp] theorem fsat_turnRing (f : Fld) (k n : Nat) : (s.fsat f k n).turnRing = s.turnRing := rfl
@[simp] theorem fsat_fedOut (f : Fld) (k n : Nat) : (s.fsat f k n).fedOut = s.fedOut := rfl
@[simp] theorem fsat_held (f : Fld) (k n : Nat) : (s.fsat f k n).held = s.held := rfl
@[simp] theorem fsat_turnRsv (f : Fld) (k n : Nat) : (s.fsat f k n).turnRsv = s.turnRsv := rfl
@[simp] theorem fsat_turnExc (f : Fld) (k n : Nat) : (s.fsat f k n).turnExc = s.turnExc := rfl
@[simp] theorem fsat_deckCe (f : Fld) (k n : Nat) : (s.fsat f k n).deckCe = s.deckCe := rfl
@[simp] theorem fsat_ceDue (f : Fld) (k n : Nat) : (s.fsat f k n).ceDue = s.ceDue := rfl
@[simp] theorem fsat_credits (f : Fld) (k n : Nat) : (s.fsat f k n).credits = s.credits := rfl
@[simp] theorem fsat_replays (f : Fld) (k n : Nat) : (s.fsat f k n).replays = s.replays := rfl
@[simp] theorem fsat_atomicSeq (f : Fld) (k n : Nat) : (s.fsat f k n).atomicSeq = s.atomicSeq := rfl
@[simp] theorem fsat_hashLast (f : Fld) (k n : Nat) : (s.fsat f k n).hashLast = s.hashLast := rfl
@[simp] theorem fsat_config (f : Fld) (k n : Nat) : (s.fsat f k n).config = s.config := rfl
@[simp] theorem fsat_commit (f : Fld) (k n : Nat) : (s.fsat f k n).commit = s.commit := rfl
@[simp] theorem fsat_degradedRes (f : Fld) (k n : Nat) : (s.fsat f k n).degradedRes = s.degradedRes := rfl
@[simp] theorem fsat_faults (f : Fld) (k n : Nat) : (s.fsat f k n).faults = s.faults := rfl
@[simp] theorem fsat_evPhase (f : Fld) (k n : Nat) : (s.fsat f k n).evPhase = s.evPhase := rfl
@[simp] theorem fsat_evLost (f : Fld) (k n : Nat) : (s.fsat f k n).evLost = s.evLost := rfl
@[simp] theorem fsat_evHeld (f : Fld) (k n : Nat) : (s.fsat f k n).evHeld = s.evHeld := rfl
@[simp] theorem fsat_ceNow (f : Fld) (k n : Nat) : (s.fsat f k n).ceNow = s.ceNow := rfl
@[simp] theorem fsat_peerMasks (f : Fld) (k n : Nat) : (s.fsat f k n).peerMasks = s.peerMasks := rfl
@[simp] theorem fsat_conflicts (f : Fld) (k n : Nat) : (s.fsat f k n).conflicts = s.conflicts := rfl
@[simp] theorem fsat_restores (f : Fld) (k n : Nat) : (s.fsat f k n).restores = s.restores := rfl
@[simp] theorem fsat_applied (f : Fld) (k n : Nat) : (s.fsat f k n).applied = s.applied := rfl
@[simp] theorem fsat_digests (f : Fld) (k n : Nat) : (s.fsat f k n).digests = s.digests := rfl
@[simp] theorem fsat_trace (f : Fld) (k n : Nat) : (s.fsat f k n).trace = s.trace := rfl
@[simp] theorem fsat_fuses (f : Fld) (k n : Nat) : (s.fsat f k n).fuses = s.fuses := rfl
@[simp] theorem fsat_bankA (f : Fld) (k n : Nat) : (s.fsat f k n).bankA = s.bankA := rfl
@[simp] theorem fsat_bankB (f : Fld) (k n : Nat) : (s.fsat f k n).bankB = s.bankB := rfl
@[simp] theorem fsat_reverted (f : Fld) (k n : Nat) : (s.fsat f k n).reverted = s.reverted := rfl
@[simp] theorem fsat_fallback (f : Fld) (k n : Nat) : (s.fsat f k n).fallback = s.fallback := rfl
@[simp] theorem fsat_swStart (f : Fld) (k n : Nat) : (s.fsat f k n).swStart = s.swStart := rfl
@[simp] theorem fsat_policies (f : Fld) (k n : Nat) : (s.fsat f k n).policies = s.policies := rfl
@[simp] theorem fsat_scrubs (f : Fld) (k n : Nat) : (s.fsat f k n).scrubs = s.scrubs := rfl
@[simp] theorem fsat_scrubInfo (f : Fld) (k n : Nat) : (s.fsat f k n).scrubInfo = s.scrubInfo := rfl
@[simp] theorem fsat_hashes (f : Fld) (k n : Nat) : (s.fsat f k n).hashes = s.hashes := rfl
@[simp] theorem fsat_spdm (f : Fld) (k n : Nat) : (s.fsat f k n).spdm = s.spdm := rfl
@[simp] theorem fsat_ide (f : Fld) (k n : Nat) : (s.fsat f k n).ide = s.ide := rfl
@[simp] theorem fsat_csCtx (f : Fld) (k n : Nat) : (s.fsat f k n).csCtx = s.csCtx := rfl
@[simp] theorem fsat_vault (f : Fld) (k n : Nat) : (s.fsat f k n).vault = s.vault := rfl
@[simp] theorem fsat_vaultBad (f : Fld) (k n : Nat) : (s.fsat f k n).vaultBad = s.vaultBad := rfl
@[simp] theorem fsat_thermal (f : Fld) (k n : Nat) : (s.fsat f k n).thermal = s.thermal := rfl
@[simp] theorem fsat_power (f : Fld) (k n : Nat) : (s.fsat f k n).power = s.power := rfl
@[simp] theorem fsat_jtag (f : Fld) (k n : Nat) : (s.fsat f k n).jtag = s.jtag := rfl
@[simp] theorem fsat_outs (f : Fld) (k n : Nat) : (s.fsat f k n).outs = s.outs := rfl
@[simp] theorem fsat_draws (f : Fld) (k n : Nat) : (s.fsat f k n).draws = s.draws := rfl

/-! setBearing -/
@[simp] theorem setBearing_pending (c : Nat) (b : Bearing) : (s.setBearing c b).pending = s.pending := rfl
@[simp] theorem setBearing_regs (c : Nat) (b : Bearing) : (s.setBearing c b).regs = s.regs := rfl
@[simp] theorem setBearing_tb (c : Nat) (b : Bearing) : (s.setBearing c b).tb = s.tb := rfl
@[simp] theorem setBearing_wrap (c : Nat) (b : Bearing) : (s.setBearing c b).wrap = s.wrap := rfl
@[simp] theorem setBearing_ticks (c : Nat) (b : Bearing) : (s.setBearing c b).ticks = s.ticks := rfl
@[simp] theorem setBearing_cmds (c : Nat) (b : Bearing) : (s.setBearing c b).cmds = s.cmds := rfl
@[simp] theorem setBearing_mrs (c : Nat) (b : Bearing) : (s.setBearing c b).mrs = s.mrs := rfl
@[simp] theorem setBearing_tiles (c : Nat) (b : Bearing) : (s.setBearing c b).tiles = s.tiles := rfl
@[simp] theorem setBearing_runs (c : Nat) (b : Bearing) : (s.setBearing c b).runs = s.runs := rfl
@[simp] theorem setBearing_progs (c : Nat) (b : Bearing) : (s.setBearing c b).progs = s.progs := rfl
@[simp] theorem setBearing_stays (c : Nat) (b : Bearing) : (s.setBearing c b).stays = s.stays := rfl
@[simp] theorem setBearing_deck (c : Nat) (b : Bearing) : (s.setBearing c b).deck = s.deck := rfl
@[simp] theorem setBearing_full (c : Nat) (b : Bearing) : (s.setBearing c b).full = s.full := rfl
@[simp] theorem setBearing_waiters (c : Nat) (b : Bearing) : (s.setBearing c b).waiters = s.waiters := rfl
@[simp] theorem setBearing_hbm (c : Nat) (b : Bearing) : (s.setBearing c b).hbm = s.hbm := rfl
@[simp] theorem setBearing_host (c : Nat) (b : Bearing) : (s.setBearing c b).host = s.host := rfl
@[simp] theorem setBearing_vault (c : Nat) (b : Bearing) : (s.setBearing c b).vault = s.vault := rfl
@[simp] theorem setBearing_faults (c : Nat) (b : Bearing) : (s.setBearing c b).faults = s.faults := rfl
@[simp] theorem setBearing_trace (c : Nat) (b : Bearing) : (s.setBearing c b).trace = s.trace := rfl
@[simp] theorem setBearing_digests (c : Nat) (b : Bearing) : (s.setBearing c b).digests = s.digests := rfl
@[simp] theorem setBearing_fuses (c : Nat) (b : Bearing) : (s.setBearing c b).fuses = s.fuses := rfl
@[simp] theorem setBearing_power (c : Nat) (b : Bearing) : (s.setBearing c b).power = s.power := rfl
@[simp] theorem setBearing_spdm (c : Nat) (b : Bearing) : (s.setBearing c b).spdm = s.spdm := rfl
@[simp] theorem setBearing_thermal (c : Nat) (b : Bearing) : (s.setBearing c b).thermal = s.thermal := rfl
@[simp] theorem setBearing_jtag (c : Nat) (b : Bearing) : (s.setBearing c b).jtag = s.jtag := rfl
@[simp] theorem setBearing_csCtx (c : Nat) (b : Bearing) : (s.setBearing c b).csCtx = s.csCtx := rfl
@[simp] theorem setBearing_outs (c : Nat) (b : Bearing) : (s.setBearing c b).outs = s.outs := rfl
@[simp] theorem setBearing_draws (c : Nat) (b : Bearing) : (s.setBearing c b).draws = s.draws := rfl

/-! setWin -/
@[simp] theorem setWin_pending (w : Nat) (v : Window) : (s.setWin w v).pending = s.pending := rfl
@[simp] theorem setWin_regs (w : Nat) (v : Window) : (s.setWin w v).regs = s.regs := rfl
@[simp] theorem setWin_tb (w : Nat) (v : Window) : (s.setWin w v).tb = s.tb := rfl
@[simp] theorem setWin_wrap (w : Nat) (v : Window) : (s.setWin w v).wrap = s.wrap := rfl
@[simp] theorem setWin_ticks (w : Nat) (v : Window) : (s.setWin w v).ticks = s.ticks := rfl
@[simp] theorem setWin_cmds (w : Nat) (v : Window) : (s.setWin w v).cmds = s.cmds := rfl
@[simp] theorem setWin_mrs (w : Nat) (v : Window) : (s.setWin w v).mrs = s.mrs := rfl
@[simp] theorem setWin_tiles (w : Nat) (v : Window) : (s.setWin w v).tiles = s.tiles := rfl
@[simp] theorem setWin_runs (w : Nat) (v : Window) : (s.setWin w v).runs = s.runs := rfl
@[simp] theorem setWin_progs (w : Nat) (v : Window) : (s.setWin w v).progs = s.progs := rfl
@[simp] theorem setWin_stays (w : Nat) (v : Window) : (s.setWin w v).stays = s.stays := rfl
@[simp] theorem setWin_deck (w : Nat) (v : Window) : (s.setWin w v).deck = s.deck := rfl
@[simp] theorem setWin_full (w : Nat) (v : Window) : (s.setWin w v).full = s.full := rfl
@[simp] theorem setWin_waiters (w : Nat) (v : Window) : (s.setWin w v).waiters = s.waiters := rfl
@[simp] theorem setWin_hbm (w : Nat) (v : Window) : (s.setWin w v).hbm = s.hbm := rfl
@[simp] theorem setWin_host (w : Nat) (v : Window) : (s.setWin w v).host = s.host := rfl
@[simp] theorem setWin_vault (w : Nat) (v : Window) : (s.setWin w v).vault = s.vault := rfl
@[simp] theorem setWin_faults (w : Nat) (v : Window) : (s.setWin w v).faults = s.faults := rfl
@[simp] theorem setWin_trace (w : Nat) (v : Window) : (s.setWin w v).trace = s.trace := rfl
@[simp] theorem setWin_digests (w : Nat) (v : Window) : (s.setWin w v).digests = s.digests := rfl
@[simp] theorem setWin_fuses (w : Nat) (v : Window) : (s.setWin w v).fuses = s.fuses := rfl
@[simp] theorem setWin_power (w : Nat) (v : Window) : (s.setWin w v).power = s.power := rfl
@[simp] theorem setWin_spdm (w : Nat) (v : Window) : (s.setWin w v).spdm = s.spdm := rfl
@[simp] theorem setWin_thermal (w : Nat) (v : Window) : (s.setWin w v).thermal = s.thermal := rfl
@[simp] theorem setWin_jtag (w : Nat) (v : Window) : (s.setWin w v).jtag = s.jtag := rfl
@[simp] theorem setWin_csCtx (w : Nat) (v : Window) : (s.setWin w v).csCtx = s.csCtx := rfl
@[simp] theorem setWin_outs (w : Nat) (v : Window) : (s.setWin w v).outs = s.outs := rfl
@[simp] theorem setWin_draws (w : Nat) (v : Window) : (s.setWin w v).draws = s.draws := rfl

/-! setPort -/
@[simp] theorem setPort_pending (p : Nat) (v : Port) : (s.setPort p v).pending = s.pending := rfl
@[simp] theorem setPort_regs (p : Nat) (v : Port) : (s.setPort p v).regs = s.regs := rfl
@[simp] theorem setPort_tb (p : Nat) (v : Port) : (s.setPort p v).tb = s.tb := rfl
@[simp] theorem setPort_wrap (p : Nat) (v : Port) : (s.setPort p v).wrap = s.wrap := rfl
@[simp] theorem setPort_ticks (p : Nat) (v : Port) : (s.setPort p v).ticks = s.ticks := rfl
@[simp] theorem setPort_cmds (p : Nat) (v : Port) : (s.setPort p v).cmds = s.cmds := rfl
@[simp] theorem setPort_mrs (p : Nat) (v : Port) : (s.setPort p v).mrs = s.mrs := rfl
@[simp] theorem setPort_tiles (p : Nat) (v : Port) : (s.setPort p v).tiles = s.tiles := rfl
@[simp] theorem setPort_runs (p : Nat) (v : Port) : (s.setPort p v).runs = s.runs := rfl
@[simp] theorem setPort_progs (p : Nat) (v : Port) : (s.setPort p v).progs = s.progs := rfl
@[simp] theorem setPort_stays (p : Nat) (v : Port) : (s.setPort p v).stays = s.stays := rfl
@[simp] theorem setPort_deck (p : Nat) (v : Port) : (s.setPort p v).deck = s.deck := rfl
@[simp] theorem setPort_full (p : Nat) (v : Port) : (s.setPort p v).full = s.full := rfl
@[simp] theorem setPort_waiters (p : Nat) (v : Port) : (s.setPort p v).waiters = s.waiters := rfl
@[simp] theorem setPort_hbm (p : Nat) (v : Port) : (s.setPort p v).hbm = s.hbm := rfl
@[simp] theorem setPort_host (p : Nat) (v : Port) : (s.setPort p v).host = s.host := rfl
@[simp] theorem setPort_vault (p : Nat) (v : Port) : (s.setPort p v).vault = s.vault := rfl
@[simp] theorem setPort_faults (p : Nat) (v : Port) : (s.setPort p v).faults = s.faults := rfl
@[simp] theorem setPort_trace (p : Nat) (v : Port) : (s.setPort p v).trace = s.trace := rfl
@[simp] theorem setPort_digests (p : Nat) (v : Port) : (s.setPort p v).digests = s.digests := rfl
@[simp] theorem setPort_fuses (p : Nat) (v : Port) : (s.setPort p v).fuses = s.fuses := rfl
@[simp] theorem setPort_power (p : Nat) (v : Port) : (s.setPort p v).power = s.power := rfl
@[simp] theorem setPort_spdm (p : Nat) (v : Port) : (s.setPort p v).spdm = s.spdm := rfl
@[simp] theorem setPort_thermal (p : Nat) (v : Port) : (s.setPort p v).thermal = s.thermal := rfl
@[simp] theorem setPort_jtag (p : Nat) (v : Port) : (s.setPort p v).jtag = s.jtag := rfl
@[simp] theorem setPort_csCtx (p : Nat) (v : Port) : (s.setPort p v).csCtx = s.csCtx := rfl
@[simp] theorem setPort_outs (p : Nat) (v : Port) : (s.setPort p v).outs = s.outs := rfl
@[simp] theorem setPort_draws (p : Nat) (v : Port) : (s.setPort p v).draws = s.draws := rfl

/-! setDesc -/
@[simp] theorem setDesc_pending (n : Nat) (v : Desc) : (s.setDesc n v).pending = s.pending := rfl
@[simp] theorem setDesc_regs (n : Nat) (v : Desc) : (s.setDesc n v).regs = s.regs := rfl
@[simp] theorem setDesc_tb (n : Nat) (v : Desc) : (s.setDesc n v).tb = s.tb := rfl
@[simp] theorem setDesc_wrap (n : Nat) (v : Desc) : (s.setDesc n v).wrap = s.wrap := rfl
@[simp] theorem setDesc_ticks (n : Nat) (v : Desc) : (s.setDesc n v).ticks = s.ticks := rfl
@[simp] theorem setDesc_cmds (n : Nat) (v : Desc) : (s.setDesc n v).cmds = s.cmds := rfl
@[simp] theorem setDesc_mrs (n : Nat) (v : Desc) : (s.setDesc n v).mrs = s.mrs := rfl
@[simp] theorem setDesc_tiles (n : Nat) (v : Desc) : (s.setDesc n v).tiles = s.tiles := rfl
@[simp] theorem setDesc_runs (n : Nat) (v : Desc) : (s.setDesc n v).runs = s.runs := rfl
@[simp] theorem setDesc_progs (n : Nat) (v : Desc) : (s.setDesc n v).progs = s.progs := rfl
@[simp] theorem setDesc_stays (n : Nat) (v : Desc) : (s.setDesc n v).stays = s.stays := rfl
@[simp] theorem setDesc_deck (n : Nat) (v : Desc) : (s.setDesc n v).deck = s.deck := rfl
@[simp] theorem setDesc_full (n : Nat) (v : Desc) : (s.setDesc n v).full = s.full := rfl
@[simp] theorem setDesc_waiters (n : Nat) (v : Desc) : (s.setDesc n v).waiters = s.waiters := rfl
@[simp] theorem setDesc_hbm (n : Nat) (v : Desc) : (s.setDesc n v).hbm = s.hbm := rfl
@[simp] theorem setDesc_host (n : Nat) (v : Desc) : (s.setDesc n v).host = s.host := rfl
@[simp] theorem setDesc_vault (n : Nat) (v : Desc) : (s.setDesc n v).vault = s.vault := rfl
@[simp] theorem setDesc_faults (n : Nat) (v : Desc) : (s.setDesc n v).faults = s.faults := rfl
@[simp] theorem setDesc_trace (n : Nat) (v : Desc) : (s.setDesc n v).trace = s.trace := rfl
@[simp] theorem setDesc_digests (n : Nat) (v : Desc) : (s.setDesc n v).digests = s.digests := rfl
@[simp] theorem setDesc_fuses (n : Nat) (v : Desc) : (s.setDesc n v).fuses = s.fuses := rfl
@[simp] theorem setDesc_power (n : Nat) (v : Desc) : (s.setDesc n v).power = s.power := rfl
@[simp] theorem setDesc_spdm (n : Nat) (v : Desc) : (s.setDesc n v).spdm = s.spdm := rfl
@[simp] theorem setDesc_thermal (n : Nat) (v : Desc) : (s.setDesc n v).thermal = s.thermal := rfl
@[simp] theorem setDesc_jtag (n : Nat) (v : Desc) : (s.setDesc n v).jtag = s.jtag := rfl
@[simp] theorem setDesc_csCtx (n : Nat) (v : Desc) : (s.setDesc n v).csCtx = s.csCtx := rfl
@[simp] theorem setDesc_outs (n : Nat) (v : Desc) : (s.setDesc n v).outs = s.outs := rfl
@[simp] theorem setDesc_draws (n : Nat) (v : Desc) : (s.setDesc n v).draws = s.draws := rfl

/-! setGate -/
@[simp] theorem setGate_pending (g : Nat) (v : Gate) : (s.setGate g v).pending = s.pending := rfl
@[simp] theorem setGate_regs (g : Nat) (v : Gate) : (s.setGate g v).regs = s.regs := rfl
@[simp] theorem setGate_tb (g : Nat) (v : Gate) : (s.setGate g v).tb = s.tb := rfl
@[simp] theorem setGate_wrap (g : Nat) (v : Gate) : (s.setGate g v).wrap = s.wrap := rfl
@[simp] theorem setGate_ticks (g : Nat) (v : Gate) : (s.setGate g v).ticks = s.ticks := rfl
@[simp] theorem setGate_cmds (g : Nat) (v : Gate) : (s.setGate g v).cmds = s.cmds := rfl
@[simp] theorem setGate_mrs (g : Nat) (v : Gate) : (s.setGate g v).mrs = s.mrs := rfl
@[simp] theorem setGate_tiles (g : Nat) (v : Gate) : (s.setGate g v).tiles = s.tiles := rfl
@[simp] theorem setGate_runs (g : Nat) (v : Gate) : (s.setGate g v).runs = s.runs := rfl
@[simp] theorem setGate_progs (g : Nat) (v : Gate) : (s.setGate g v).progs = s.progs := rfl
@[simp] theorem setGate_stays (g : Nat) (v : Gate) : (s.setGate g v).stays = s.stays := rfl
@[simp] theorem setGate_deck (g : Nat) (v : Gate) : (s.setGate g v).deck = s.deck := rfl
@[simp] theorem setGate_full (g : Nat) (v : Gate) : (s.setGate g v).full = s.full := rfl
@[simp] theorem setGate_waiters (g : Nat) (v : Gate) : (s.setGate g v).waiters = s.waiters := rfl
@[simp] theorem setGate_hbm (g : Nat) (v : Gate) : (s.setGate g v).hbm = s.hbm := rfl
@[simp] theorem setGate_host (g : Nat) (v : Gate) : (s.setGate g v).host = s.host := rfl
@[simp] theorem setGate_vault (g : Nat) (v : Gate) : (s.setGate g v).vault = s.vault := rfl
@[simp] theorem setGate_faults (g : Nat) (v : Gate) : (s.setGate g v).faults = s.faults := rfl
@[simp] theorem setGate_trace (g : Nat) (v : Gate) : (s.setGate g v).trace = s.trace := rfl
@[simp] theorem setGate_digests (g : Nat) (v : Gate) : (s.setGate g v).digests = s.digests := rfl
@[simp] theorem setGate_fuses (g : Nat) (v : Gate) : (s.setGate g v).fuses = s.fuses := rfl
@[simp] theorem setGate_power (g : Nat) (v : Gate) : (s.setGate g v).power = s.power := rfl
@[simp] theorem setGate_spdm (g : Nat) (v : Gate) : (s.setGate g v).spdm = s.spdm := rfl
@[simp] theorem setGate_thermal (g : Nat) (v : Gate) : (s.setGate g v).thermal = s.thermal := rfl
@[simp] theorem setGate_jtag (g : Nat) (v : Gate) : (s.setGate g v).jtag = s.jtag := rfl
@[simp] theorem setGate_csCtx (g : Nat) (v : Gate) : (s.setGate g v).csCtx = s.csCtx := rfl
@[simp] theorem setGate_outs (g : Nat) (v : Gate) : (s.setGate g v).outs = s.outs := rfl
@[simp] theorem setGate_draws (g : Nat) (v : Gate) : (s.setGate g v).draws = s.draws := rfl

/-! setPwm -/
@[simp] theorem setPwm_pending (o : Nat) (v : Pwm) : (s.setPwm o v).pending = s.pending := rfl
@[simp] theorem setPwm_regs (o : Nat) (v : Pwm) : (s.setPwm o v).regs = s.regs := rfl
@[simp] theorem setPwm_tb (o : Nat) (v : Pwm) : (s.setPwm o v).tb = s.tb := rfl
@[simp] theorem setPwm_wrap (o : Nat) (v : Pwm) : (s.setPwm o v).wrap = s.wrap := rfl
@[simp] theorem setPwm_ticks (o : Nat) (v : Pwm) : (s.setPwm o v).ticks = s.ticks := rfl
@[simp] theorem setPwm_cmds (o : Nat) (v : Pwm) : (s.setPwm o v).cmds = s.cmds := rfl
@[simp] theorem setPwm_mrs (o : Nat) (v : Pwm) : (s.setPwm o v).mrs = s.mrs := rfl
@[simp] theorem setPwm_tiles (o : Nat) (v : Pwm) : (s.setPwm o v).tiles = s.tiles := rfl
@[simp] theorem setPwm_runs (o : Nat) (v : Pwm) : (s.setPwm o v).runs = s.runs := rfl
@[simp] theorem setPwm_progs (o : Nat) (v : Pwm) : (s.setPwm o v).progs = s.progs := rfl
@[simp] theorem setPwm_stays (o : Nat) (v : Pwm) : (s.setPwm o v).stays = s.stays := rfl
@[simp] theorem setPwm_deck (o : Nat) (v : Pwm) : (s.setPwm o v).deck = s.deck := rfl
@[simp] theorem setPwm_full (o : Nat) (v : Pwm) : (s.setPwm o v).full = s.full := rfl
@[simp] theorem setPwm_waiters (o : Nat) (v : Pwm) : (s.setPwm o v).waiters = s.waiters := rfl
@[simp] theorem setPwm_hbm (o : Nat) (v : Pwm) : (s.setPwm o v).hbm = s.hbm := rfl
@[simp] theorem setPwm_host (o : Nat) (v : Pwm) : (s.setPwm o v).host = s.host := rfl
@[simp] theorem setPwm_vault (o : Nat) (v : Pwm) : (s.setPwm o v).vault = s.vault := rfl
@[simp] theorem setPwm_faults (o : Nat) (v : Pwm) : (s.setPwm o v).faults = s.faults := rfl
@[simp] theorem setPwm_trace (o : Nat) (v : Pwm) : (s.setPwm o v).trace = s.trace := rfl
@[simp] theorem setPwm_digests (o : Nat) (v : Pwm) : (s.setPwm o v).digests = s.digests := rfl
@[simp] theorem setPwm_fuses (o : Nat) (v : Pwm) : (s.setPwm o v).fuses = s.fuses := rfl
@[simp] theorem setPwm_power (o : Nat) (v : Pwm) : (s.setPwm o v).power = s.power := rfl
@[simp] theorem setPwm_spdm (o : Nat) (v : Pwm) : (s.setPwm o v).spdm = s.spdm := rfl
@[simp] theorem setPwm_thermal (o : Nat) (v : Pwm) : (s.setPwm o v).thermal = s.thermal := rfl
@[simp] theorem setPwm_jtag (o : Nat) (v : Pwm) : (s.setPwm o v).jtag = s.jtag := rfl
@[simp] theorem setPwm_csCtx (o : Nat) (v : Pwm) : (s.setPwm o v).csCtx = s.csCtx := rfl
@[simp] theorem setPwm_outs (o : Nat) (v : Pwm) : (s.setPwm o v).outs = s.outs := rfl
@[simp] theorem setPwm_draws (o : Nat) (v : Pwm) : (s.setPwm o v).draws = s.draws := rfl

/-! setGroup -/
@[simp] theorem setGroup_pending (g : Nat) (v : OutBuf) : (s.setGroup g v).pending = s.pending := rfl
@[simp] theorem setGroup_regs (g : Nat) (v : OutBuf) : (s.setGroup g v).regs = s.regs := rfl
@[simp] theorem setGroup_tb (g : Nat) (v : OutBuf) : (s.setGroup g v).tb = s.tb := rfl
@[simp] theorem setGroup_wrap (g : Nat) (v : OutBuf) : (s.setGroup g v).wrap = s.wrap := rfl
@[simp] theorem setGroup_ticks (g : Nat) (v : OutBuf) : (s.setGroup g v).ticks = s.ticks := rfl
@[simp] theorem setGroup_cmds (g : Nat) (v : OutBuf) : (s.setGroup g v).cmds = s.cmds := rfl
@[simp] theorem setGroup_mrs (g : Nat) (v : OutBuf) : (s.setGroup g v).mrs = s.mrs := rfl
@[simp] theorem setGroup_tiles (g : Nat) (v : OutBuf) : (s.setGroup g v).tiles = s.tiles := rfl
@[simp] theorem setGroup_runs (g : Nat) (v : OutBuf) : (s.setGroup g v).runs = s.runs := rfl
@[simp] theorem setGroup_progs (g : Nat) (v : OutBuf) : (s.setGroup g v).progs = s.progs := rfl
@[simp] theorem setGroup_stays (g : Nat) (v : OutBuf) : (s.setGroup g v).stays = s.stays := rfl
@[simp] theorem setGroup_deck (g : Nat) (v : OutBuf) : (s.setGroup g v).deck = s.deck := rfl
@[simp] theorem setGroup_full (g : Nat) (v : OutBuf) : (s.setGroup g v).full = s.full := rfl
@[simp] theorem setGroup_waiters (g : Nat) (v : OutBuf) : (s.setGroup g v).waiters = s.waiters := rfl
@[simp] theorem setGroup_hbm (g : Nat) (v : OutBuf) : (s.setGroup g v).hbm = s.hbm := rfl
@[simp] theorem setGroup_host (g : Nat) (v : OutBuf) : (s.setGroup g v).host = s.host := rfl
@[simp] theorem setGroup_vault (g : Nat) (v : OutBuf) : (s.setGroup g v).vault = s.vault := rfl
@[simp] theorem setGroup_faults (g : Nat) (v : OutBuf) : (s.setGroup g v).faults = s.faults := rfl
@[simp] theorem setGroup_trace (g : Nat) (v : OutBuf) : (s.setGroup g v).trace = s.trace := rfl
@[simp] theorem setGroup_digests (g : Nat) (v : OutBuf) : (s.setGroup g v).digests = s.digests := rfl
@[simp] theorem setGroup_fuses (g : Nat) (v : OutBuf) : (s.setGroup g v).fuses = s.fuses := rfl
@[simp] theorem setGroup_power (g : Nat) (v : OutBuf) : (s.setGroup g v).power = s.power := rfl
@[simp] theorem setGroup_spdm (g : Nat) (v : OutBuf) : (s.setGroup g v).spdm = s.spdm := rfl
@[simp] theorem setGroup_thermal (g : Nat) (v : OutBuf) : (s.setGroup g v).thermal = s.thermal := rfl
@[simp] theorem setGroup_jtag (g : Nat) (v : OutBuf) : (s.setGroup g v).jtag = s.jtag := rfl
@[simp] theorem setGroup_csCtx (g : Nat) (v : OutBuf) : (s.setGroup g v).csCtx = s.csCtx := rfl
@[simp] theorem setGroup_outs (g : Nat) (v : OutBuf) : (s.setGroup g v).outs = s.outs := rfl
@[simp] theorem setGroup_draws (g : Nat) (v : OutBuf) : (s.setGroup g v).draws = s.draws := rfl

/-! setQueue -/
@[simp] theorem setQueue_pending (q : Nat) (v : OutBuf) : (s.setQueue q v).pending = s.pending := rfl
@[simp] theorem setQueue_regs (q : Nat) (v : OutBuf) : (s.setQueue q v).regs = s.regs := rfl
@[simp] theorem setQueue_tb (q : Nat) (v : OutBuf) : (s.setQueue q v).tb = s.tb := rfl
@[simp] theorem setQueue_wrap (q : Nat) (v : OutBuf) : (s.setQueue q v).wrap = s.wrap := rfl
@[simp] theorem setQueue_ticks (q : Nat) (v : OutBuf) : (s.setQueue q v).ticks = s.ticks := rfl
@[simp] theorem setQueue_cmds (q : Nat) (v : OutBuf) : (s.setQueue q v).cmds = s.cmds := rfl
@[simp] theorem setQueue_mrs (q : Nat) (v : OutBuf) : (s.setQueue q v).mrs = s.mrs := rfl
@[simp] theorem setQueue_tiles (q : Nat) (v : OutBuf) : (s.setQueue q v).tiles = s.tiles := rfl
@[simp] theorem setQueue_runs (q : Nat) (v : OutBuf) : (s.setQueue q v).runs = s.runs := rfl
@[simp] theorem setQueue_progs (q : Nat) (v : OutBuf) : (s.setQueue q v).progs = s.progs := rfl
@[simp] theorem setQueue_stays (q : Nat) (v : OutBuf) : (s.setQueue q v).stays = s.stays := rfl
@[simp] theorem setQueue_deck (q : Nat) (v : OutBuf) : (s.setQueue q v).deck = s.deck := rfl
@[simp] theorem setQueue_full (q : Nat) (v : OutBuf) : (s.setQueue q v).full = s.full := rfl
@[simp] theorem setQueue_waiters (q : Nat) (v : OutBuf) : (s.setQueue q v).waiters = s.waiters := rfl
@[simp] theorem setQueue_hbm (q : Nat) (v : OutBuf) : (s.setQueue q v).hbm = s.hbm := rfl
@[simp] theorem setQueue_host (q : Nat) (v : OutBuf) : (s.setQueue q v).host = s.host := rfl
@[simp] theorem setQueue_vault (q : Nat) (v : OutBuf) : (s.setQueue q v).vault = s.vault := rfl
@[simp] theorem setQueue_faults (q : Nat) (v : OutBuf) : (s.setQueue q v).faults = s.faults := rfl
@[simp] theorem setQueue_trace (q : Nat) (v : OutBuf) : (s.setQueue q v).trace = s.trace := rfl
@[simp] theorem setQueue_digests (q : Nat) (v : OutBuf) : (s.setQueue q v).digests = s.digests := rfl
@[simp] theorem setQueue_fuses (q : Nat) (v : OutBuf) : (s.setQueue q v).fuses = s.fuses := rfl
@[simp] theorem setQueue_power (q : Nat) (v : OutBuf) : (s.setQueue q v).power = s.power := rfl
@[simp] theorem setQueue_spdm (q : Nat) (v : OutBuf) : (s.setQueue q v).spdm = s.spdm := rfl
@[simp] theorem setQueue_thermal (q : Nat) (v : OutBuf) : (s.setQueue q v).thermal = s.thermal := rfl
@[simp] theorem setQueue_jtag (q : Nat) (v : OutBuf) : (s.setQueue q v).jtag = s.jtag := rfl
@[simp] theorem setQueue_csCtx (q : Nat) (v : OutBuf) : (s.setQueue q v).csCtx = s.csCtx := rfl
@[simp] theorem setQueue_outs (q : Nat) (v : OutBuf) : (s.setQueue q v).outs = s.outs := rfl
@[simp] theorem setQueue_draws (q : Nat) (v : OutBuf) : (s.setQueue q v).draws = s.draws := rfl

/-! setAdvTag -/
@[simp] theorem setAdvTag_pending (k : Nat) (v : OutBuf) : (s.setAdvTag k v).pending = s.pending := rfl
@[simp] theorem setAdvTag_regs (k : Nat) (v : OutBuf) : (s.setAdvTag k v).regs = s.regs := rfl
@[simp] theorem setAdvTag_tb (k : Nat) (v : OutBuf) : (s.setAdvTag k v).tb = s.tb := rfl
@[simp] theorem setAdvTag_wrap (k : Nat) (v : OutBuf) : (s.setAdvTag k v).wrap = s.wrap := rfl
@[simp] theorem setAdvTag_ticks (k : Nat) (v : OutBuf) : (s.setAdvTag k v).ticks = s.ticks := rfl
@[simp] theorem setAdvTag_cmds (k : Nat) (v : OutBuf) : (s.setAdvTag k v).cmds = s.cmds := rfl
@[simp] theorem setAdvTag_mrs (k : Nat) (v : OutBuf) : (s.setAdvTag k v).mrs = s.mrs := rfl
@[simp] theorem setAdvTag_tiles (k : Nat) (v : OutBuf) : (s.setAdvTag k v).tiles = s.tiles := rfl
@[simp] theorem setAdvTag_runs (k : Nat) (v : OutBuf) : (s.setAdvTag k v).runs = s.runs := rfl
@[simp] theorem setAdvTag_progs (k : Nat) (v : OutBuf) : (s.setAdvTag k v).progs = s.progs := rfl
@[simp] theorem setAdvTag_stays (k : Nat) (v : OutBuf) : (s.setAdvTag k v).stays = s.stays := rfl
@[simp] theorem setAdvTag_deck (k : Nat) (v : OutBuf) : (s.setAdvTag k v).deck = s.deck := rfl
@[simp] theorem setAdvTag_full (k : Nat) (v : OutBuf) : (s.setAdvTag k v).full = s.full := rfl
@[simp] theorem setAdvTag_waiters (k : Nat) (v : OutBuf) : (s.setAdvTag k v).waiters = s.waiters := rfl
@[simp] theorem setAdvTag_hbm (k : Nat) (v : OutBuf) : (s.setAdvTag k v).hbm = s.hbm := rfl
@[simp] theorem setAdvTag_host (k : Nat) (v : OutBuf) : (s.setAdvTag k v).host = s.host := rfl
@[simp] theorem setAdvTag_vault (k : Nat) (v : OutBuf) : (s.setAdvTag k v).vault = s.vault := rfl
@[simp] theorem setAdvTag_faults (k : Nat) (v : OutBuf) : (s.setAdvTag k v).faults = s.faults := rfl
@[simp] theorem setAdvTag_trace (k : Nat) (v : OutBuf) : (s.setAdvTag k v).trace = s.trace := rfl
@[simp] theorem setAdvTag_digests (k : Nat) (v : OutBuf) : (s.setAdvTag k v).digests = s.digests := rfl
@[simp] theorem setAdvTag_fuses (k : Nat) (v : OutBuf) : (s.setAdvTag k v).fuses = s.fuses := rfl
@[simp] theorem setAdvTag_power (k : Nat) (v : OutBuf) : (s.setAdvTag k v).power = s.power := rfl
@[simp] theorem setAdvTag_spdm (k : Nat) (v : OutBuf) : (s.setAdvTag k v).spdm = s.spdm := rfl
@[simp] theorem setAdvTag_thermal (k : Nat) (v : OutBuf) : (s.setAdvTag k v).thermal = s.thermal := rfl
@[simp] theorem setAdvTag_jtag (k : Nat) (v : OutBuf) : (s.setAdvTag k v).jtag = s.jtag := rfl
@[simp] theorem setAdvTag_csCtx (k : Nat) (v : OutBuf) : (s.setAdvTag k v).csCtx = s.csCtx := rfl
@[simp] theorem setAdvTag_outs (k : Nat) (v : OutBuf) : (s.setAdvTag k v).outs = s.outs := rfl
@[simp] theorem setAdvTag_draws (k : Nat) (v : OutBuf) : (s.setAdvTag k v).draws = s.draws := rfl

/-! setTxFrames -/
@[simp] theorem setTxFrames_pending (p : Nat) (v : List TxFrame) : (s.setTxFrames p v).pending = s.pending := rfl
@[simp] theorem setTxFrames_regs (p : Nat) (v : List TxFrame) : (s.setTxFrames p v).regs = s.regs := rfl
@[simp] theorem setTxFrames_tb (p : Nat) (v : List TxFrame) : (s.setTxFrames p v).tb = s.tb := rfl
@[simp] theorem setTxFrames_wrap (p : Nat) (v : List TxFrame) : (s.setTxFrames p v).wrap = s.wrap := rfl
@[simp] theorem setTxFrames_ticks (p : Nat) (v : List TxFrame) : (s.setTxFrames p v).ticks = s.ticks := rfl
@[simp] theorem setTxFrames_cmds (p : Nat) (v : List TxFrame) : (s.setTxFrames p v).cmds = s.cmds := rfl
@[simp] theorem setTxFrames_mrs (p : Nat) (v : List TxFrame) : (s.setTxFrames p v).mrs = s.mrs := rfl
@[simp] theorem setTxFrames_tiles (p : Nat) (v : List TxFrame) : (s.setTxFrames p v).tiles = s.tiles := rfl
@[simp] theorem setTxFrames_runs (p : Nat) (v : List TxFrame) : (s.setTxFrames p v).runs = s.runs := rfl
@[simp] theorem setTxFrames_progs (p : Nat) (v : List TxFrame) : (s.setTxFrames p v).progs = s.progs := rfl
@[simp] theorem setTxFrames_stays (p : Nat) (v : List TxFrame) : (s.setTxFrames p v).stays = s.stays := rfl
@[simp] theorem setTxFrames_deck (p : Nat) (v : List TxFrame) : (s.setTxFrames p v).deck = s.deck := rfl
@[simp] theorem setTxFrames_full (p : Nat) (v : List TxFrame) : (s.setTxFrames p v).full = s.full := rfl
@[simp] theorem setTxFrames_waiters (p : Nat) (v : List TxFrame) : (s.setTxFrames p v).waiters = s.waiters := rfl
@[simp] theorem setTxFrames_hbm (p : Nat) (v : List TxFrame) : (s.setTxFrames p v).hbm = s.hbm := rfl
@[simp] theorem setTxFrames_host (p : Nat) (v : List TxFrame) : (s.setTxFrames p v).host = s.host := rfl
@[simp] theorem setTxFrames_vault (p : Nat) (v : List TxFrame) : (s.setTxFrames p v).vault = s.vault := rfl
@[simp] theorem setTxFrames_faults (p : Nat) (v : List TxFrame) : (s.setTxFrames p v).faults = s.faults := rfl
@[simp] theorem setTxFrames_trace (p : Nat) (v : List TxFrame) : (s.setTxFrames p v).trace = s.trace := rfl
@[simp] theorem setTxFrames_digests (p : Nat) (v : List TxFrame) : (s.setTxFrames p v).digests = s.digests := rfl
@[simp] theorem setTxFrames_fuses (p : Nat) (v : List TxFrame) : (s.setTxFrames p v).fuses = s.fuses := rfl
@[simp] theorem setTxFrames_power (p : Nat) (v : List TxFrame) : (s.setTxFrames p v).power = s.power := rfl
@[simp] theorem setTxFrames_spdm (p : Nat) (v : List TxFrame) : (s.setTxFrames p v).spdm = s.spdm := rfl
@[simp] theorem setTxFrames_thermal (p : Nat) (v : List TxFrame) : (s.setTxFrames p v).thermal = s.thermal := rfl
@[simp] theorem setTxFrames_jtag (p : Nat) (v : List TxFrame) : (s.setTxFrames p v).jtag = s.jtag := rfl
@[simp] theorem setTxFrames_csCtx (p : Nat) (v : List TxFrame) : (s.setTxFrames p v).csCtx = s.csCtx := rfl
@[simp] theorem setTxFrames_outs (p : Nat) (v : List TxFrame) : (s.setTxFrames p v).outs = s.outs := rfl
@[simp] theorem setTxFrames_draws (p : Nat) (v : List TxFrame) : (s.setTxFrames p v).draws = s.draws := rfl

/-! setTile -/
@[simp] theorem setTile_pending (t : Nat) (v : Tile) : (s.setTile t v).pending = s.pending := rfl
@[simp] theorem setTile_regs (t : Nat) (v : Tile) : (s.setTile t v).regs = s.regs := rfl
@[simp] theorem setTile_tb (t : Nat) (v : Tile) : (s.setTile t v).tb = s.tb := rfl
@[simp] theorem setTile_wrap (t : Nat) (v : Tile) : (s.setTile t v).wrap = s.wrap := rfl
@[simp] theorem setTile_ticks (t : Nat) (v : Tile) : (s.setTile t v).ticks = s.ticks := rfl
@[simp] theorem setTile_cmds (t : Nat) (v : Tile) : (s.setTile t v).cmds = s.cmds := rfl
@[simp] theorem setTile_mrs (t : Nat) (v : Tile) : (s.setTile t v).mrs = s.mrs := rfl
@[simp] theorem setTile_runs (t : Nat) (v : Tile) : (s.setTile t v).runs = s.runs := rfl
@[simp] theorem setTile_progs (t : Nat) (v : Tile) : (s.setTile t v).progs = s.progs := rfl
@[simp] theorem setTile_stays (t : Nat) (v : Tile) : (s.setTile t v).stays = s.stays := rfl
@[simp] theorem setTile_deck (t : Nat) (v : Tile) : (s.setTile t v).deck = s.deck := rfl
@[simp] theorem setTile_full (t : Nat) (v : Tile) : (s.setTile t v).full = s.full := rfl
@[simp] theorem setTile_waiters (t : Nat) (v : Tile) : (s.setTile t v).waiters = s.waiters := rfl
@[simp] theorem setTile_hbm (t : Nat) (v : Tile) : (s.setTile t v).hbm = s.hbm := rfl
@[simp] theorem setTile_host (t : Nat) (v : Tile) : (s.setTile t v).host = s.host := rfl
@[simp] theorem setTile_vault (t : Nat) (v : Tile) : (s.setTile t v).vault = s.vault := rfl
@[simp] theorem setTile_faults (t : Nat) (v : Tile) : (s.setTile t v).faults = s.faults := rfl
@[simp] theorem setTile_trace (t : Nat) (v : Tile) : (s.setTile t v).trace = s.trace := rfl
@[simp] theorem setTile_digests (t : Nat) (v : Tile) : (s.setTile t v).digests = s.digests := rfl
@[simp] theorem setTile_fuses (t : Nat) (v : Tile) : (s.setTile t v).fuses = s.fuses := rfl
@[simp] theorem setTile_power (t : Nat) (v : Tile) : (s.setTile t v).power = s.power := rfl
@[simp] theorem setTile_spdm (t : Nat) (v : Tile) : (s.setTile t v).spdm = s.spdm := rfl
@[simp] theorem setTile_thermal (t : Nat) (v : Tile) : (s.setTile t v).thermal = s.thermal := rfl
@[simp] theorem setTile_jtag (t : Nat) (v : Tile) : (s.setTile t v).jtag = s.jtag := rfl
@[simp] theorem setTile_csCtx (t : Nat) (v : Tile) : (s.setTile t v).csCtx = s.csCtx := rfl
@[simp] theorem setTile_outs (t : Nat) (v : Tile) : (s.setTile t v).outs = s.outs := rfl
@[simp] theorem setTile_draws (t : Nat) (v : Tile) : (s.setTile t v).draws = s.draws := rfl

/-! setStay -/
@[simp] theorem setStay_pending (t c : Nat) (v : Stay) : (s.setStay t c v).pending = s.pending := rfl
@[simp] theorem setStay_regs (t c : Nat) (v : Stay) : (s.setStay t c v).regs = s.regs := rfl
@[simp] theorem setStay_tb (t c : Nat) (v : Stay) : (s.setStay t c v).tb = s.tb := rfl
@[simp] theorem setStay_wrap (t c : Nat) (v : Stay) : (s.setStay t c v).wrap = s.wrap := rfl
@[simp] theorem setStay_ticks (t c : Nat) (v : Stay) : (s.setStay t c v).ticks = s.ticks := rfl
@[simp] theorem setStay_cmds (t c : Nat) (v : Stay) : (s.setStay t c v).cmds = s.cmds := rfl
@[simp] theorem setStay_mrs (t c : Nat) (v : Stay) : (s.setStay t c v).mrs = s.mrs := rfl
@[simp] theorem setStay_tiles (t c : Nat) (v : Stay) : (s.setStay t c v).tiles = s.tiles := rfl
@[simp] theorem setStay_runs (t c : Nat) (v : Stay) : (s.setStay t c v).runs = s.runs := rfl
@[simp] theorem setStay_progs (t c : Nat) (v : Stay) : (s.setStay t c v).progs = s.progs := rfl
@[simp] theorem setStay_deck (t c : Nat) (v : Stay) : (s.setStay t c v).deck = s.deck := rfl
@[simp] theorem setStay_full (t c : Nat) (v : Stay) : (s.setStay t c v).full = s.full := rfl
@[simp] theorem setStay_waiters (t c : Nat) (v : Stay) : (s.setStay t c v).waiters = s.waiters := rfl
@[simp] theorem setStay_hbm (t c : Nat) (v : Stay) : (s.setStay t c v).hbm = s.hbm := rfl
@[simp] theorem setStay_host (t c : Nat) (v : Stay) : (s.setStay t c v).host = s.host := rfl
@[simp] theorem setStay_vault (t c : Nat) (v : Stay) : (s.setStay t c v).vault = s.vault := rfl
@[simp] theorem setStay_faults (t c : Nat) (v : Stay) : (s.setStay t c v).faults = s.faults := rfl
@[simp] theorem setStay_trace (t c : Nat) (v : Stay) : (s.setStay t c v).trace = s.trace := rfl
@[simp] theorem setStay_digests (t c : Nat) (v : Stay) : (s.setStay t c v).digests = s.digests := rfl
@[simp] theorem setStay_fuses (t c : Nat) (v : Stay) : (s.setStay t c v).fuses = s.fuses := rfl
@[simp] theorem setStay_power (t c : Nat) (v : Stay) : (s.setStay t c v).power = s.power := rfl
@[simp] theorem setStay_spdm (t c : Nat) (v : Stay) : (s.setStay t c v).spdm = s.spdm := rfl
@[simp] theorem setStay_thermal (t c : Nat) (v : Stay) : (s.setStay t c v).thermal = s.thermal := rfl
@[simp] theorem setStay_jtag (t c : Nat) (v : Stay) : (s.setStay t c v).jtag = s.jtag := rfl
@[simp] theorem setStay_csCtx (t c : Nat) (v : Stay) : (s.setStay t c v).csCtx = s.csCtx := rfl
@[simp] theorem setStay_outs (t c : Nat) (v : Stay) : (s.setStay t c v).outs = s.outs := rfl
@[simp] theorem setStay_draws (t c : Nat) (v : Stay) : (s.setStay t c v).draws = s.draws := rfl

/-! setSemWaiters -/
@[simp] theorem setSemWaiters_pending (n : Nat) (v : List Waiter) : (s.setSemWaiters n v).pending = s.pending := rfl
@[simp] theorem setSemWaiters_regs (n : Nat) (v : List Waiter) : (s.setSemWaiters n v).regs = s.regs := rfl
@[simp] theorem setSemWaiters_tb (n : Nat) (v : List Waiter) : (s.setSemWaiters n v).tb = s.tb := rfl
@[simp] theorem setSemWaiters_wrap (n : Nat) (v : List Waiter) : (s.setSemWaiters n v).wrap = s.wrap := rfl
@[simp] theorem setSemWaiters_ticks (n : Nat) (v : List Waiter) : (s.setSemWaiters n v).ticks = s.ticks := rfl
@[simp] theorem setSemWaiters_cmds (n : Nat) (v : List Waiter) : (s.setSemWaiters n v).cmds = s.cmds := rfl
@[simp] theorem setSemWaiters_mrs (n : Nat) (v : List Waiter) : (s.setSemWaiters n v).mrs = s.mrs := rfl
@[simp] theorem setSemWaiters_tiles (n : Nat) (v : List Waiter) : (s.setSemWaiters n v).tiles = s.tiles := rfl
@[simp] theorem setSemWaiters_runs (n : Nat) (v : List Waiter) : (s.setSemWaiters n v).runs = s.runs := rfl
@[simp] theorem setSemWaiters_progs (n : Nat) (v : List Waiter) : (s.setSemWaiters n v).progs = s.progs := rfl
@[simp] theorem setSemWaiters_stays (n : Nat) (v : List Waiter) : (s.setSemWaiters n v).stays = s.stays := rfl
@[simp] theorem setSemWaiters_deck (n : Nat) (v : List Waiter) : (s.setSemWaiters n v).deck = s.deck := rfl
@[simp] theorem setSemWaiters_full (n : Nat) (v : List Waiter) : (s.setSemWaiters n v).full = s.full := rfl
@[simp] theorem setSemWaiters_hbm (n : Nat) (v : List Waiter) : (s.setSemWaiters n v).hbm = s.hbm := rfl
@[simp] theorem setSemWaiters_host (n : Nat) (v : List Waiter) : (s.setSemWaiters n v).host = s.host := rfl
@[simp] theorem setSemWaiters_vault (n : Nat) (v : List Waiter) : (s.setSemWaiters n v).vault = s.vault := rfl
@[simp] theorem setSemWaiters_faults (n : Nat) (v : List Waiter) : (s.setSemWaiters n v).faults = s.faults := rfl
@[simp] theorem setSemWaiters_trace (n : Nat) (v : List Waiter) : (s.setSemWaiters n v).trace = s.trace := rfl
@[simp] theorem setSemWaiters_digests (n : Nat) (v : List Waiter) : (s.setSemWaiters n v).digests = s.digests := rfl
@[simp] theorem setSemWaiters_fuses (n : Nat) (v : List Waiter) : (s.setSemWaiters n v).fuses = s.fuses := rfl
@[simp] theorem setSemWaiters_power (n : Nat) (v : List Waiter) : (s.setSemWaiters n v).power = s.power := rfl
@[simp] theorem setSemWaiters_spdm (n : Nat) (v : List Waiter) : (s.setSemWaiters n v).spdm = s.spdm := rfl
@[simp] theorem setSemWaiters_thermal (n : Nat) (v : List Waiter) : (s.setSemWaiters n v).thermal = s.thermal := rfl
@[simp] theorem setSemWaiters_jtag (n : Nat) (v : List Waiter) : (s.setSemWaiters n v).jtag = s.jtag := rfl
@[simp] theorem setSemWaiters_csCtx (n : Nat) (v : List Waiter) : (s.setSemWaiters n v).csCtx = s.csCtx := rfl
@[simp] theorem setSemWaiters_outs (n : Nat) (v : List Waiter) : (s.setSemWaiters n v).outs = s.outs := rfl
@[simp] theorem setSemWaiters_draws (n : Nat) (v : List Waiter) : (s.setSemWaiters n v).draws = s.draws := rfl

/-! setMr -/
@[simp] theorem setMr_pending (p h : Nat) (v : Region) : (s.setMr p h v).pending = s.pending := rfl
@[simp] theorem setMr_regs (p h : Nat) (v : Region) : (s.setMr p h v).regs = s.regs := rfl
@[simp] theorem setMr_tb (p h : Nat) (v : Region) : (s.setMr p h v).tb = s.tb := rfl
@[simp] theorem setMr_wrap (p h : Nat) (v : Region) : (s.setMr p h v).wrap = s.wrap := rfl
@[simp] theorem setMr_ticks (p h : Nat) (v : Region) : (s.setMr p h v).ticks = s.ticks := rfl
@[simp] theorem setMr_cmds (p h : Nat) (v : Region) : (s.setMr p h v).cmds = s.cmds := rfl
@[simp] theorem setMr_tiles (p h : Nat) (v : Region) : (s.setMr p h v).tiles = s.tiles := rfl
@[simp] theorem setMr_runs (p h : Nat) (v : Region) : (s.setMr p h v).runs = s.runs := rfl
@[simp] theorem setMr_progs (p h : Nat) (v : Region) : (s.setMr p h v).progs = s.progs := rfl
@[simp] theorem setMr_stays (p h : Nat) (v : Region) : (s.setMr p h v).stays = s.stays := rfl
@[simp] theorem setMr_deck (p h : Nat) (v : Region) : (s.setMr p h v).deck = s.deck := rfl
@[simp] theorem setMr_full (p h : Nat) (v : Region) : (s.setMr p h v).full = s.full := rfl
@[simp] theorem setMr_waiters (p h : Nat) (v : Region) : (s.setMr p h v).waiters = s.waiters := rfl
@[simp] theorem setMr_hbm (p h : Nat) (v : Region) : (s.setMr p h v).hbm = s.hbm := rfl
@[simp] theorem setMr_host (p h : Nat) (v : Region) : (s.setMr p h v).host = s.host := rfl
@[simp] theorem setMr_vault (p h : Nat) (v : Region) : (s.setMr p h v).vault = s.vault := rfl
@[simp] theorem setMr_faults (p h : Nat) (v : Region) : (s.setMr p h v).faults = s.faults := rfl
@[simp] theorem setMr_trace (p h : Nat) (v : Region) : (s.setMr p h v).trace = s.trace := rfl
@[simp] theorem setMr_digests (p h : Nat) (v : Region) : (s.setMr p h v).digests = s.digests := rfl
@[simp] theorem setMr_fuses (p h : Nat) (v : Region) : (s.setMr p h v).fuses = s.fuses := rfl
@[simp] theorem setMr_power (p h : Nat) (v : Region) : (s.setMr p h v).power = s.power := rfl
@[simp] theorem setMr_spdm (p h : Nat) (v : Region) : (s.setMr p h v).spdm = s.spdm := rfl
@[simp] theorem setMr_thermal (p h : Nat) (v : Region) : (s.setMr p h v).thermal = s.thermal := rfl
@[simp] theorem setMr_jtag (p h : Nat) (v : Region) : (s.setMr p h v).jtag = s.jtag := rfl
@[simp] theorem setMr_csCtx (p h : Nat) (v : Region) : (s.setMr p h v).csCtx = s.csCtx := rfl
@[simp] theorem setMr_outs (p h : Nat) (v : Region) : (s.setMr p h v).outs = s.outs := rfl
@[simp] theorem setMr_draws (p h : Nat) (v : Region) : (s.setMr p h v).draws = s.draws := rfl

/-! setCtx -/
@[simp] theorem setCtx_pending (c : Nat) (v : CsCtx) : (s.setCtx c v).pending = s.pending := rfl
@[simp] theorem setCtx_regs (c : Nat) (v : CsCtx) : (s.setCtx c v).regs = s.regs := rfl
@[simp] theorem setCtx_tb (c : Nat) (v : CsCtx) : (s.setCtx c v).tb = s.tb := rfl
@[simp] theorem setCtx_wrap (c : Nat) (v : CsCtx) : (s.setCtx c v).wrap = s.wrap := rfl
@[simp] theorem setCtx_ticks (c : Nat) (v : CsCtx) : (s.setCtx c v).ticks = s.ticks := rfl
@[simp] theorem setCtx_cmds (c : Nat) (v : CsCtx) : (s.setCtx c v).cmds = s.cmds := rfl
@[simp] theorem setCtx_mrs (c : Nat) (v : CsCtx) : (s.setCtx c v).mrs = s.mrs := rfl
@[simp] theorem setCtx_tiles (c : Nat) (v : CsCtx) : (s.setCtx c v).tiles = s.tiles := rfl
@[simp] theorem setCtx_runs (c : Nat) (v : CsCtx) : (s.setCtx c v).runs = s.runs := rfl
@[simp] theorem setCtx_progs (c : Nat) (v : CsCtx) : (s.setCtx c v).progs = s.progs := rfl
@[simp] theorem setCtx_stays (c : Nat) (v : CsCtx) : (s.setCtx c v).stays = s.stays := rfl
@[simp] theorem setCtx_deck (c : Nat) (v : CsCtx) : (s.setCtx c v).deck = s.deck := rfl
@[simp] theorem setCtx_full (c : Nat) (v : CsCtx) : (s.setCtx c v).full = s.full := rfl
@[simp] theorem setCtx_waiters (c : Nat) (v : CsCtx) : (s.setCtx c v).waiters = s.waiters := rfl
@[simp] theorem setCtx_hbm (c : Nat) (v : CsCtx) : (s.setCtx c v).hbm = s.hbm := rfl
@[simp] theorem setCtx_host (c : Nat) (v : CsCtx) : (s.setCtx c v).host = s.host := rfl
@[simp] theorem setCtx_vault (c : Nat) (v : CsCtx) : (s.setCtx c v).vault = s.vault := rfl
@[simp] theorem setCtx_faults (c : Nat) (v : CsCtx) : (s.setCtx c v).faults = s.faults := rfl
@[simp] theorem setCtx_trace (c : Nat) (v : CsCtx) : (s.setCtx c v).trace = s.trace := rfl
@[simp] theorem setCtx_digests (c : Nat) (v : CsCtx) : (s.setCtx c v).digests = s.digests := rfl
@[simp] theorem setCtx_fuses (c : Nat) (v : CsCtx) : (s.setCtx c v).fuses = s.fuses := rfl
@[simp] theorem setCtx_power (c : Nat) (v : CsCtx) : (s.setCtx c v).power = s.power := rfl
@[simp] theorem setCtx_spdm (c : Nat) (v : CsCtx) : (s.setCtx c v).spdm = s.spdm := rfl
@[simp] theorem setCtx_thermal (c : Nat) (v : CsCtx) : (s.setCtx c v).thermal = s.thermal := rfl
@[simp] theorem setCtx_jtag (c : Nat) (v : CsCtx) : (s.setCtx c v).jtag = s.jtag := rfl
@[simp] theorem setCtx_outs (c : Nat) (v : CsCtx) : (s.setCtx c v).outs = s.outs := rfl
@[simp] theorem setCtx_draws (c : Nat) (v : CsCtx) : (s.setCtx c v).draws = s.draws := rfl

/-! setHashCtx -/
@[simp] theorem setHashCtx_pending (c : Nat) (v : Option HashCtx) : (s.setHashCtx c v).pending = s.pending := rfl
@[simp] theorem setHashCtx_regs (c : Nat) (v : Option HashCtx) : (s.setHashCtx c v).regs = s.regs := rfl
@[simp] theorem setHashCtx_tb (c : Nat) (v : Option HashCtx) : (s.setHashCtx c v).tb = s.tb := rfl
@[simp] theorem setHashCtx_wrap (c : Nat) (v : Option HashCtx) : (s.setHashCtx c v).wrap = s.wrap := rfl
@[simp] theorem setHashCtx_ticks (c : Nat) (v : Option HashCtx) : (s.setHashCtx c v).ticks = s.ticks := rfl
@[simp] theorem setHashCtx_cmds (c : Nat) (v : Option HashCtx) : (s.setHashCtx c v).cmds = s.cmds := rfl
@[simp] theorem setHashCtx_mrs (c : Nat) (v : Option HashCtx) : (s.setHashCtx c v).mrs = s.mrs := rfl
@[simp] theorem setHashCtx_tiles (c : Nat) (v : Option HashCtx) : (s.setHashCtx c v).tiles = s.tiles := rfl
@[simp] theorem setHashCtx_runs (c : Nat) (v : Option HashCtx) : (s.setHashCtx c v).runs = s.runs := rfl
@[simp] theorem setHashCtx_progs (c : Nat) (v : Option HashCtx) : (s.setHashCtx c v).progs = s.progs := rfl
@[simp] theorem setHashCtx_stays (c : Nat) (v : Option HashCtx) : (s.setHashCtx c v).stays = s.stays := rfl
@[simp] theorem setHashCtx_deck (c : Nat) (v : Option HashCtx) : (s.setHashCtx c v).deck = s.deck := rfl
@[simp] theorem setHashCtx_full (c : Nat) (v : Option HashCtx) : (s.setHashCtx c v).full = s.full := rfl
@[simp] theorem setHashCtx_waiters (c : Nat) (v : Option HashCtx) : (s.setHashCtx c v).waiters = s.waiters := rfl
@[simp] theorem setHashCtx_hbm (c : Nat) (v : Option HashCtx) : (s.setHashCtx c v).hbm = s.hbm := rfl
@[simp] theorem setHashCtx_host (c : Nat) (v : Option HashCtx) : (s.setHashCtx c v).host = s.host := rfl
@[simp] theorem setHashCtx_vault (c : Nat) (v : Option HashCtx) : (s.setHashCtx c v).vault = s.vault := rfl
@[simp] theorem setHashCtx_faults (c : Nat) (v : Option HashCtx) : (s.setHashCtx c v).faults = s.faults := rfl
@[simp] theorem setHashCtx_trace (c : Nat) (v : Option HashCtx) : (s.setHashCtx c v).trace = s.trace := rfl
@[simp] theorem setHashCtx_digests (c : Nat) (v : Option HashCtx) : (s.setHashCtx c v).digests = s.digests := rfl
@[simp] theorem setHashCtx_fuses (c : Nat) (v : Option HashCtx) : (s.setHashCtx c v).fuses = s.fuses := rfl
@[simp] theorem setHashCtx_power (c : Nat) (v : Option HashCtx) : (s.setHashCtx c v).power = s.power := rfl
@[simp] theorem setHashCtx_spdm (c : Nat) (v : Option HashCtx) : (s.setHashCtx c v).spdm = s.spdm := rfl
@[simp] theorem setHashCtx_thermal (c : Nat) (v : Option HashCtx) : (s.setHashCtx c v).thermal = s.thermal := rfl
@[simp] theorem setHashCtx_jtag (c : Nat) (v : Option HashCtx) : (s.setHashCtx c v).jtag = s.jtag := rfl
@[simp] theorem setHashCtx_csCtx (c : Nat) (v : Option HashCtx) : (s.setHashCtx c v).csCtx = s.csCtx := rfl
@[simp] theorem setHashCtx_outs (c : Nat) (v : Option HashCtx) : (s.setHashCtx c v).outs = s.outs := rfl
@[simp] theorem setHashCtx_draws (c : Nat) (v : Option HashCtx) : (s.setHashCtx c v).draws = s.draws := rfl

/-! emit -/
@[simp] theorem emit_pending (x : Out) : (s.emit x).pending = s.pending := rfl
@[simp] theorem emit_regs (x : Out) : (s.emit x).regs = s.regs := rfl
@[simp] theorem emit_tb (x : Out) : (s.emit x).tb = s.tb := rfl
@[simp] theorem emit_wrap (x : Out) : (s.emit x).wrap = s.wrap := rfl
@[simp] theorem emit_ticks (x : Out) : (s.emit x).ticks = s.ticks := rfl
@[simp] theorem emit_goodSyncs (x : Out) : (s.emit x).goodSyncs = s.goodSyncs := rfl
@[simp] theorem emit_servoStepped (x : Out) : (s.emit x).servoStepped = s.servoStepped := rfl
@[simp] theorem emit_bearings (x : Out) : (s.emit x).bearings = s.bearings := rfl
@[simp] theorem emit_entries (x : Out) : (s.emit x).entries = s.entries := rfl
@[simp] theorem emit_holds (x : Out) : (s.emit x).holds = s.holds := rfl
@[simp] theorem emit_windows (x : Out) : (s.emit x).windows = s.windows := rfl
@[simp] theorem emit_ports (x : Out) : (s.emit x).ports = s.ports := rfl
@[simp] theorem emit_descs (x : Out) : (s.emit x).descs = s.descs := rfl
@[simp] theorem emit_filters (x : Out) : (s.emit x).filters = s.filters := rfl
@[simp] theorem emit_meters (x : Out) : (s.emit x).meters = s.meters := rfl
@[simp] theorem emit_tokens (x : Out) : (s.emit x).tokens = s.tokens := rfl
@[simp] theorem emit_gates (x : Out) : (s.emit x).gates = s.gates := rfl
@[simp] theorem emit_pwms (x : Out) : (s.emit x).pwms = s.pwms := rfl
@[simp] theorem emit_pulses (x : Out) : (s.emit x).pulses = s.pulses := rfl
@[simp] theorem emit_groups (x : Out) : (s.emit x).groups = s.groups := rfl
@[simp] theorem emit_queues (x : Out) : (s.emit x).queues = s.queues := rfl
@[simp] theorem emit_txq (x : Out) : (s.emit x).txq = s.txq := rfl
@[simp] theorem emit_tags (x : Out) : (s.emit x).tags = s.tags := rfl
@[simp] theorem emit_smac (x : Out) : (s.emit x).smac = s.smac := rfl
@[simp] theorem emit_lastTag (x : Out) : (s.emit x).lastTag = s.lastTag := rfl
@[simp] theorem emit_rampUs (x : Out) : (s.emit x).rampUs = s.rampUs := rfl
@[simp] theorem emit_cmds (x : Out) : (s.emit x).cmds = s.cmds := rfl
@[simp] theorem emit_phases (x : Out) : (s.emit x).phases = s.phases := rfl
@[simp] theorem emit_mrs (x : Out) : (s.emit x).mrs = s.mrs := rfl
@[simp] theorem emit_unsig (x : Out) : (s.emit x).unsig = s.unsig := rfl
@[simp] theorem emit_progs (x : Out) : (s.emit x).progs = s.progs := rfl
@[simp] theorem emit_runs (x : Out) : (s.emit x).runs = s.runs := rfl
@[simp] theorem emit_nextRun (x : Out) : (s.emit x).nextRun = s.nextRun := rfl
@[simp] theorem emit_nextProg (x : Out) : (s.emit x).nextProg = s.nextProg := rfl
@[simp] theorem emit_tiles (x : Out) : (s.emit x).tiles = s.tiles := rfl
@[simp] theorem emit_stays (x : Out) : (s.emit x).stays = s.stays := rfl
@[simp] theorem emit_scales (x : Out) : (s.emit x).scales = s.scales := rfl
@[simp] theorem emit_deck (x : Out) : (s.emit x).deck = s.deck := rfl
@[simp] theorem emit_full (x : Out) : (s.emit x).full = s.full := rfl
@[simp] theorem emit_waiters (x : Out) : (s.emit x).waiters = s.waiters := rfl
@[simp] theorem emit_hbm (x : Out) : (s.emit x).hbm = s.hbm := rfl
@[simp] theorem emit_poisoned (x : Out) : (s.emit x).poisoned = s.poisoned := rfl
@[simp] theorem emit_host (x : Out) : (s.emit x).host = s.host := rfl
@[simp] theorem emit_resUsed (x : Out) : (s.emit x).resUsed = s.resUsed := rfl
@[simp] theorem emit_ceilUsed (x : Out) : (s.emit x).ceilUsed = s.ceilUsed := rfl
@[simp] theorem emit_turnPart (x : Out) : (s.emit x).turnPart = s.turnPart := rfl
@[simp] theorem emit_turnRing (x : Out) : (s.emit x).turnRing = s.turnRing := rfl
@[simp] theorem emit_fedOut (x : Out) : (s.emit x).fedOut = s.fedOut := rfl
@[simp] theorem emit_held (x : Out) : (s.emit x).held = s.held := rfl
@[simp] theorem emit_turnRsv (x : Out) : (s.emit x).turnRsv = s.turnRsv := rfl
@[simp] theorem emit_turnExc (x : Out) : (s.emit x).turnExc = s.turnExc := rfl
@[simp] theorem emit_deckCe (x : Out) : (s.emit x).deckCe = s.deckCe := rfl
@[simp] theorem emit_ceDue (x : Out) : (s.emit x).ceDue = s.ceDue := rfl
@[simp] theorem emit_credits (x : Out) : (s.emit x).credits = s.credits := rfl
@[simp] theorem emit_replays (x : Out) : (s.emit x).replays = s.replays := rfl
@[simp] theorem emit_atomicSeq (x : Out) : (s.emit x).atomicSeq = s.atomicSeq := rfl
@[simp] theorem emit_hashLast (x : Out) : (s.emit x).hashLast = s.hashLast := rfl
@[simp] theorem emit_config (x : Out) : (s.emit x).config = s.config := rfl
@[simp] theorem emit_commit (x : Out) : (s.emit x).commit = s.commit := rfl
@[simp] theorem emit_degradedRes (x : Out) : (s.emit x).degradedRes = s.degradedRes := rfl
@[simp] theorem emit_faults (x : Out) : (s.emit x).faults = s.faults := rfl
@[simp] theorem emit_evPhase (x : Out) : (s.emit x).evPhase = s.evPhase := rfl
@[simp] theorem emit_evLost (x : Out) : (s.emit x).evLost = s.evLost := rfl
@[simp] theorem emit_evHeld (x : Out) : (s.emit x).evHeld = s.evHeld := rfl
@[simp] theorem emit_ceNow (x : Out) : (s.emit x).ceNow = s.ceNow := rfl
@[simp] theorem emit_peerMasks (x : Out) : (s.emit x).peerMasks = s.peerMasks := rfl
@[simp] theorem emit_conflicts (x : Out) : (s.emit x).conflicts = s.conflicts := rfl
@[simp] theorem emit_restores (x : Out) : (s.emit x).restores = s.restores := rfl
@[simp] theorem emit_applied (x : Out) : (s.emit x).applied = s.applied := rfl
@[simp] theorem emit_digests (x : Out) : (s.emit x).digests = s.digests := rfl
@[simp] theorem emit_trace (x : Out) : (s.emit x).trace = s.trace := rfl
@[simp] theorem emit_fuses (x : Out) : (s.emit x).fuses = s.fuses := rfl
@[simp] theorem emit_bankA (x : Out) : (s.emit x).bankA = s.bankA := rfl
@[simp] theorem emit_bankB (x : Out) : (s.emit x).bankB = s.bankB := rfl
@[simp] theorem emit_reverted (x : Out) : (s.emit x).reverted = s.reverted := rfl
@[simp] theorem emit_fallback (x : Out) : (s.emit x).fallback = s.fallback := rfl
@[simp] theorem emit_swStart (x : Out) : (s.emit x).swStart = s.swStart := rfl
@[simp] theorem emit_policies (x : Out) : (s.emit x).policies = s.policies := rfl
@[simp] theorem emit_scrubs (x : Out) : (s.emit x).scrubs = s.scrubs := rfl
@[simp] theorem emit_scrubInfo (x : Out) : (s.emit x).scrubInfo = s.scrubInfo := rfl
@[simp] theorem emit_hashes (x : Out) : (s.emit x).hashes = s.hashes := rfl
@[simp] theorem emit_spdm (x : Out) : (s.emit x).spdm = s.spdm := rfl
@[simp] theorem emit_ide (x : Out) : (s.emit x).ide = s.ide := rfl
@[simp] theorem emit_csCtx (x : Out) : (s.emit x).csCtx = s.csCtx := rfl
@[simp] theorem emit_vault (x : Out) : (s.emit x).vault = s.vault := rfl
@[simp] theorem emit_vaultBad (x : Out) : (s.emit x).vaultBad = s.vaultBad := rfl
@[simp] theorem emit_thermal (x : Out) : (s.emit x).thermal = s.thermal := rfl
@[simp] theorem emit_power (x : Out) : (s.emit x).power = s.power := rfl
@[simp] theorem emit_jtag (x : Out) : (s.emit x).jtag = s.jtag := rfl
@[simp] theorem emit_draws (x : Out) : (s.emit x).draws = s.draws := rfl

/-! hostWrite -/
@[simp] theorem hostWrite_pending (a : Nat) (bs : List Byte) : (s.hostWrite a bs).pending = s.pending := rfl
@[simp] theorem hostWrite_regs (a : Nat) (bs : List Byte) : (s.hostWrite a bs).regs = s.regs := rfl
@[simp] theorem hostWrite_tb (a : Nat) (bs : List Byte) : (s.hostWrite a bs).tb = s.tb := rfl
@[simp] theorem hostWrite_wrap (a : Nat) (bs : List Byte) : (s.hostWrite a bs).wrap = s.wrap := rfl
@[simp] theorem hostWrite_ticks (a : Nat) (bs : List Byte) : (s.hostWrite a bs).ticks = s.ticks := rfl
@[simp] theorem hostWrite_goodSyncs (a : Nat) (bs : List Byte) : (s.hostWrite a bs).goodSyncs = s.goodSyncs := rfl
@[simp] theorem hostWrite_servoStepped (a : Nat) (bs : List Byte) : (s.hostWrite a bs).servoStepped = s.servoStepped := rfl
@[simp] theorem hostWrite_bearings (a : Nat) (bs : List Byte) : (s.hostWrite a bs).bearings = s.bearings := rfl
@[simp] theorem hostWrite_entries (a : Nat) (bs : List Byte) : (s.hostWrite a bs).entries = s.entries := rfl
@[simp] theorem hostWrite_holds (a : Nat) (bs : List Byte) : (s.hostWrite a bs).holds = s.holds := rfl
@[simp] theorem hostWrite_windows (a : Nat) (bs : List Byte) : (s.hostWrite a bs).windows = s.windows := rfl
@[simp] theorem hostWrite_ports (a : Nat) (bs : List Byte) : (s.hostWrite a bs).ports = s.ports := rfl
@[simp] theorem hostWrite_descs (a : Nat) (bs : List Byte) : (s.hostWrite a bs).descs = s.descs := rfl
@[simp] theorem hostWrite_filters (a : Nat) (bs : List Byte) : (s.hostWrite a bs).filters = s.filters := rfl
@[simp] theorem hostWrite_meters (a : Nat) (bs : List Byte) : (s.hostWrite a bs).meters = s.meters := rfl
@[simp] theorem hostWrite_tokens (a : Nat) (bs : List Byte) : (s.hostWrite a bs).tokens = s.tokens := rfl
@[simp] theorem hostWrite_gates (a : Nat) (bs : List Byte) : (s.hostWrite a bs).gates = s.gates := rfl
@[simp] theorem hostWrite_pwms (a : Nat) (bs : List Byte) : (s.hostWrite a bs).pwms = s.pwms := rfl
@[simp] theorem hostWrite_pulses (a : Nat) (bs : List Byte) : (s.hostWrite a bs).pulses = s.pulses := rfl
@[simp] theorem hostWrite_groups (a : Nat) (bs : List Byte) : (s.hostWrite a bs).groups = s.groups := rfl
@[simp] theorem hostWrite_queues (a : Nat) (bs : List Byte) : (s.hostWrite a bs).queues = s.queues := rfl
@[simp] theorem hostWrite_txq (a : Nat) (bs : List Byte) : (s.hostWrite a bs).txq = s.txq := rfl
@[simp] theorem hostWrite_tags (a : Nat) (bs : List Byte) : (s.hostWrite a bs).tags = s.tags := rfl
@[simp] theorem hostWrite_smac (a : Nat) (bs : List Byte) : (s.hostWrite a bs).smac = s.smac := rfl
@[simp] theorem hostWrite_lastTag (a : Nat) (bs : List Byte) : (s.hostWrite a bs).lastTag = s.lastTag := rfl
@[simp] theorem hostWrite_rampUs (a : Nat) (bs : List Byte) : (s.hostWrite a bs).rampUs = s.rampUs := rfl
@[simp] theorem hostWrite_cmds (a : Nat) (bs : List Byte) : (s.hostWrite a bs).cmds = s.cmds := rfl
@[simp] theorem hostWrite_phases (a : Nat) (bs : List Byte) : (s.hostWrite a bs).phases = s.phases := rfl
@[simp] theorem hostWrite_mrs (a : Nat) (bs : List Byte) : (s.hostWrite a bs).mrs = s.mrs := rfl
@[simp] theorem hostWrite_unsig (a : Nat) (bs : List Byte) : (s.hostWrite a bs).unsig = s.unsig := rfl
@[simp] theorem hostWrite_progs (a : Nat) (bs : List Byte) : (s.hostWrite a bs).progs = s.progs := rfl
@[simp] theorem hostWrite_runs (a : Nat) (bs : List Byte) : (s.hostWrite a bs).runs = s.runs := rfl
@[simp] theorem hostWrite_nextRun (a : Nat) (bs : List Byte) : (s.hostWrite a bs).nextRun = s.nextRun := rfl
@[simp] theorem hostWrite_nextProg (a : Nat) (bs : List Byte) : (s.hostWrite a bs).nextProg = s.nextProg := rfl
@[simp] theorem hostWrite_tiles (a : Nat) (bs : List Byte) : (s.hostWrite a bs).tiles = s.tiles := rfl
@[simp] theorem hostWrite_stays (a : Nat) (bs : List Byte) : (s.hostWrite a bs).stays = s.stays := rfl
@[simp] theorem hostWrite_scales (a : Nat) (bs : List Byte) : (s.hostWrite a bs).scales = s.scales := rfl
@[simp] theorem hostWrite_deck (a : Nat) (bs : List Byte) : (s.hostWrite a bs).deck = s.deck := rfl
@[simp] theorem hostWrite_full (a : Nat) (bs : List Byte) : (s.hostWrite a bs).full = s.full := rfl
@[simp] theorem hostWrite_waiters (a : Nat) (bs : List Byte) : (s.hostWrite a bs).waiters = s.waiters := rfl
@[simp] theorem hostWrite_hbm (a : Nat) (bs : List Byte) : (s.hostWrite a bs).hbm = s.hbm := rfl
@[simp] theorem hostWrite_poisoned (a : Nat) (bs : List Byte) : (s.hostWrite a bs).poisoned = s.poisoned := rfl
@[simp] theorem hostWrite_resUsed (a : Nat) (bs : List Byte) : (s.hostWrite a bs).resUsed = s.resUsed := rfl
@[simp] theorem hostWrite_ceilUsed (a : Nat) (bs : List Byte) : (s.hostWrite a bs).ceilUsed = s.ceilUsed := rfl
@[simp] theorem hostWrite_turnPart (a : Nat) (bs : List Byte) : (s.hostWrite a bs).turnPart = s.turnPart := rfl
@[simp] theorem hostWrite_turnRing (a : Nat) (bs : List Byte) : (s.hostWrite a bs).turnRing = s.turnRing := rfl
@[simp] theorem hostWrite_fedOut (a : Nat) (bs : List Byte) : (s.hostWrite a bs).fedOut = s.fedOut := rfl
@[simp] theorem hostWrite_held (a : Nat) (bs : List Byte) : (s.hostWrite a bs).held = s.held := rfl
@[simp] theorem hostWrite_turnRsv (a : Nat) (bs : List Byte) : (s.hostWrite a bs).turnRsv = s.turnRsv := rfl
@[simp] theorem hostWrite_turnExc (a : Nat) (bs : List Byte) : (s.hostWrite a bs).turnExc = s.turnExc := rfl
@[simp] theorem hostWrite_deckCe (a : Nat) (bs : List Byte) : (s.hostWrite a bs).deckCe = s.deckCe := rfl
@[simp] theorem hostWrite_ceDue (a : Nat) (bs : List Byte) : (s.hostWrite a bs).ceDue = s.ceDue := rfl
@[simp] theorem hostWrite_credits (a : Nat) (bs : List Byte) : (s.hostWrite a bs).credits = s.credits := rfl
@[simp] theorem hostWrite_replays (a : Nat) (bs : List Byte) : (s.hostWrite a bs).replays = s.replays := rfl
@[simp] theorem hostWrite_atomicSeq (a : Nat) (bs : List Byte) : (s.hostWrite a bs).atomicSeq = s.atomicSeq := rfl
@[simp] theorem hostWrite_hashLast (a : Nat) (bs : List Byte) : (s.hostWrite a bs).hashLast = s.hashLast := rfl
@[simp] theorem hostWrite_config (a : Nat) (bs : List Byte) : (s.hostWrite a bs).config = s.config := rfl
@[simp] theorem hostWrite_commit (a : Nat) (bs : List Byte) : (s.hostWrite a bs).commit = s.commit := rfl
@[simp] theorem hostWrite_degradedRes (a : Nat) (bs : List Byte) : (s.hostWrite a bs).degradedRes = s.degradedRes := rfl
@[simp] theorem hostWrite_faults (a : Nat) (bs : List Byte) : (s.hostWrite a bs).faults = s.faults := rfl
@[simp] theorem hostWrite_evPhase (a : Nat) (bs : List Byte) : (s.hostWrite a bs).evPhase = s.evPhase := rfl
@[simp] theorem hostWrite_evLost (a : Nat) (bs : List Byte) : (s.hostWrite a bs).evLost = s.evLost := rfl
@[simp] theorem hostWrite_evHeld (a : Nat) (bs : List Byte) : (s.hostWrite a bs).evHeld = s.evHeld := rfl
@[simp] theorem hostWrite_ceNow (a : Nat) (bs : List Byte) : (s.hostWrite a bs).ceNow = s.ceNow := rfl
@[simp] theorem hostWrite_peerMasks (a : Nat) (bs : List Byte) : (s.hostWrite a bs).peerMasks = s.peerMasks := rfl
@[simp] theorem hostWrite_conflicts (a : Nat) (bs : List Byte) : (s.hostWrite a bs).conflicts = s.conflicts := rfl
@[simp] theorem hostWrite_restores (a : Nat) (bs : List Byte) : (s.hostWrite a bs).restores = s.restores := rfl
@[simp] theorem hostWrite_applied (a : Nat) (bs : List Byte) : (s.hostWrite a bs).applied = s.applied := rfl
@[simp] theorem hostWrite_digests (a : Nat) (bs : List Byte) : (s.hostWrite a bs).digests = s.digests := rfl
@[simp] theorem hostWrite_trace (a : Nat) (bs : List Byte) : (s.hostWrite a bs).trace = s.trace := rfl
@[simp] theorem hostWrite_fuses (a : Nat) (bs : List Byte) : (s.hostWrite a bs).fuses = s.fuses := rfl
@[simp] theorem hostWrite_bankA (a : Nat) (bs : List Byte) : (s.hostWrite a bs).bankA = s.bankA := rfl
@[simp] theorem hostWrite_bankB (a : Nat) (bs : List Byte) : (s.hostWrite a bs).bankB = s.bankB := rfl
@[simp] theorem hostWrite_reverted (a : Nat) (bs : List Byte) : (s.hostWrite a bs).reverted = s.reverted := rfl
@[simp] theorem hostWrite_fallback (a : Nat) (bs : List Byte) : (s.hostWrite a bs).fallback = s.fallback := rfl
@[simp] theorem hostWrite_swStart (a : Nat) (bs : List Byte) : (s.hostWrite a bs).swStart = s.swStart := rfl
@[simp] theorem hostWrite_policies (a : Nat) (bs : List Byte) : (s.hostWrite a bs).policies = s.policies := rfl
@[simp] theorem hostWrite_scrubs (a : Nat) (bs : List Byte) : (s.hostWrite a bs).scrubs = s.scrubs := rfl
@[simp] theorem hostWrite_scrubInfo (a : Nat) (bs : List Byte) : (s.hostWrite a bs).scrubInfo = s.scrubInfo := rfl
@[simp] theorem hostWrite_hashes (a : Nat) (bs : List Byte) : (s.hostWrite a bs).hashes = s.hashes := rfl
@[simp] theorem hostWrite_spdm (a : Nat) (bs : List Byte) : (s.hostWrite a bs).spdm = s.spdm := rfl
@[simp] theorem hostWrite_ide (a : Nat) (bs : List Byte) : (s.hostWrite a bs).ide = s.ide := rfl
@[simp] theorem hostWrite_csCtx (a : Nat) (bs : List Byte) : (s.hostWrite a bs).csCtx = s.csCtx := rfl
@[simp] theorem hostWrite_vault (a : Nat) (bs : List Byte) : (s.hostWrite a bs).vault = s.vault := rfl
@[simp] theorem hostWrite_vaultBad (a : Nat) (bs : List Byte) : (s.hostWrite a bs).vaultBad = s.vaultBad := rfl
@[simp] theorem hostWrite_thermal (a : Nat) (bs : List Byte) : (s.hostWrite a bs).thermal = s.thermal := rfl
@[simp] theorem hostWrite_power (a : Nat) (bs : List Byte) : (s.hostWrite a bs).power = s.power := rfl
@[simp] theorem hostWrite_jtag (a : Nat) (bs : List Byte) : (s.hostWrite a bs).jtag = s.jtag := rfl
@[simp] theorem hostWrite_outs (a : Nat) (bs : List Byte) : (s.hostWrite a bs).outs = s.outs := rfl
@[simp] theorem hostWrite_draws (a : Nat) (bs : List Byte) : (s.hostWrite a bs).draws = s.draws := rfl

/-! modCmd -/
@[simp] theorem modCmd_pending (r t : Nat) (f : Cmd → Cmd) : (s.modCmd r t f).pending = s.pending := rfl
@[simp] theorem modCmd_regs (r t : Nat) (f : Cmd → Cmd) : (s.modCmd r t f).regs = s.regs := rfl
@[simp] theorem modCmd_tb (r t : Nat) (f : Cmd → Cmd) : (s.modCmd r t f).tb = s.tb := rfl
@[simp] theorem modCmd_wrap (r t : Nat) (f : Cmd → Cmd) : (s.modCmd r t f).wrap = s.wrap := rfl
@[simp] theorem modCmd_ticks (r t : Nat) (f : Cmd → Cmd) : (s.modCmd r t f).ticks = s.ticks := rfl
@[simp] theorem modCmd_goodSyncs (r t : Nat) (f : Cmd → Cmd) : (s.modCmd r t f).goodSyncs = s.goodSyncs := rfl
@[simp] theorem modCmd_servoStepped (r t : Nat) (f : Cmd → Cmd) : (s.modCmd r t f).servoStepped = s.servoStepped := rfl
@[simp] theorem modCmd_bearings (r t : Nat) (f : Cmd → Cmd) : (s.modCmd r t f).bearings = s.bearings := rfl
@[simp] theorem modCmd_entries (r t : Nat) (f : Cmd → Cmd) : (s.modCmd r t f).entries = s.entries := rfl
@[simp] theorem modCmd_holds (r t : Nat) (f : Cmd → Cmd) : (s.modCmd r t f).holds = s.holds := rfl
@[simp] theorem modCmd_windows (r t : Nat) (f : Cmd → Cmd) : (s.modCmd r t f).windows = s.windows := rfl
@[simp] theorem modCmd_ports (r t : Nat) (f : Cmd → Cmd) : (s.modCmd r t f).ports = s.ports := rfl
@[simp] theorem modCmd_descs (r t : Nat) (f : Cmd → Cmd) : (s.modCmd r t f).descs = s.descs := rfl
@[simp] theorem modCmd_filters (r t : Nat) (f : Cmd → Cmd) : (s.modCmd r t f).filters = s.filters := rfl
@[simp] theorem modCmd_meters (r t : Nat) (f : Cmd → Cmd) : (s.modCmd r t f).meters = s.meters := rfl
@[simp] theorem modCmd_tokens (r t : Nat) (f : Cmd → Cmd) : (s.modCmd r t f).tokens = s.tokens := rfl
@[simp] theorem modCmd_gates (r t : Nat) (f : Cmd → Cmd) : (s.modCmd r t f).gates = s.gates := rfl
@[simp] theorem modCmd_pwms (r t : Nat) (f : Cmd → Cmd) : (s.modCmd r t f).pwms = s.pwms := rfl
@[simp] theorem modCmd_pulses (r t : Nat) (f : Cmd → Cmd) : (s.modCmd r t f).pulses = s.pulses := rfl
@[simp] theorem modCmd_groups (r t : Nat) (f : Cmd → Cmd) : (s.modCmd r t f).groups = s.groups := rfl
@[simp] theorem modCmd_queues (r t : Nat) (f : Cmd → Cmd) : (s.modCmd r t f).queues = s.queues := rfl
@[simp] theorem modCmd_txq (r t : Nat) (f : Cmd → Cmd) : (s.modCmd r t f).txq = s.txq := rfl
@[simp] theorem modCmd_tags (r t : Nat) (f : Cmd → Cmd) : (s.modCmd r t f).tags = s.tags := rfl
@[simp] theorem modCmd_smac (r t : Nat) (f : Cmd → Cmd) : (s.modCmd r t f).smac = s.smac := rfl
@[simp] theorem modCmd_lastTag (r t : Nat) (f : Cmd → Cmd) : (s.modCmd r t f).lastTag = s.lastTag := rfl
@[simp] theorem modCmd_rampUs (r t : Nat) (f : Cmd → Cmd) : (s.modCmd r t f).rampUs = s.rampUs := rfl
@[simp] theorem modCmd_phases (r t : Nat) (f : Cmd → Cmd) : (s.modCmd r t f).phases = s.phases := rfl
@[simp] theorem modCmd_mrs (r t : Nat) (f : Cmd → Cmd) : (s.modCmd r t f).mrs = s.mrs := rfl
@[simp] theorem modCmd_unsig (r t : Nat) (f : Cmd → Cmd) : (s.modCmd r t f).unsig = s.unsig := rfl
@[simp] theorem modCmd_progs (r t : Nat) (f : Cmd → Cmd) : (s.modCmd r t f).progs = s.progs := rfl
@[simp] theorem modCmd_runs (r t : Nat) (f : Cmd → Cmd) : (s.modCmd r t f).runs = s.runs := rfl
@[simp] theorem modCmd_nextRun (r t : Nat) (f : Cmd → Cmd) : (s.modCmd r t f).nextRun = s.nextRun := rfl
@[simp] theorem modCmd_nextProg (r t : Nat) (f : Cmd → Cmd) : (s.modCmd r t f).nextProg = s.nextProg := rfl
@[simp] theorem modCmd_tiles (r t : Nat) (f : Cmd → Cmd) : (s.modCmd r t f).tiles = s.tiles := rfl
@[simp] theorem modCmd_stays (r t : Nat) (f : Cmd → Cmd) : (s.modCmd r t f).stays = s.stays := rfl
@[simp] theorem modCmd_scales (r t : Nat) (f : Cmd → Cmd) : (s.modCmd r t f).scales = s.scales := rfl
@[simp] theorem modCmd_deck (r t : Nat) (f : Cmd → Cmd) : (s.modCmd r t f).deck = s.deck := rfl
@[simp] theorem modCmd_full (r t : Nat) (f : Cmd → Cmd) : (s.modCmd r t f).full = s.full := rfl
@[simp] theorem modCmd_waiters (r t : Nat) (f : Cmd → Cmd) : (s.modCmd r t f).waiters = s.waiters := rfl
@[simp] theorem modCmd_hbm (r t : Nat) (f : Cmd → Cmd) : (s.modCmd r t f).hbm = s.hbm := rfl
@[simp] theorem modCmd_poisoned (r t : Nat) (f : Cmd → Cmd) : (s.modCmd r t f).poisoned = s.poisoned := rfl
@[simp] theorem modCmd_host (r t : Nat) (f : Cmd → Cmd) : (s.modCmd r t f).host = s.host := rfl
@[simp] theorem modCmd_resUsed (r t : Nat) (f : Cmd → Cmd) : (s.modCmd r t f).resUsed = s.resUsed := rfl
@[simp] theorem modCmd_ceilUsed (r t : Nat) (f : Cmd → Cmd) : (s.modCmd r t f).ceilUsed = s.ceilUsed := rfl
@[simp] theorem modCmd_turnPart (r t : Nat) (f : Cmd → Cmd) : (s.modCmd r t f).turnPart = s.turnPart := rfl
@[simp] theorem modCmd_turnRing (r t : Nat) (f : Cmd → Cmd) : (s.modCmd r t f).turnRing = s.turnRing := rfl
@[simp] theorem modCmd_fedOut (r t : Nat) (f : Cmd → Cmd) : (s.modCmd r t f).fedOut = s.fedOut := rfl
@[simp] theorem modCmd_held (r t : Nat) (f : Cmd → Cmd) : (s.modCmd r t f).held = s.held := rfl
@[simp] theorem modCmd_turnRsv (r t : Nat) (f : Cmd → Cmd) : (s.modCmd r t f).turnRsv = s.turnRsv := rfl
@[simp] theorem modCmd_turnExc (r t : Nat) (f : Cmd → Cmd) : (s.modCmd r t f).turnExc = s.turnExc := rfl
@[simp] theorem modCmd_deckCe (r t : Nat) (f : Cmd → Cmd) : (s.modCmd r t f).deckCe = s.deckCe := rfl
@[simp] theorem modCmd_ceDue (r t : Nat) (f : Cmd → Cmd) : (s.modCmd r t f).ceDue = s.ceDue := rfl
@[simp] theorem modCmd_credits (r t : Nat) (f : Cmd → Cmd) : (s.modCmd r t f).credits = s.credits := rfl
@[simp] theorem modCmd_replays (r t : Nat) (f : Cmd → Cmd) : (s.modCmd r t f).replays = s.replays := rfl
@[simp] theorem modCmd_atomicSeq (r t : Nat) (f : Cmd → Cmd) : (s.modCmd r t f).atomicSeq = s.atomicSeq := rfl
@[simp] theorem modCmd_hashLast (r t : Nat) (f : Cmd → Cmd) : (s.modCmd r t f).hashLast = s.hashLast := rfl
@[simp] theorem modCmd_config (r t : Nat) (f : Cmd → Cmd) : (s.modCmd r t f).config = s.config := rfl
@[simp] theorem modCmd_commit (r t : Nat) (f : Cmd → Cmd) : (s.modCmd r t f).commit = s.commit := rfl
@[simp] theorem modCmd_degradedRes (r t : Nat) (f : Cmd → Cmd) : (s.modCmd r t f).degradedRes = s.degradedRes := rfl
@[simp] theorem modCmd_faults (r t : Nat) (f : Cmd → Cmd) : (s.modCmd r t f).faults = s.faults := rfl
@[simp] theorem modCmd_evPhase (r t : Nat) (f : Cmd → Cmd) : (s.modCmd r t f).evPhase = s.evPhase := rfl
@[simp] theorem modCmd_evLost (r t : Nat) (f : Cmd → Cmd) : (s.modCmd r t f).evLost = s.evLost := rfl
@[simp] theorem modCmd_evHeld (r t : Nat) (f : Cmd → Cmd) : (s.modCmd r t f).evHeld = s.evHeld := rfl
@[simp] theorem modCmd_ceNow (r t : Nat) (f : Cmd → Cmd) : (s.modCmd r t f).ceNow = s.ceNow := rfl
@[simp] theorem modCmd_peerMasks (r t : Nat) (f : Cmd → Cmd) : (s.modCmd r t f).peerMasks = s.peerMasks := rfl
@[simp] theorem modCmd_conflicts (r t : Nat) (f : Cmd → Cmd) : (s.modCmd r t f).conflicts = s.conflicts := rfl
@[simp] theorem modCmd_restores (r t : Nat) (f : Cmd → Cmd) : (s.modCmd r t f).restores = s.restores := rfl
@[simp] theorem modCmd_applied (r t : Nat) (f : Cmd → Cmd) : (s.modCmd r t f).applied = s.applied := rfl
@[simp] theorem modCmd_digests (r t : Nat) (f : Cmd → Cmd) : (s.modCmd r t f).digests = s.digests := rfl
@[simp] theorem modCmd_trace (r t : Nat) (f : Cmd → Cmd) : (s.modCmd r t f).trace = s.trace := rfl
@[simp] theorem modCmd_fuses (r t : Nat) (f : Cmd → Cmd) : (s.modCmd r t f).fuses = s.fuses := rfl
@[simp] theorem modCmd_bankA (r t : Nat) (f : Cmd → Cmd) : (s.modCmd r t f).bankA = s.bankA := rfl
@[simp] theorem modCmd_bankB (r t : Nat) (f : Cmd → Cmd) : (s.modCmd r t f).bankB = s.bankB := rfl
@[simp] theorem modCmd_reverted (r t : Nat) (f : Cmd → Cmd) : (s.modCmd r t f).reverted = s.reverted := rfl
@[simp] theorem modCmd_fallback (r t : Nat) (f : Cmd → Cmd) : (s.modCmd r t f).fallback = s.fallback := rfl
@[simp] theorem modCmd_swStart (r t : Nat) (f : Cmd → Cmd) : (s.modCmd r t f).swStart = s.swStart := rfl
@[simp] theorem modCmd_policies (r t : Nat) (f : Cmd → Cmd) : (s.modCmd r t f).policies = s.policies := rfl
@[simp] theorem modCmd_scrubs (r t : Nat) (f : Cmd → Cmd) : (s.modCmd r t f).scrubs = s.scrubs := rfl
@[simp] theorem modCmd_scrubInfo (r t : Nat) (f : Cmd → Cmd) : (s.modCmd r t f).scrubInfo = s.scrubInfo := rfl
@[simp] theorem modCmd_hashes (r t : Nat) (f : Cmd → Cmd) : (s.modCmd r t f).hashes = s.hashes := rfl
@[simp] theorem modCmd_spdm (r t : Nat) (f : Cmd → Cmd) : (s.modCmd r t f).spdm = s.spdm := rfl
@[simp] theorem modCmd_ide (r t : Nat) (f : Cmd → Cmd) : (s.modCmd r t f).ide = s.ide := rfl
@[simp] theorem modCmd_csCtx (r t : Nat) (f : Cmd → Cmd) : (s.modCmd r t f).csCtx = s.csCtx := rfl
@[simp] theorem modCmd_vault (r t : Nat) (f : Cmd → Cmd) : (s.modCmd r t f).vault = s.vault := rfl
@[simp] theorem modCmd_vaultBad (r t : Nat) (f : Cmd → Cmd) : (s.modCmd r t f).vaultBad = s.vaultBad := rfl
@[simp] theorem modCmd_thermal (r t : Nat) (f : Cmd → Cmd) : (s.modCmd r t f).thermal = s.thermal := rfl
@[simp] theorem modCmd_power (r t : Nat) (f : Cmd → Cmd) : (s.modCmd r t f).power = s.power := rfl
@[simp] theorem modCmd_jtag (r t : Nat) (f : Cmd → Cmd) : (s.modCmd r t f).jtag = s.jtag := rfl
@[simp] theorem modCmd_outs (r t : Nat) (f : Cmd → Cmd) : (s.modCmd r t f).outs = s.outs := rfl
@[simp] theorem modCmd_draws (r t : Nat) (f : Cmd → Cmd) : (s.modCmd r t f).draws = s.draws := rfl

/-! Reads after writes -/

/-- The number of a register names it. -/
theorem reg_ctorIdx_inj {a b : Reg} (h : a.ctorIdx = b.ctorIdx) : a = b := by
  rw [← Reg.ofNat_ctorIdx a, ← Reg.ofNat_ctorIdx b, h]

/-- There are fewer than 256 registers by name. -/
theorem reg_ctorIdx_lt (a : Reg) : a.ctorIdx < 256 := by cases a <;> decide

/-- The key of a register in the table names the register and its index. -/
theorem regKey_inj {a b : Reg} {j k : Nat} (h : regKey a j = regKey b k) : a = b ∧ j = k := by
  have ha := reg_ctorIdx_lt a
  have hb := reg_ctorIdx_lt b
  unfold regKey at h
  exact ⟨reg_ctorIdx_inj (by omega), by omega⟩

/-- A register set reads back. -/
@[simp] theorem rget_rset_same (r : Reg) (k : Nat) (v : W64) : (s.rset r k v).rget r k = v := by
  unfold rget rset; exact tabGet_tabSet_same _ _ _ _

/-- A register set leaves every other register alone. -/
theorem rget_rset_other (r q : Reg) (j k : Nat) (v : W64) (h : q ≠ r ∨ j ≠ k) : (s.rset r k v).rget q j = s.rget q j := by
  unfold rget rset
  refine tabGet_tabSet_keep _ _ _ _ _ _ (fun e => ?_)
  have := regKey_inj e
  rcases h with h | h
  · exact h this.1
  · exact h this.2

/-- A field set reads back, modulo its width. -/
@[simp] theorem fget_fset_same (f : Fld) (k v : Nat) (h : f.lo + f.w ≤ 64) : (s.fset f k v).fget f k = v % 2 ^ f.w := by
  unfold fget fset; rw [rget_rset_same, getBits_setBits_same _ _ _ _ h]

/-- A field set leaves every field of another register, or of another index, alone. -/
theorem fget_fset_reg (f g : Fld) (j k v : Nat) (h : g.r ≠ f.r ∨ j ≠ k) : (s.fset f k v).fget g j = s.fget g j := by
  unfold fget fset; rw [rget_rset_other s _ _ _ _ _ h]

/-- A field set leaves the fields beside it alone. -/
theorem fget_fset_field (f g : Fld) (k v : Nat) (hr : g.r = f.r) (h : f.lo + f.w ≤ g.lo ∨ g.lo + g.w ≤ f.lo) :
    (s.fset f k v).fget g k = s.fget g k := by
  unfold fget fset; rw [hr, rget_rset_same, getBits_setBits_other _ _ _ _ _ _ h]

@[simp] theorem bearing_setBearing (c : Nat) (b : Bearing) : (s.setBearing c b).bearing c = b := tabGet_tabSet_same _ _ _ _
@[simp] theorem win_setWin (w : Nat) (v : Window) : (s.setWin w v).win w = v := tabGet_tabSet_same _ _ _ _
@[simp] theorem port_setPort (p : Nat) (v : Port) : (s.setPort p v).port p = v := tabGet_tabSet_same _ _ _ _
@[simp] theorem desc_setDesc (n : Nat) (v : Desc) : (s.setDesc n v).desc n = v := tabGet_tabSet_same _ _ _ _
@[simp] theorem gate_setGate (g : Nat) (v : Gate) : (s.setGate g v).gate g = v := tabGet_tabSet_same _ _ _ _
@[simp] theorem pwm_setPwm (n : Nat) (v : Pwm) : (s.setPwm n v).pwm n = v := tabGet_tabSet_same _ _ _ _
@[simp] theorem group_setGroup (g : Nat) (v : OutBuf) : (s.setGroup g v).group g = v := tabGet_tabSet_same _ _ _ _
@[simp] theorem queue_setQueue (q : Nat) (v : OutBuf) : (s.setQueue q v).queue q = v := tabGet_tabSet_same _ _ _ _
@[simp] theorem advTag_setAdvTag (k : Nat) (v : OutBuf) : (s.setAdvTag k v).advTag k = v := tabGet_tabSet_same _ _ _ _
@[simp] theorem tile_setTile (t : Nat) (v : Tile) : (s.setTile t v).tile t = v := tabGet_tabSet_same _ _ _ _
@[simp] theorem stay_setStay (t c : Nat) (v : Stay) : (s.setStay t c v).stay t c = v := tabGet_tabSet_same _ _ _ _
@[simp] theorem semWaiters_set (n : Nat) (v : List Waiter) : (s.setSemWaiters n v).semWaiters n = v := tabGet_tabSet_same _ _ _ _
@[simp] theorem mr_setMr (p h : Nat) (v : Region) : (s.setMr p h v).mr p h = v := tabGet_tabSet_same _ _ _ _
@[simp] theorem ctx_setCtx (c : Nat) (v : CsCtx) : (s.setCtx c v).ctx c = v := tabGet_tabSet_same _ _ _ _
@[simp] theorem hashCtx_setHashCtx (c : Nat) (v : Option HashCtx) : (s.setHashCtx c v).hashCtx c = v := tabGet_tabSet_same _ _ _ _

end State
end Sys2Proof.Machine
end

