-- ==== Sys2Proof/Laws/Ops.lean ====
section
/-! SUPPORT. What each shared operation can do, said once: counting, charging, tracing, posting events and recording faults
change ledgers and logs only; a command's end changes its record only. -/

namespace Sys2Proof.Machine

open Sys2Proof.Safety

/-- `t` is `s` with nothing changed but ledger registers and logs, and host memory only where the device logs. -/
structure Logs (s t : State) : Prop where
  shape : t = { s with regs := t.regs, host := t.host, trace := t.trace, draws := t.draws, resUsed := t.resUsed,
                       ceilUsed := t.ceilUsed, evPhase := t.evPhase, evHeld := t.evHeld, evLost := t.evLost, unsig := t.unsig,
                       outs := t.outs, faults := t.faults }
  reg : ∀ q k, ledger q = false → t.rget q k = s.rget q k
  mode : t.fget F.TRC_STAT_MODE 0 = s.fget F.TRC_STAT_MODE 0
  state : t.fget F.TRC_STAT_STATE 0 = s.fget F.TRC_STAT_STATE 0
  stream : t.trace.stream = s.trace.stream ∧ t.trace.part = s.trace.part
  host : ∀ a, ¬ LogByte s a → memGet t.host a = memGet s.host a
  hostWf : memWf s.host = true → memWf t.host = true

namespace Logs

variable {s t u : State}

theorem refl (s : State) : Logs s s := ⟨rfl, fun _ _ _ => rfl, rfl, rfl, ⟨rfl, rfl⟩, fun _ _ => rfl, id⟩

/-- A field of a register that is no ledger. -/
theorem field (h : Logs s t) (f : Fld) (k : Nat) (hf : ledger f.r = false) : t.fget f k = s.fget f k := by
  unfold State.fget; rw [h.reg _ _ hf]

theorem flag (h : Logs s t) (f : Fld) (k : Nat) (hf : ledger f.r = false) : t.flag f k = s.flag f k := by
  unfold State.flag; rw [h.field f k hf]

/-- The bytes that may be logged into are the same. -/
theorem logByte (h : Logs s t) (a : Nat) : LogByte t a ↔ LogByte s a := by
  have hm : t.mrs = s.mrs := by rw [h.shape]
  have ha : ∀ o, t.streamAddr o = s.streamAddr o := fun o => by
    unfold State.streamAddr State.mr; rw [h.stream.1, h.stream.2, hm]
  have hr : t.streamRecs = s.streamRecs := by unfold State.streamRecs; rw [h.stream.1]
  have hmode : t.flag F.TRC_STAT_MODE 0 = s.flag F.TRC_STAT_MODE 0 := by unfold State.flag; rw [h.mode]
  unfold LogByte
  rw [h.flag _ _ rfl, h.field F.FLT_EVR_BASE_ADDR 0 rfl, hmode, hr]
  simp only [ha]

theorem trans (h : Logs s t) (g : Logs t u) : Logs s u where
  shape := by rw [g.shape, h.shape]
  reg q k hq := (g.reg q k hq).trans (h.reg q k hq)
  mode := g.mode.trans h.mode
  state := g.state.trans h.state
  stream := ⟨g.stream.1.trans h.stream.1, g.stream.2.trans h.stream.2⟩
  host a ha := (g.host a (fun e => ha ((h.logByte a).1 e))).trans (h.host a ha)
  hostWf := fun w => g.hostWf (h.hostWf w)

/-- Nothing but ledgers and logs changes. -/
theorem frame (h : Logs s t) : Frame noReg [] s t := by
  refine ⟨by rw [h.shape], fun q k hq _ => h.reg q k hq, fun p _ => ?_⟩
  cases p <;> simp only [Same] <;> first | exact h.host | (rw [h.shape]; simp) | rw [h.shape]

end Logs

namespace State

variable (s : State)

/-- A field that is set to what it may hold, in a ledger register, keeping the trace's mode and state. -/
theorem logs_fset (f : Fld) (k v : Nat) (hf : ledger f.r = true) (hm : f.r ≠ .TRC_STAT ∨ (3 ≤ f.lo ∧ f.lo + f.w ≤ 5)) :
    Logs s (s.fset f k v) := by
  have ht : ∀ g : Fld, g.r = .TRC_STAT → (g.lo + g.w ≤ 3 ∨ 5 ≤ g.lo) → (s.fset f k v).fget g 0 = s.fget g 0 := by
    intro g hg hw
    by_cases h : f.r = .TRC_STAT
    · rcases hm with hm | hm
      · exact absurd h hm
      · by_cases hk : k = 0
        · subst hk; exact fget_fset_field s f g 0 v (hg.trans h.symm) (by omega)
        · exact fget_fset_reg s f g 0 k v (.inr (fun e => hk e.symm))
    · exact fget_fset_reg s f g 0 k v (.inl (fun e => h (e.symm.trans hg)))
  refine ⟨rfl, fun q j hq => ?_, ht _ rfl (.inr (by decide)), ht _ rfl (.inl (by decide)), ⟨rfl, rfl⟩, fun _ _ => rfl, id⟩
  exact rget_rset_other s _ _ _ _ _ (.inl (fun e => by rw [e, hf] at hq; cases hq))

/-- One counter's contribution changes ledgers only (R320, R322). -/
theorem countOne_logs (m : Bool) (n k : Nat) : Logs s (countOne m n k s) := by
  unfold countOne
  split
  · exact logs_fset s _ _ _ rfl (.inl (by decide))
  · dsimp only
    split
    · exact logs_fset s _ _ _ rfl (.inl (by decide))
    · exact (logs_fset s _ _ _ rfl (.inl (by decide))).trans (logs_fset _ _ _ _ rfl (.inl (by decide)))

/-- A fold of steps that each change logs only. -/
theorem forEach_logs {α : Type} (f : α → State → State) (hf : ∀ a s, Logs s (f a s)) (l : List α) : Logs s (forEach l f s) := by
  unfold forEach
  induction l generalizing s with
  | nil => exact Logs.refl s
  | cons a l ih => exact (hf a s).trans (ih (f a s))

/-- An event counted changes ledgers only (R320). -/
theorem count_logs (code : Nat) (qual part : Option Nat) (n : Nat) : Logs s (s.count code qual part n) := by
  unfold count
  split
  · exact forEach_logs s _ (fun k s => countOne_logs s _ _ k) _
  · exact Logs.refl s

/-- A transfer charged changes buckets and ledgers only (R241). -/
theorem charge_logs (p r n : Nat) : Logs s (s.charge p r n) := by
  unfold charge
  refine Logs.trans ?_ (count_logs _ _ _ _ _)
  refine Logs.trans ?_ (count_logs _ _ _ _ _)
  refine Logs.trans ?_ (logs_fset _ _ _ _ rfl (.inl (by decide)))
  refine Logs.trans ?_ (logs_fset _ _ _ _ rfl (.inl (by decide)))
  exact ⟨rfl, fun _ _ _ => rfl, rfl, rfl, ⟨rfl, rfl⟩, fun _ _ => rfl, id⟩

/-- Host bytes written inside the logs. -/
theorem hostWrite_logs (a : Nat) (bs : List Byte)
    (h : ∀ x, a % 2 ^ 64 ≤ x → x < a % 2 ^ 64 + bs.length → LogByte s x) : Logs s (s.hostWrite a bs) := by
  refine ⟨rfl, fun _ _ _ => rfl, rfl, rfl, ⟨rfl, rfl⟩, fun x hx => ?_, fun w => memWf_memWrite _ _ _ w⟩
  unfold hostWrite
  dsimp only
  rw [memGet_memWrite]
  split
  next hr => exact absurd (h x hr.1 hr.2) hx
  · rfl


theorem leBytes_length (n x : Nat) : (leBytes n x).length = n := by
  induction n generalizing x with
  | zero => rfl
  | succ n ih => simp [leBytes, ih]

theorem traceBytes_length (r : TraceRec) : (traceBytes r).length = 16 := by simp [traceBytes, leBytes_length]

/-- A change of the trace's state that keeps its stream and its owner. -/
theorem logs_trace (x : Trace) (h : x.stream = s.trace.stream ∧ x.part = s.trace.part) : Logs s { s with trace := x } :=
  ⟨rfl, fun _ _ _ => rfl, rfl, rfl, h, fun _ _ => rfl, id⟩

/-- The queued STREAM records go to the stream's own region (R318). -/
theorem streamDrain_logs (hm : s.flag F.TRC_STAT_MODE 0 = true) : Logs s s.streamDrain := by
  have step : ∀ (t : State) (o : Nat) (bs : List Byte), Logs s t → (o = 0 ∨ ∃ k, o = 256 + k % t.streamRecs * 16) →
      bs.length ≤ 16 → Logs s (t.hostWrite (t.streamAddr o) bs) := by
    intro t o bs h ho hl
    refine h.trans (hostWrite_logs t _ _ (fun x hx hx' => .inr ⟨?_, o, x - t.streamAddr o % 2 ^ 64, by omega, by omega, ho⟩))
    have : t.flag F.TRC_STAT_MODE 0 = s.flag F.TRC_STAT_MODE 0 := by unfold State.flag; rw [h.mode]
    rw [this]; exact hm
  have recs : ∀ t : State, Logs s t → t.streamRecs = s.streamRecs := fun t h => by unfold streamRecs; rw [h.stream.1]
  have fold : ∀ (l : List (TraceRec × Nat)) (n : Nat) (t : State), Logs s t → Logs s (l.foldl
      (fun s1 (r, i) => s1.hostWrite (s1.streamAddr (256 + ((n + i) % s1.streamRecs) * 16)) (traceBytes r)) t) := by
    intro l n
    induction l with
    | nil => exact fun t h => h
    | cons a l ih =>
      intro t h
      exact ih _ (step t _ _ h (.inr ⟨_, rfl⟩) (by rw [traceBytes_length]))
  unfold streamDrain
  dsimp only
  refine Logs.trans ?_ (logs_trace _ _ ⟨rfl, rfl⟩)
  refine Logs.trans ?_ (charge_logs _ _ _ _)
  exact step _ _ _ (fold _ _ _ (Logs.refl s)) (.inl rfl) (by rw [leBytes_length]; decide)

/-- One record put in the buffer or the STREAM queue changes logs only (R316, R318). -/
theorem tracePut_logs (r : TraceRec) : Logs s (s.tracePut r) := by
  unfold tracePut
  have h0 : Logs s (s.fadd F.TRC_CNT_WRITTEN 0 1) := logs_fset s _ _ _ rfl (.inl (by decide))
  dsimp only
  split
  next hm =>
    have h1 := h0.trans (logs_trace (s.fadd F.TRC_CNT_WRITTEN 0 1)
      { (s.fadd F.TRC_CNT_WRITTEN 0 1).trace with buf := (s.fadd F.TRC_CNT_WRITTEN 0 1).trace.buf ++ [r] } ⟨rfl, rfl⟩)
    split
    · exact h1.trans (streamDrain_logs _ hm)
    · exact h1
  next =>
    refine Logs.trans (h0.trans ?_) (logs_trace _ _ ⟨rfl, rfl⟩)
    split
    · exact Logs.refl _
    · exact logs_fset _ _ _ _ rfl (.inr (by decide))

/-- A lost record changes logs only (R313). -/
theorem traceLost_logs (src : Nat) (part : Option Nat) : Logs s (s.traceLost src part) := by
  unfold traceLost
  dsimp only
  refine Logs.trans ?_ (count_logs _ _ _ _ _)
  refine Logs.trans ?_ (logs_fset _ _ _ _ rfl (.inr (by decide)))
  refine Logs.trans ?_ (logs_fset _ _ _ _ rfl (.inl (by decide)))
  exact logs_trace s _ ⟨rfl, rfl⟩

theorem logs_draws (n : Nat) : Logs s { s with draws := n } :=
  ⟨rfl, fun _ _ _ => rfl, rfl, rfl, ⟨rfl, rfl⟩, fun _ _ => rfl, id⟩

theorem traceTake_logs (src ty : Nat) (part : Option Nat) (fs : List (Nat × Nat)) : Logs s (s.traceTake src ty part fs) := by
  unfold traceTake
  dsimp only
  refine (logs_draws s (s.draws + 1)).trans ?_
  split
  · exact traceLost_logs _ _ _
  · exact (count_logs _ _ _ _ _).trans (tracePut_logs _ _)

/-- A trace record changes logs only (R312-R318). -/
theorem traceEv_logs (src ty : Nat) (part : Option Nat) (fs : List (Nat × Nat)) : Logs s (s.traceEv src ty part fs) := by
  have h := traceTake_logs s src ty part fs
  have ite : ∀ (c : Prop) [Decidable c] (a b : State), Logs s a → Logs s b → Logs s (if c then a else b) := by
    intro c _ a b ha hb; split <;> assumption
  unfold traceEv
  exact ite _ _ _ (Logs.refl s) (ite _ _ _ (Logs.refl s) (ite _ _ _ h (ite _ _ _
    (ite _ _ _ h (h.trans (logs_trace _ _ ⟨rfl, rfl⟩))) (Logs.refl s))))

/-- One more unsignalled entry changes logs only (R117). -/
theorem unsignalled_logs (fn vec : Nat) (en : Bool) (n : Nat) : Logs s (s.unsignalled fn vec en n) := by
  unfold unsignalled msix emit
  dsimp only
  split <;> exact ⟨rfl, fun _ _ _ => rfl, rfl, rfl, ⟨rfl, rfl⟩, fun _ _ => rfl, id⟩

theorem eventBytes_length (e : EvRec) (p : Bool) : (eventBytes e p).length = 32 := by simp [eventBytes, leBytes_length]

theorem fget_lt (f : Fld) (k : Nat) : s.fget f k < 2 ^ f.w := by unfold fget getBits; exact BitVec.isLt _

/-- An event entry goes to the event ring, charged to a partition (R239, R264). -/
theorem eventWrite_logs (e : EvRec) (he : s.flag F.FLT_EVR_CFG_EN 0 = true) : Logs s (s.eventWrite e) := by
  have h0 : Logs s (s.hostWrite (s.fget F.FLT_EVR_BASE_ADDR 0 * 4096 + s.fget F.FLT_EVR_PTR_TAIL 0 * 32) (eventBytes e s.evPhase)) :=
    hostWrite_logs s _ _ (fun x hx hx' => .inl ⟨he, _, fget_lt s _ _, hx, by rw [eventBytes_length] at hx'; exact hx'⟩)
  unfold eventWrite
  dsimp only
  refine Logs.trans ?_ (unsignalled_logs _ _ _ _ _)
  refine Logs.trans ?_ (charge_logs _ _ _ _)
  refine Logs.trans ?_ (logs_fset _ _ _ _ rfl (.inl (by decide)))
  exact h0.trans ⟨rfl, fun _ _ _ => rfl, rfl, rfl, ⟨rfl, rfl⟩, fun _ _ => rfl, id⟩

/-- EVENTS_LOST changes logs only (R266). -/
theorem eventsLost_logs : Logs s s.eventsLost := by
  unfold eventsLost
  split
  · exact Logs.refl s
  next h =>
    refine Logs.trans (t := { s with evLost := 0 }) ⟨rfl, fun _ _ _ => rfl, rfl, rfl, ⟨rfl, rfl⟩, fun _ _ => rfl, id⟩
      (eventWrite_logs _ _ ?_)
    simp only [not_or, Bool.not_eq_eq_eq_not, Bool.not_true, Bool.not_eq_false] at h
    exact h.2.2.1

/-- An event entry written or lost changes logs only (R264, R266). -/
theorem eventPut_logs (e : EvRec) : Logs s (s.eventPut e) := by
  unfold eventPut
  split
  · refine Logs.trans ?_ (t := (s.fadd F.FLT_EVR_STAT_LOST 0 1).fset F.FLT_EVR_STAT_OVERFLOW 0 1)
      ⟨rfl, fun _ _ _ => rfl, rfl, rfl, ⟨rfl, rfl⟩, fun _ _ => rfl, id⟩
    exact Logs.trans (logs_fset _ _ _ _ rfl (.inl (by decide))) (logs_fset _ _ _ _ rfl (.inl (by decide)))
  · split
    next he => exact eventWrite_logs s e he
    · exact Logs.refl s

/-- An event posted changes logs only (R264-R266). -/
theorem eventPost_logs (e : EvRec) : Logs s (s.eventPost e) := by
  unfold eventPost
  split
  · exact Logs.refl s
  · split
    · exact ⟨rfl, fun _ _ _ => rfl, rfl, rfl, ⟨rfl, rfl⟩, fun _ _ => rfl, id⟩
    · exact (eventsLost_logs s).trans (eventPut_logs _ e)

theorem event_logs (ty part arg0 arg1 arg2 : Nat) : Logs s (s.event ty part arg0 arg1 arg2) := eventPost_logs s _

theorem faultNew_logs (f : FaultRec) : Logs s (s.faultNew f) := by
  unfold faultNew
  dsimp only
  refine Logs.trans ?_ (traceEv_logs _ _ _ _ _)
  refine Logs.trans ?_ (event_logs _ _ _ _ _ _)
  refine Logs.trans ?_ (logs_fset _ _ _ _ rfl (.inl (by decide)))
  exact ⟨rfl, fun _ _ _ => rfl, rfl, rfl, ⟨rfl, rfl⟩, fun _ _ => rfl, id⟩

/-- A fault recorded changes logs only (R261-R263). -/
theorem fault_logs (f : FaultRec) : Logs s (s.fault f) := by
  unfold fault
  split
  · split
    · exact ⟨rfl, fun _ _ _ => rfl, rfl, rfl, ⟨rfl, rfl⟩, fun _ _ => rfl, id⟩
    · exact faultNew_logs s f
  · exact faultNew_logs s f

/-- A discarded access changes logs only (R262). -/
theorem accessFault_logs (fn : Fn) (cause off : Nat) (data : W64) : Logs s (s.accessFault fn cause off data) := fault_logs s _

/-! ## Waiting at a Tollgate -/

/-- A step draws on nothing empty while all buckets of its partition hold tokens and all lanes credits (R241, R292). -/
theorem shortOf_none (t : State) (p : Nat) (h : Flowing s p) : s.shortOf t p = none := by
  unfold shortOf
  rw [Option.or_eq_none_iff, Option.map_eq_none_iff, List.find?_eq_none, List.find?_eq_none]
  refine ⟨fun i hi => ?_, fun k hk => ?_⟩
  · obtain ⟨r, hr, rfl⟩ := List.mem_map.1 hi
    simp [h.1 r (List.mem_range.1 hr)]
  · simp [h.2 k (List.mem_range.1 hk)]

/-- A transfer that meets nothing empty goes on at once. -/
theorem gated_eq (p : Nat) (c : Instr) (t : State) (h : Flowing s p) : s.gated p c t = t := by
  unfold gated; rw [shortOf_none s t p h]

/-- A gated command takes its effect, or nothing happens but that it waits (R241). -/
theorem gated_cases (p : Nat) (c : Instr) (t : State) :
    s.gated p c t = t ∨ s.gated p c t = s ∨ ∃ i, s.gated p c t = { s with held := s.held ++ [(c, i)] } := by
  unfold gated
  split
  · exact .inl rfl
  · split
    · exact .inr (.inl rfl)
    · exact .inr (.inr ⟨_, rfl⟩)

/-- The same for a command that moves bytes of several partitions. -/
theorem gatedAll_eq (ps : List Nat) (c : Instr) (t : State) (h : ∀ p ∈ ps, Flowing s p) : s.gatedAll ps c t = t := by
  unfold gatedAll
  rw [List.find?_eq_none.2 (fun p hp => by simp [shortOf_none s t p (h p hp)])]

/-! ## The end of a command -/

/-- A command's in-flight record after a change that keeps its ring, TAG and open end. -/
theorem findCmd_modCmd (r t : Nat) (f : Cmd → Cmd) (c : Cmd) (h : s.findCmd r t = some c)
    (hf : ∀ x, (f x).ring = x.ring ∧ (f x).tag = x.tag ∧ (f x).done = x.done) : (s.modCmd r t f).findCmd r t = some (f c) := by
  unfold findCmd at h ⊢
  unfold modCmd
  dsimp only
  generalize s.cmds = l at h ⊢
  induction l with
  | nil => cases h
  | cons x l ih =>
    simp only [List.map_cons, List.find?_cons] at h ⊢
    by_cases hx : (x.ring == r && x.tag == t && x.done == none) = true
    · rw [hx] at h ⊢
      simp only [Option.some.injEq] at h
      subst h
      simp only [if_true, hf, hx]
    · simp only [Bool.not_eq_true] at hx
      rw [hx] at h ⊢
      simp only [Bool.false_eq_true, if_false, hx]
      exact ih h

/-- A command that has ended is in flight with its status and result. -/
theorem ended_modCmd (r t st res : Nat) (c : Cmd) (h : s.findCmd r t = some c) :
    Ended (s.modCmd r t (fun x => { x with done := some (st, res) })) r t st res := by
  unfold findCmd at h
  have hc := List.mem_of_find?_eq_some h
  have hp := List.find?_some h
  refine ⟨{ c with done := some (st, res) }, ?_, ?_, ?_, rfl⟩
  · unfold modCmd
    dsimp only
    refine List.mem_map.2 ⟨c, hc, ?_⟩
    rw [if_pos hp]
  · simp at hp; exact hp.1.1
  · simp at hp; exact hp.1.2

end State
end Sys2Proof.Machine
end

