-- ==== Sys2Proof/Tests/Slice0.lean ====
section
/-! SUPPORT. Small checks: what well-formedness refuses, values the spec works out, and states that meet the hypotheses of
every statement. -/

namespace Sys2Proof.Tests

open Sys2Proof.Machine Sys2Proof.Machine.State Sys2Proof.Safety

/-! ## Small states -/

/-- Register fields set, one after the other. -/
def sets (s : State) (l : List (Fld × Nat × Nat)) : State := l.foldl (fun s x => s.fset x.1 x.2.1 x.2.2) s

/-- The device after host-ready. -/
def live : State := State.reset.fset F.KS_STAT_STATE 0 1

/-- The device after host-ready with register fields set. -/
def liveWith (l : List (Fld × Nat × Nat)) : State := sets live l

/-- A command of partition 0 on ring 0 that has passed its checks. -/
def theCmd (p : TCmd) : Cmd := { ring := 0, tag := 3, par := p, checked := true }

/-- A state with that command in flight. -/
def inFlight (s : State) (p : TCmd) : State := { s with cmds := [theCmd p] }

/-- An instruction word from its fields (R161). -/
def ins (op : Nat) (l : List (Nat × Nat)) : W128 := BitVec.ofNat 128 (l.foldl (fun n x => n + x.2 * 2 ^ x.1) op)

/-- A program of one role, loaded for partition 0. -/
def theProg (i : W128) (ops : List (List Byte)) (ring : Bool) : Prog :=
  { handle := 1, image := { ring := ring, roles := [{ instrs := [i, i] }], operands := ops }, pins := 1 }

/-- Its run on tile 0. -/
def theRun : Run := { id := 1, prog := 1, tiles := [0] }

/-- A state whose tile 0 runs that program, in its tail. -/
def running (s : State) (i : W128) (ops : List (List Byte)) (ring : Bool := false) (r : Run := theRun) : State :=
  { sets s [(F.PT_STAT_STATE, 0, 1), (F.TG_PART_TILES, 0, 1)] with
    progs := [theProg i ops ring], runs := [r], tiles := [(0, { run := some 1, inTail := true })] }

/-- The instruction it issues. -/
def issued (i : W128) (ops : List (List Byte)) (ring : Bool := false) (r : Run := theRun) : Issue :=
  { t := 0, r := r, g := theProg i ops ring, i := i }

/-- The 32 bytes of a dense operand in region 0: format, slot, slots, and its dimensions (R162). -/
def opnd (fmt slot n : Nat) (dims strides : List Nat) : List Byte :=
  leBytes 1 0 ++ leBytes 1 0 ++ leBytes 1 fmt ++ leBytes 1 0 ++ leBytes 2 slot ++ leBytes 2 n ++
    (dims.map (leBytes 2)).flatten ++ (strides.map (leBytes 4)).flatten

/-! ## Well-formedness -/

theorem test_wf_any_width : (Instr.registerWrite .pf 0 24 0).wf = true := by decide
theorem test_wf_outside_pf_window : (Instr.registerWrite .pf 0x4000000 32 0).wf = false := by decide
theorem test_wf_last_of_pf_window : (Instr.registerWrite .pf 0x3FFFFFC 32 0).wf = true := by decide
theorem test_wf_outside_vf_window : (Instr.registerWrite (.vf 3) 0x100000 32 0).wf = false := by decide
theorem test_wf_spi_words : (Instr.spiTransferEnd 0 (List.replicate 9 0)).wf = false := by decide
theorem test_wf_sensor_step :
    (Instr.thermalSample (Vector.replicate 4 8) (Vector.replicate 16 0) 0).wf = false ∧
      (Instr.thermalSample (Vector.replicate 4 16) (Vector.replicate 16 4) 0).wf = true := by decide
theorem test_wf_line_bytes : (Instr.linePacket 0 0 0 (List.replicate 65536 0) false true).wf = false := by
  simp only [Instr.wf, List.length_replicate]; decide

/-! ## States that meet the hypotheses of the statements -/

/-- Everything Ready asks, met at once by a command that is in flight alone. -/
theorem test_ready (p : TCmd) : Ready (inFlight live p) 0 3 (theCmd p) := by
  refine ⟨rfl, ?_, ?_, rfl, rfl, rfl, ?_⟩
  · show live.resetBusy 0 = false; decide
  · show live.switching = false; decide
  intro x hx _ _ _
  simpa [inFlight] using hx

/-- No transfer of any partition waits after reset (R241, R243, R292). -/
theorem test_flowing : ∀ p, p < 8 → Flowing live p := by unfold Flowing; decide

/-- What flows in `live` flows in a state with the same buckets and lanes. -/
theorem flows {s : State} (p : Nat) (hp : p < 8) (hb : ∀ i, i < 40 → s.fget F.TG_CFG_BURST i = live.fget F.TG_CFG_BURST i)
    (hu : s.ceilUsed = live.ceilUsed) (hc : s.credits = live.credits) : Flowing s p := by
  refine ⟨fun k hk => ?_, fun l hl => ?_⟩
  · have := (test_flowing p hp).1 k hk
    unfold State.dry State.burst at this ⊢
    rw [hb _ (by unfold State.tgIdx; omega), hu]; exact this
  · have := (test_flowing p hp).2 l hl
    unfold State.laneDry at this ⊢
    rw [hc]; exact this

theorem test_step_front : ({ live with pending := [.supplyGood] } : State).pending = .supplyGood :: [] := by decide
theorem test_tick : State.reset.pending = [] ∧ ({ State.reset with power := { pll := true } } : State).power.pll = true := by decide
theorem test_queue : WfQueue { live with pending := [.registerWrite .pf 0 32 0], held := [(.fwStage 0, 3)] } := by
  unfold WfQueue; decide
theorem test_canonical : Canonical live := by unfold Canonical; decide
theorem test_live : Live live := by unfold Live; decide

theorem test_rings :
    (live.ownsRing .pf 127 = true ∧ live.ringState 127 = 0 ∧ live.tdiLocked 7 = false) ∧
    (let s := liveWith [(F.TRH_RING_STAT_STATE, 5, 1), (F.TRH_RING_CFG_SQ_LOG2, 5, 16), (F.TRH_RING_CFG_CQ_LOG2, 5, 4)]
     Live s ∧ s.ownsRing .pf 5 = true ∧ s.ringState 5 ≠ 0 ∧ s.fget F.TRH_RING_CFG_SQ_LOG2 5 = 16) ∧
    (let s := liveWith [(F.TRH_RING_CFG_OWNER, 127, 1), (F.TRH_RING_STAT_STATE, 127, 2)]
     s.ownsRing (.vf 7) 127 = true ∧ s.ringState 127 = 2 ∧ s.ringInflight 127 = 0) ∧
    ¬ (live.ringState 0 = 2 ∧ live.ringInflight 0 = 0) := by unfold Live; decide

theorem test_doorbells :
    let s := liveWith [(F.TRH_RING_CFG_SQ_LOG2, 0, 4), (F.TRH_RING_CFG_CQ_LOG2, 0, 4), (F.TRH_RING_STAT_STATE, 0, 1),
      (F.TRH_RING_PTR_CQ_TAIL, 0, 15)]
    Live s ∧ s.ownsRing .pf 0 = true ∧ (15#16).toNat < 2 ^ s.fget F.TRH_RING_CFG_SQ_LOG2 0 ∧
      2 ^ s.fget F.TRH_RING_CFG_SQ_LOG2 0 ≤ (16#16).toNat ∧ s.ringState 0 = 1 ∧
      (15 + 16 - s.fget F.TRH_RING_PTR_CQ_HEAD 0) % 16 ≤ (s.fget F.TRH_RING_PTR_CQ_TAIL 0 + 16 - s.fget F.TRH_RING_PTR_CQ_HEAD 0) % 16 ∧
      s.ownsRing (.vf 0) 0 = false ∧ (s.fset F.TRH_RING_CFG_OWNER 0 1).ownsRing .pf 0 = false := by unfold Live; decide

/-- A running ring of 16 slots with one packet at its head, of LEN `n`. -/
def oneSlot (n : Nat) : State :=
  { liveWith [(F.TRH_RING_CFG_SQ_LOG2, 0, 4), (F.TRH_RING_CFG_CQ_LOG2, 0, 4), (F.TRH_RING_STAT_STATE, 0, 1),
      (F.TRH_RING_PTR_SQ_TAIL, 0, 1)] with host := memWrite [] 1 [BitVec.ofNat 8 n] }

theorem test_fetch :
    (∀ n, n ∈ [0, 1, 16] → (oneSlot n).fetchable 0 = true) ∧ (oneSlot 1).headLen 0 ≤ 15 ∧ (oneSlot 0).headLen 0 = 0 ∧
    2 ^ (oneSlot 16).fget F.TRH_RING_CFG_SQ_LOG2 0 - 1 < (oneSlot 16).headLen 0 ∧ Flowing (oneSlot 1) 0 := by
  unfold Flowing; decide

/-- Ring 127, of partition 7, alone has a packet. -/
def lastRing : State :=
  { liveWith [(F.TRH_RING_CFG_SQ_LOG2, 127, 4), (F.TRH_RING_CFG_CQ_LOG2, 127, 4), (F.TRH_RING_STAT_STATE, 127, 1),
      (F.TRH_RING_PTR_SQ_TAIL, 127, 1)] with host := memWrite [] 1 [1] }

theorem test_fetch_turn : (oneSlot 1).nextFetch = some 0 ∧ live.nextFetch = none ∧ lastRing.nextFetch = some 127 := by decide

theorem test_completion :
    let c : Cmd := { theCmd .nop with done := some (0xFFFF, 0xFFFFFFFF) }
    let s : State := { live with cmds := [c] }
    s.switching = false ∧ s.resetBusy 0 = false ∧ s.postable 0 3 = some c ∧ live.postable 0 3 = none ∧ c.idPart < 8 ∧
      ({ liveWith [(F.TRH_RING_IRQ_IRQ_EN, 2, 1), (F.TRH_RING_IRQ_COAL_US, 2, 5)] with unsig := [(2, 1)] } : State).flag
        F.TRH_RING_IRQ_IRQ_EN 2 = true := by decide

theorem test_phase :
    let c : Cmd := { theCmd .nop with done := some (0, 0) }
    let s (tail : Nat) : State := { liveWith [(F.TRH_RING_CFG_CQ_LOG2, 0, 4), (F.TRH_RING_PTR_CQ_TAIL, 0, tail)] with cmds := [c], phases := 3 }
    (s 15).switching = false ∧ (s 15).resetBusy 0 = false ∧ (s 15).postable 0 3 = some c ∧ c.part < 8 ∧
      (s 15).fget F.TRH_RING_PTR_CQ_TAIL 0 + 1 = 2 ^ (s 15).fget F.TRH_RING_CFG_CQ_LOG2 0 ∧
      (s 14).postable 0 3 = some c ∧ (s 14).fget F.TRH_RING_PTR_CQ_TAIL 0 + 1 ≠ 2 ^ (s 14).fget F.TRH_RING_CFG_CQ_LOG2 0 ∧
      live.ownsRing .pf 127 = true ∧ live.ringState 127 = 0 ∧ live.tdiLocked 7 = false ∧ (0x04080000#32).getLsbD 30 = false ∧
      (0x04080000#32).toNat / 2 ^ 22 % 32 = 16 ∧ (0x04080000#32).toNat / 2 ^ 17 % 32 = 4 := by decide

theorem test_phase_flows (l : List Cmd) (n : Nat) : Flowing { live with cmds := l, phases := n } 0 :=
  flows 0 (by decide) (fun _ _ => rfl) rfl rfl

theorem test_phase_logs_nothing (x : Nat) : ¬ LogByte (inFlight live .nop) x := by
  have h1 : (inFlight live .nop).flag F.FLT_EVR_CFG_EN 0 = false := by decide
  have h2 : (inFlight live .nop).flag F.TRC_STAT_MODE 0 = false := by decide
  simp [LogByte, h1, h2]

theorem test_signal :
    let s := liveWith [(F.SEM_CFG_EN, 8191, 1)]
    let c : Cmd := { theCmd .nop with signal := true, sigSem := 8191 }
    Ready { s with cmds := [c] } 0 3 c ∧ c.signal = true ∧ s.semOk 8191 0 = true ∧ s.semLock 8191 = false := by
  unfold Ready; decide

set_option maxRecDepth 8000 in
theorem test_regions :
    live.freeMr 0 = some 1 ∧
    ({ live with mrs := (List.range 255).map (fun k => (k + 1, { len := 1 })) } : State).freeMr 0 = none ∧
    (({ live with mrs := [(255, { live := true })] } : State).mr 0 255).live = true := by decide

/-- HBM frame 0 granted to partition 0, a host region 1 of 64 bytes, a Deck region of two slots. -/
def memories (p : TCmd) : State :=
  { inFlight (liveWith [(F.TG_FRAMES_COUNT, 0, 1), (F.TG_PART_TILES, 0, 1), (F.DK_RGN_CFG_EN, 0, 1), (F.DK_RGN_CFG_COUNT_M1, 0, 1)]) p
      with mrs := [(1, { base := 0x1000, len := 64, access := 3, live := true })] }

def hostBuf : BufDesc := { addr := 0, count := 64, mr := 1, kind := 0 }
def hbmBuf : BufDesc := { addr := 0x1FFFC0, count := 64, kind := 1 }
def deckBuf : BufDesc := { addr := 0, count := 64, kind := 2 }

/-- Every buffer of `memories` can be read and written whole at once. -/
theorem test_buffers : ∀ d ∈ [hostBuf, hbmBuf, deckBuf], ∀ w ∈ [true, false],
    BufHere (memories .nop) d w ∧ (memories .nop).bufCheck 0 d (some w) = 0 := by unfold BufHere FramesGood; decide

theorem test_copy :
    let c := TCmd.dmaCopy hostBuf hbmBuf
    let e := { memories c with ceilUsed := [(3, 655360)] }
    let full := TCmd.dmaCopy { hostBuf with kind := 2 } hostBuf
    let w := (memories full).fset F.DK_RGN_CFG_MODE 0 1
    let gone := { memories full with regs := (sets (memories full) [(F.PT_STAT_STATE, 0, 4)]).regs }
    Ready (memories c) 0 3 (theCmd c) ∧ Flowing (memories c) 0 ∧ (memories c).copyCheck (theCmd c) = 0 ∧
      e.dry (tgIdx 0 3) = true ∧ e.copyCheck (theCmd c) = 0 ∧ e.held = [] ∧
      w.copyCheck (theCmd full) = 0 ∧ w.bufReady { hostBuf with kind := 2 } 0 false = 0 ∧
      gone.copyCheck (theCmd full) ≠ 0 := by unfold Ready Flowing; decide

theorem test_unique : InFlight (inFlight live .nop) := by unfold InFlight UniqueTags; decide

theorem test_counting :
    let s := liveWith [(F.SEM_CFG_EN, 7, 1), (F.SEM_STAT_COUNT, 7, 65535)]
    Ready (inFlight s (.semOp 7 0 0 1)) 0 3 (theCmd (.semOp 7 0 0 1)) ∧ s.semOk 7 0 = true ∧ s.semLock 7 = false ∧
      65535 < s.semCount 7 + 1 ∧ s.semCount 7 + 0 ≤ 65535 ∧ 65535 ≤ s.semCount 7 ∧ s.semCount 7 < 65536 ∧ s.semWaiters 7 = [] ∧
      ¬ (({ s with waiters := [(7, [{}])] } : State).semWaiters 7 = [] ∧ 1 ≤ s.semCount 7) := by unfold Ready; decide

theorem test_locks :
    let s := liveWith [(F.SEM_CFG_EN, 7, 1), (F.SEM_CFG_LOCK, 7, 1)]
    let h := sets s [(F.SEM_STAT_HELD, 7, 1), (F.SEM_OWNER_KIND, 7, 3), (F.SEM_OWNER_ID, 7, 0)]
    let w : Waiter := { who := .cmd 0 3, acquire := true, ownerSel := 1 }
    s.semOk 7 0 = true ∧ s.semLock 7 = true ∧ s.flag F.SEM_STAT_HELD 7 = false ∧ h.semOk 7 0 = true ∧ h.semLock 7 = true ∧
      h.flag F.SEM_STAT_HELD 7 = true ∧ h.ownsLock 7 w = true ∧ h.ownsLock 7 { w with ownerSel := 0 } = false ∧
      h.lockHeldBy 7 3 0 = true ∧ h.lockHeldBy 7 4 (h.ringFn 0) = false ∧ s.lockHeldBy 7 4 (s.ringFn 0) = false ∧
      s.lockHeldBy 7 3 0 = false := by decide

theorem test_grant :
    let w : Waiter := { who := .tile 0, n := 1 }
    let s : State := { liveWith [(F.SEM_STAT_COUNT, 8191, 1)] with waiters := [(8191, [w])] }
    s.semWaiters 8191 = [w] ∧ s.waiterReady 8191 w = true ∧
      ({ live with waiters := [(8191, [w])] } : State).waiterReady 8191 w = false ∧
      live.tdiLocked (live.fget F.SEM_CFG_PART 0) = false ∧ live.semWaiters 0 = [] ∧ live.flag F.SEM_STAT_HELD 0 = false ∧
      live.rgnRefused 15 15 0x80000000 = false ∧ live.rgnRefused 15 15 0x80008000 = false ∧
      live.rgnRefused 15 15 0xC0007FFF = false ∧ live.rgnRefused 15 15 0xC000FFFF = true ∧
      live.fused 15 = true ∧ (live.fset F.KS_GRADE_TILE_MASK 0 0x7FFF).fused 15 = false := by decide

theorem test_programs :
    let d : BufDesc := hostBuf
    let c := theCmd (.progLoad d 1)
    let s := { memories c.par with progs := [theProg 0 [] false] }
    let u := theCmd (.progUnload 1)
    Ready s 0 3 c ∧ Flowing s 0 ∧ s.loadCheck c = 0 ∧ (s.fset F.PT_STAT_STATE 0 4).loadCheck c ≠ 0 ∧
      s.prog 1 = some (theProg 0 [] false) ∧ s.unloadCheck u = 0 ∧ ({ s with runs := [theRun] } : State).unloadCheck u ≠ 0 := by
  unfold Ready Flowing; decide

theorem test_runs :
    let q : RunParams := { prog := 1, tiles := 1 }
    let s := { inFlight (liveWith [(F.TG_PART_TILES, 0, 1)]) (.progRun q) with progs := [theProg 0 [] false] }
    let w := { s with runs := [theRun], tiles := [(0, { startQ := [1] })] }
    Ready s 0 3 (theCmd (.progRun q)) ∧ s.progRunCheck (theCmd (.progRun q)) = 0 ∧ s.queueRoom (bitList q.tiles 16) = true ∧
      s.runs.any (fun x => x.cmd == some (0, 3)) = false ∧ w.fget F.PT_STAT_STATE 0 = 0 ∧ (w.tile 0).run = none ∧
      w.tileOwner 0 = some 0 ∧ w.resetBusy 0 = false ∧ Flowing w 0 ∧ (w.tile 0).startQ = [1] ∧ w.runOf 1 = some theRun ∧
      w.prog theRun.prog = some (theProg 0 [] false) ∧ pinned (theProg 0 [] false) 0 = true ∧ theRun.begun = false ∧
      w.beginCheck theRun (theProg 0 [] false) = 0 ∧ (w.fset F.PT_STAT_STATE 15 4).fget F.PT_STAT_STATE 15 ≠ 0 := by
  unfold Ready Flowing; decide

/-! ### Tile instructions -/

/-- All four operand fields 0xFF: no descriptor named, one element in F32. -/
def noOps : List (Nat × Nat) := [(16, 0xFF), (24, 0xFF), (32, 0xFF), (40, 0xFF)]

/-- What Issues asks, met at once by a tile in its tail whose instruction waits for nothing. -/
theorem issues_running (s : State) (i : W128) (ops : List (List Byte)) (ring : Bool) (r : Run) (op : Nat)
    (hc : (running s i ops ring r).current 0 = some (issued i ops ring r)) (ho : iOp i = op) (hw : iWaitEn i = false)
    (ht : (running s i ops ring r).tagNeed (issued i ops ring r) = none) :
    Issues (running s i ops ring r) 0 op (issued i ops ring r) :=
  ⟨hc, ho, by simp [State.waitFirst, issued, hw], ht, by
    have : ((running s i ops ring r).tile 0).inTail = true := rfl
    simp [State.barred, issued, this]⟩

theorem test_matmul :
    let i := ins 0x01 noOps
    let x := issued i []
    let s := running live i []
    Issues s 0 0x01 x ∧ Issues (running live i [] true) 0 0x01 (issued i [] true) ∧ iSigEn i = false ∧ x.ring = false ∧
      (s.weights x (natBit (iP8 i) 0) ((x.view s (iDst i)).dim 0)).bad = false ∧
      (s.weights x (natBit (iP8 i) 0) 1).escapes ≤ (s.weights x (natBit (iP8 i) 0) 1).nside ∧
      s.productOk x ((x.view s (iDst i)).dim 0) 0 = true :=
  ⟨issues_running _ _ _ _ _ _ rfl (by decide) (by decide) (by decide), issues_running _ _ _ _ _ _ rfl (by decide) (by decide) (by decide),
    by decide⟩

/-- A Deck whose first bytes are the window block of a 1 x 1 window. -/
def windowed : State := { live with deck := memWrite [] 0 [1, 1, 1, 1, 1, 1, 1, 1, 0, 0, 0, 0, 0, 0, 1] }

/-- Every phase of a window operator meets its checks. -/
theorem test_window : ∀ op ∈ [0x02, 0x03], ∀ k, k < 4 →
    let i := ins op ([(16, 0xFD), (24, 0xFF), (32, 0xFF), (40, 0xFF), (90, k)])
    let x := issued i []
    let s := running windowed i []
    let w := s.winOf x
    let a := x.view s (iSrc0 i)
    let d := x.view s (outIdx i)
    s.current 0 = some x ∧ iOp i = op ∧ iWaitEn i = false ∧ s.tagNeed x = none ∧ iSigEn i = false ∧
      w.check a d (iScale i, if isFloat a.fmt && (natBits (iP8 i) 0 2 == 1 || natBits (iP8 i) 0 2 == 2) then 0 else d.dim 0) = true ∧
      w.check a (x.view s (iDst i)) (iScale i, if isFloat a.fmt && (natBits (iP8 i) 0 2 == 1 || natBits (iP8 i) 0 2 == 2) then 0 else d.dim 0) = true ∧
      phaseOk x w = true ∧ (s.weights x true (d.dim 0)).bad = false ∧ s.productOk x (d.dim 0) (natBits (iP8 i) 0 2) = true ∧
      (s.weights x true (d.dim 0)).escapes ≤ (s.weights x true (d.dim 0)).nside := by
  intro op ho k hk
  have h : op = 2 ∨ op = 3 := by simpa using ho
  have h' : k = 0 ∨ k = 1 ∨ k = 2 ∨ k = 3 := by omega
  rcases h with rfl | rfl <;> rcases h' with rfl | rfl | rfl | rfl <;> exact ⟨rfl, by decide⟩

theorem test_pool :
    let i := ins 0x04 noOps
    let x := issued i []
    Issues (running windowed i []) 0 0x04 x ∧ iSigEn i = false ∧
      ((running windowed i []).winOf x).check (x.view (running windowed i []) (iSrc0 i)) (x.view (running windowed i []) (iDst i)) (0, 0) = true ∧
      Issues (running live i []) 0 0x04 x ∧
      ((running live i []).winOf x).check (x.view (running live i []) (iSrc0 i)) (x.view (running live i []) (iDst i)) (0, 0) = false :=
  ⟨issues_running _ _ _ _ _ _ rfl (by decide) (by decide) (by decide), by decide, by decide,
    issues_running _ _ _ _ _ _ rfl (by decide) (by decide) (by decide), by decide⟩

/-- The vector instructions on single elements, and the two kinds of image. -/
theorem test_vector : ∀ op ∈ [0x08, 0x09, 0x0A, 0x0B],
    let i := ins op noOps
    Issues (running live i []) 0 op (issued i []) ∧ iSigEn i = false ∧ natBit (iP8 i) 2 = false ∧
      bcastOk ((issued i []).view (running live i []) (iSrc0 i)) ((issued i []).view (running live i []) (iSrc1 i)) = true ∧
      Issues (running live i [] true) 0 op (issued i [] true) := by
  intro op ho
  have : op = 8 ∨ op = 9 ∨ op = 0xA ∨ op = 0xB := by simpa using ho
  rcases this with rfl | rfl | rfl | rfl <;>
    exact ⟨issues_running _ _ _ _ _ _ rfl (by decide) (by decide) (by decide), by decide, by decide, by decide,
      issues_running _ _ _ _ _ _ rfl (by decide) (by decide) (by decide)⟩

/-- Operands of an OPT_STEP of 32 weights: gradients, old block, new block, hyperparameters. -/
def optOps : List (List Byte) :=
  [opnd 0 10 1 [32, 1, 1, 1] [4, 0, 0, 0], opnd 0 0 5 [32, 1, 1, 1] [4, 0, 0, 0], opnd 0 5 5 [32, 1, 1, 1] [4, 0, 0, 0],
    opnd 0 11 1 [16, 1, 1, 1] [4, 0, 0, 0]]

theorem test_optimiser : ∀ op ∈ [0x0E, 0x0F],
    let i := ins op [(16, 2), (24, 0), (32, 1), (40, 3)]
    let x := issued i optOps
    let s := running live i optOps
    let v := { s with deck := [(2563, 0x7F), (2562, 0x80)].reverse }
    Issues s 0 op x ∧ iSigEn i = false ∧ (x.view s (iSrc0 i)).dim 0 = 32 ∧ [0, 1, 2, 4].contains (x.view s (iSrc0 i)).fmt = true ∧
      allZero (s.deckGet 0 (x.view s (iAux i)).base 64) 32 32 = true ∧
      (∀ k ∈ s.opdSlots 0 (x.opd (iDst i)), k ∉ s.opdSlots 0 (x.opd (iSrc1 i)) ∧ k ∉ s.opdSlots 0 (x.opd (iSrc0 i))) ∧
      (x.view s (iDst i)).base + optEnd 32 ≤ 0x800000 ∧ f32Finite (elemF32 0 (s.elem (x.view s (iSrc0 i)) (0, 0, 0, 0))) = true ∧
      f32Finite (elemF32 0 (v.elem (x.view v (iSrc0 i)) (0, 0, 0, 0))) = false := by
  intro op ho
  have : op = 0xE ∨ op = 0xF := by simpa using ho
  rcases this with rfl | rfl <;>
    exact ⟨issues_running _ _ _ _ _ _ rfl (by decide) (by decide) (by decide), by decide⟩

/-- Operands of a KV_RETRIEVE: query, summaries, output block of 18 slots, page table. -/
def kvOps : List (List Byte) :=
  [opnd 9 0 1 [128, 1, 1, 1] [1, 0, 0, 0], opnd 9 1 1 [1, 1, 1, 1] [1, 0, 0, 0], opnd 0 4 18 [1, 1, 1, 1] [4, 0, 0, 0],
    opnd 0 2 1 [1, 1, 1, 1] [4, 0, 0, 0]]

/-- One valid page at HBM 0 with a valid summary, frame 0 granted. -/
def paged : State :=
  { liveWith [(F.TG_FRAMES_COUNT, 0, 1)] with deck := memWrite (memWrite [] (256 + 72) [1]) (512 + 5) [0x10] }

theorem test_retrieve :
    let i := ins 0x05 [(16, 2), (24, 0), (32, 1), (40, 3), (98, 1)]
    let x := issued i kvOps
    let s := running paged i kvOps
    Issues s 0 0x05 x ∧ iSigEn i = false ∧ natBits (iImm i) 0 7 = 1 ∧ natBits (iImm i) 7 5 = 0 ∧ natBit (iImm i) 12 = false ∧
      (x.view s (iSrc1 i)).dim 0 = 1 ∧ (x.view s (iAux i)).dim 0 = 1 ∧
      s.pagesAt 0 (x.view s (iAux i)).base 1 = [{ addr := 0, lpg := 0, valid := true, resv := 0, fill := 0 }] ∧
      (parseSummary (s.deckGet 0 (x.view s (iSrc1 i)).base 128)).valid = true ∧ s.tagged 0 (x.opd (iDst i)).region = false ∧
      512 + 1 * pageBytes 0 ≤ (x.opd (iDst i)).nslots * 256 ∧ s.pathCheck x 0 4096 = 0 ∧ 0 / 2 ^ 36 = s.node ∧
      FramesGood s 0 4096 true ∧ Flowing s 0 :=
  ⟨issues_running _ _ _ _ _ _ rfl (by decide) (by decide) (by decide), by unfold FramesGood Flowing; decide⟩

/-- A page table of one empty page meets its rules for every number of positions a page may hold. -/
theorem test_page_table (p : Nat) (h : 1 ≤ p) (h' : p ≤ 32768) :
    tableOk [{ addr := 0, lpg := 0, valid := true, resv := 0, fill := 0 }] 0 p = true ∧
      tableOk [{ addr := 512, lpg := 0, valid := true, resv := 0, fill := 0 }] 0 p = false ∧
      tableOk [{ addr := 0, lpg := 10, valid := true, resv := 0, fill := 0 }] 10 p = false := by
  simp [tableOk, pageBytes, h, h']

theorem test_attn :
    let ops := [opnd 1 0 1 [1, 1, 1, 1] [2, 0, 0, 0]]
    let i := ins 0x06 [(16, 0xFF), (24, 0xFF), (32, 0), (40, 0xFF), (98, 1)]
    let x := issued i ops
    let s := running live i ops
    Issues s 0 0x06 x ∧ iSigEn i = false ∧ natBits (iImm i) 0 9 = 1 ∧ (x.view s (iSrc0 i)).dim 0 = 1 ∧
      (x.view s (iSrc0 i)).dim 1 % (natBits (iImm i) 9 5 + 1) = 0 ∧ [1, 2, 3, 4].contains (x.view s (iSrc1 i)).fmt = true ∧
      natBit (iP8 i) 1 = false ∧
      tableOk (s.pagesAt 0 (x.view s (iAux i)).base ((x.view s (iAux i)).dim 0)) (s.attnPages x).1
        (pagePositions (s.attnPages x).1 (2 * (natBits (iImm i) 9 5 + 1) * 1 * ((x.view s (iSrc1 i)).bits / 8))) = true :=
  ⟨issues_running _ _ _ _ _ _ rfl (by decide) (by decide) (by decide), by decide⟩

/-- One operand of one slot. -/
def oneOp : List (List Byte) := [opnd 0 0 1 [2, 1, 1, 1] [4, 0, 0, 0]]

/-- The same run with HBM frame 0 and a run buffer of one slot there. -/
def bufRun : Run := { theRun with bufs := [{ addr := 0x1FFF00, count := 256, kind := 1 }] }

theorem test_fill_drain : ∀ op ∈ [0x10, 0x11],
    let i := ins op [(16, 0), (24, 0), (32, 0xFF), (40, 0xFF)]
    let x := issued i oneOp false bufRun
    let s := running (liveWith [(F.TG_FRAMES_COUNT, 0, 1)]) i oneOp false bufRun
    Issues s 0 op x ∧ iSigEn i = false ∧ dmaBytes x 0 = 256 ∧ s.dmaAddr x 256 = (0, 0x1FFF00) ∧ 0x1FFF00 / 2 ^ 36 = s.node ∧
      FramesGood s 0x1FFF00 256 true ∧ Flowing s 0 := by
  intro op ho
  have : op = 0x10 ∨ op = 0x11 := by simpa using ho
  rcases this with rfl | rfl <;>
    exact ⟨issues_running _ _ _ _ _ _ rfl (by decide) (by decide) (by decide), by unfold FramesGood Flowing; decide⟩

theorem test_xfer_scale_load : ∀ op ∈ [0x12, 0x14],
    let i := ins op [(16, 0), (24, 0), (32, 0xFF), (40, 0xFF)]
    let x := issued i oneOp
    let s := running live i oneOp
    Issues s 0 op x ∧ iSigEn i = false ∧ x.r.tiles.getD (iP8 i) 0 = 0 ∧ s.retired 0 = false ∧ (s.tile 0).moved = 0 ∧
      s.xferReady 0 0 0 1 = 1 ∧ s.tagged 0 (x.opd 0).region = false ∧ (x.opd 0).dims.getD 0 0 = 2 ∧ iScale i + 2 ≤ 4096 ∧
      Flowing s 0 := by
  intro op ho
  have : op = 0x12 ∨ op = 0x14 := by simpa using ho
  rcases this with rfl | rfl <;>
    exact ⟨issues_running _ _ _ _ _ _ rfl (by decide) (by decide) (by decide), by unfold Flowing; decide⟩

/-- The target and address of a reduction are opaque; what the statement asks of the state holds whatever they are, but that an
address in HBM lies in a granted frame. -/
theorem test_reductions : ∀ op ∈ [0x0C, 0x0D],
    let i := ins op noOps
    let x := issued i []
    let s := running (liveWith [(F.TG_FRAMES_COUNT, 0, 1)]) i []
    Issues s 0 op x ∧ iSigEn i = false ∧ Flowing s 0 ∧ s.pathCheck x 0x1FFFFC 4 = 0 ∧ 0x1FFFFC / 2 ^ 36 = s.node ∧
      FramesGood s 0x1FFFFC 4 true ∧ (∀ k, k < 8 → k = s.node ∨ natBit (s.fget F.CW_NODE_MEMBERS 0) k = false) ∧ (s.tile 0).onPath = false ∧
      (∀ z, (z = 0 ∨ z ∈ x.r.tiles) → s.retired z = false ∧
        s.xferReady z (x.opd (iDst i)).region (s.opdBase z (x.opd (iDst i)) / 256) (x.opd (iDst i)).nslots = (x.opd (iDst i)).nslots) := by
  intro op ho
  have : op = 0xC ∨ op = 0xD := by simpa using ho
  rcases this with rfl | rfl <;>
    refine ⟨issues_running _ _ _ _ _ _ rfl (by decide) (by decide) ?_, by decide, by unfold Flowing; decide, by decide, by decide,
      by unfold FramesGood; decide, by decide, by decide, ?_⟩
  all_goals first
    | (unfold State.tagNeed State.tagOpds; generalize State.dstAway _ = b; cases b <;> decide)
    | intro z hz
      have : z = 0 := by simpa [issued, theRun] using hz
      subst this
      decide

theorem test_tile_semaphores :
    let s := liveWith [(F.SEM_CFG_EN, 9, 1), (F.SEM_STAT_COUNT, 9, 65535)]
    let l := liveWith [(F.SEM_CFG_EN, 9, 1), (F.SEM_CFG_LOCK, 9, 1)]
    let h := sets l [(F.SEM_STAT_HELD, 9, 1), (F.SEM_OWNER_KIND, 9, 1)]
    let i := fun op k => ins op (noOps ++ [(64, 9), (77, 9), (98, k)])
    Issues (running s (i 0x18 65535) []) 0 0x18 (issued (i 0x18 65535) []) ∧ Issues (running s (i 0x19 1) []) 0 0x19 (issued (i 0x19 1) []) ∧
      Issues (running l (i 0x1A 0) []) 0 0x1A (issued (i 0x1A 0) []) ∧ Issues (running h (i 0x1B 0) []) 0 0x1B (issued (i 0x1B 0) []) ∧
      iSigEn (i 0x18 65535) = false ∧ iWsem (i 0x18 65535) = 9 ∧ iSsem (i 0x19 1) = 9 ∧ s.semOk 9 0 = true ∧ s.semLock 9 = false ∧
      natBits (iImm (i 0x18 65535)) 0 16 ≤ s.semCount 9 ∧ l.semCount 9 < natBits (iImm (i 0x18 65535)) 0 16 ∧ s.semWaiters 9 = [] ∧
      l.semOk 9 0 = true ∧ l.semLock 9 = true ∧ l.flag F.SEM_STAT_HELD 9 = false ∧ h.lockHeldBy 9 1 0 = true :=
  ⟨issues_running _ _ _ _ _ _ rfl (by decide) (by decide) (by decide), issues_running _ _ _ _ _ _ rfl (by decide) (by decide) (by decide),
    issues_running _ _ _ _ _ _ rfl (by decide) (by decide) (by decide), issues_running _ _ _ _ _ _ rfl (by decide) (by decide) (by decide),
    by decide⟩

theorem test_loop_end :
    let l := ins 0x28 (noOps ++ [(98, 1), (114, 2)])
    let z := ins 0x28 noOps
    let g := ins 0x28 (noOps ++ [(11, 1), (77, 9)])
    let e := ins 0x2F noOps
    Issues (running live l []) 0 0x28 (issued l []) ∧ Issues (running live z []) 0 0x28 (issued z []) ∧
      Issues (running (liveWith [(F.SEM_CFG_EN, 9, 1)]) g []) 0 0x28 (issued g []) ∧ Issues (running live e []) 0 0x2F (issued e []) ∧
      iSigEn l = false ∧ iSigEn g = true ∧ (running (liveWith [(F.SEM_CFG_EN, 9, 1)]) g []).semOk (iSsem g) 0 = true ∧
      natBits (iImm l) 16 14 ≠ 0 ∧ natBits (iImm z) 16 14 = 0 ∧
      theRun.tiles.all (fun y => y == 0 || theRun.ended.contains y) = true ∧
      ({ theRun with tiles := [0, 1] } : Run).tiles.all (fun y => y == 0 || theRun.ended.contains y) = false :=
  ⟨issues_running _ _ _ _ _ _ rfl (by decide) (by decide) (by decide), issues_running _ _ _ _ _ _ rfl (by decide) (by decide) (by decide),
    issues_running _ _ _ _ _ _ rfl (by decide) (by decide) (by decide), issues_running _ _ _ _ _ _ rfl (by decide) (by decide) (by decide),
    by decide⟩

theorem test_tag_wait :
    let ops := [leBytes 1 0 ++ leBytes 1 3 ++ leBytes 1 0 ++ leBytes 1 0 ++ leBytes 2 0 ++ leBytes 2 1]
    let i := ins 0x10 [(16, 0), (24, 0xFF), (32, 0xFF), (40, 0xFF)]
    let x := issued i ops
    let s := { running live i ops with full := [(0, true)] }
    s.current 0 = some x ∧ iOp i = 0x10 ∧ s.waitFirst x = false ∧ s.tagNeed x = some (0, 0, false) ∧ Flowing s 0 :=
  ⟨rfl, by unfold Flowing; decide⟩

theorem test_stay_start :
    let p := TCmd.stayCall 0 0 0x20 9 true (List.replicate 72 0)
    let s := liveWith [(F.TG_PART_TILES, 0, 1), (F.SEM_CFG_EN, 9, 1), (F.SEM_CFG_LOCK, 9, 1)]
    let i := ins 0x20 (noOps ++ [(90, 1)])
    let j := ins 0x21 noOps
    let x := issued i []
    Ready (inFlight s p) 0 3 (theCmd p) ∧ (inFlight s p).callCheck (theCmd p) = 0 ∧ (inFlight s p).freeStay 0 0 = some 0 ∧
      (∀ m, m < 2 → ((inFlight s p).stay 0 m).owner ≠ some (.cmd 0 3)) ∧
      Issues (running live i []) 0 0x20 (issued i []) ∧ iSigEn i = false ∧
      kernelBytes (iP8 i) ((running live i []).deckGet 0 (x.view (running live i []) (iSrc0 i)).base 24) = some 48 ∧
      kernLock i = none ∧ s.semOk 9 0 = true ∧ s.semLock 9 = true ∧
      (running live i []).stayBusy 0 (iImm i % 2) = false ∧
      Issues (running live j []) 0 0x21 (issued j []) ∧ iSigEn j = false ∧ (running live j []).stayBusy 0 (iImm j % 2) = false :=
  ⟨by unfold Ready; decide, by decide, by decide, by decide,
    issues_running _ _ _ _ _ _ rfl (by decide) (by decide) (by decide), by decide, by decide, by decide, by decide, by decide,
    by decide, issues_running _ _ _ _ _ _ rfl (by decide) (by decide) (by decide), by decide⟩

/-- A kernel on core 1 of tile 15. -/
def kernelOn (id : Nat) (k : Stay) : State :=
  { liveWith [(F.PT_STAY_BUSY1, 15, 1), (F.PT_STAY_KERNEL1, 15, id)] with stays := [(31, { k with kernel := id })] }

theorem test_kernels :
    (∀ id ∈ [0x01, 0x02, 0x03, 0x10, 0x11, 0x20, 0x21, 0x22, 0x30, 0x31, 0x32], let s := kernelOn id {}
      s.stayBusy 15 1 = true ∧ (s.stay 15 1).waitSlot = none ∧ (s.stay 15 1).lock = none ∧ (s.stay 15 1).kernel = id ∧
        (s.stay 15 1).owner = none ∧ s.resetBusy (s.stayPart 15) = false ∧ ∀ g, g < 16 → s.tagged 15 g = false) ∧
    (let s := kernelOn 0x20 { lock := some 9, lockHeld := true }
     s.stayBusy 15 1 = true ∧ (s.stay 15 1).lock = some 9 ∧ (s.stay 15 1).lockHeld = true ∧ (s.stay 15 1).kernel = 0x20) ∧
    live.stayBusy 15 1 = false := by decide

theorem test_waits_end :
    let s : State := { liveWith [(F.PT_STAT_STATE, 3, 2)] with tiles := [(3, { waitSlot := some (slotKey 3 0, false) })] }
    let f : State := { s with tiles := [(3, { waitSlot := some (slotKey 3 0, true) })] }
    let y : State := { live with stays := [(7, { waitSlot := some (slotKey 3 0, false) })] }
    let p := TCmd.dmaCopy hostBuf hbmBuf
    let c : Cmd := { theCmd p with started := true, moved := 63 }
    let m : State := { memories p with cmds := [c] }
    s.fget F.PT_STAT_STATE 3 = 2 ∧ s.slotReady (s.tile 3).waitSlot = true ∧ f.slotReady (f.tile 3).waitSlot = false ∧
      y.slotReady (y.stay 3 1).waitSlot = true ∧ m.findCmd 0 3 = some c ∧ m.resetBusy 0 = false ∧ m.switching = false ∧
      c.moved < hostBuf.count ∧ hbmBuf.addr / 2 ^ 36 = m.node ∧ hbmBuf.addr % 2 ^ 36 + 64 ≤ 2 ^ 36 ∧
      FramesGood m (hbmBuf.addr % 2 ^ 36 + 63) 1 false ∧ Flowing m 0 := by unfold FramesGood Flowing; decide

theorem test_barriers :
    let cut : Image := { roles := [{}], cuts := [{ spans := [0] }, { spans := [1] }] }
    let s : State := { live with runs := [theRun], tiles := [(0, { run := some 1, atBarrier := true })] }
    let x : Restore := { region := 0, slot := 0, nslots := 1 }
    let g : Prog := { theProg 0 [] false with image := { roles := [{}], cuts := [{ restore := [[x]] }] } }
    let r : Run := { theRun with restoring := true }
    let b : State := { liveWith [(F.TG_FRAMES_COUNT, 0, 1)] with runs := [r], progs := [g], tiles := [(0, { run := some 1 })] }
    s.runOf 1 = some theRun ∧ s.barrierMet theRun cut = true ∧ s.resetBusy 0 = false ∧
      s.fget F.PT_RUN_SPAN 0 + 1 = cutAt cut (theRun.cut + 1) 0 ∧ theRun.restoring = false ∧
      ({ s with tiles := [] } : State).barrierMet theRun cut = false ∧ Flowing b 0 ∧ x.buf = none ∧ b.runOf 1 = some r ∧ b.prog r.prog = some g ∧
      ((r.tiles.zipIdx.filter (fun (t, _) => (b.tile t).run == some 1)).map (fun (t, k) => ((g.image.cuts.getD r.cut {}).restore.getD k []).map (fun x => (t, x)))).flatten = [(0, x)] ∧
      (((r.tiles.zipIdx.filter (fun (t, _) => (b.tile t).run == some 1)).map (fun (t, k) => (((theProg 0 [] false).image.cuts.getD r.cut {}).restore.getD k []).map
        (fun x => (t, x)))).flatten : List (Nat × Restore)) = [] ∧
      b.hbmCheck 0 x.addr (x.nslots * 256) = 0 ∧ x.addr / 2 ^ 36 = b.node ∧ FramesGood b 0 256 true := by
  unfold FramesGood Flowing; decide

theorem test_tile_faults :
    let s := running (live.fset F.KS_GRADE_TILE_MASK 0 0xFFFF) 0 []
    let t : State := { s with tiles := [(0, { run := some 1, fails := 1 })] }
    ((t.tile 0).run.bind t.runOf = some theRun ∧ t.retired 0 = false ∧ t.fused 0 = true ∧ t.resetBusy 0 = false ∧
      (t.tile 0).inTail = false ∧ (t.tile 0).fails < 2 ∧ t.fget F.PT_STAT_STATE 0 = 1 ∧ (t.tile 0).atBarrier = false) ∧
    ((s.tile 15).run = none ∧ s.retired 15 = false ∧ s.fused 15 = true) ∧
    (natBit s.ceDue 15 = false ∧ natBit ({ s with ceDue := 0x8000 } : State).ceDue 15 = true) := by decide

/-- A batch in HBM frame 0: 64 header bytes, lock 9, `n` rows. -/
def batch (n : Nat) : State :=
  let s := liveWith [(F.TG_FRAMES_COUNT, 0, 1), (F.SEM_CFG_EN, 9, 1), (F.SEM_CFG_LOCK, 9, 1)]
  let s := running s 0 [] false { theRun with bufs := [{ addr := 0, count := 64, kind := 1 }] }
  { s with hbm := memWrite (memWrite [] 0 [9]) 4 [BitVec.ofNat 8 n] }

theorem test_batch :
    (let s := batch 2
     let r : Run := { theRun with bufs := [{ addr := 0, count := 64, kind := 1 }] }
     let h := memRead s.hbm 0 64
     s.current 0 = some (issued 0 [] false r) ∧ r.lead = 0 ∧ s.fget F.PT_RUN_INDEX 0 = (s.tile 0).spanFrom ∧ (s.tile 0).moved = 0 ∧
      (0 + 64 + 64 * 256) / 2 ^ 36 = s.node ∧ s.poisoned = [] ∧ hdrLock h = 9 ∧ hdrRows h = 2 ∧ s.semOk 9 0 = true ∧ s.semLock 9 = true ∧
      s.flag F.SEM_STAT_HELD 9 = false ∧ s.semWaiters 9 = [] ∧ s.flag F.SEM_STAT_ABANDONED 9 = false ∧ (s.tile 0).reqDone = false) ∧
    hdrRows (memRead (batch 0).hbm 0 64) = 0 ∧ (∀ f, (batch 2).frameIn f = true) := by
  refine ⟨⟨rfl, by decide⟩, by decide, ?_⟩
  have h : ∀ k, k < 64 → (!((batch 2).flag F.FLT_PC_RETIRED k)) = true := by decide
  intro f
  exact h (f % 64) (Nat.mod_lt _ (by decide))

/-! ### Time and phase -/

theorem test_timebase :
    let s := live.fset F.TB_CTRL_SERVO 0 0
    let p : State := { liveWith [(F.TB_CTRL_STEP_EN, 0, 1)] with power := { hubs := true, servo := true } }
    s.flag F.TB_CTRL_SERVO 0 = false ∧ live.flag F.TB_CTRL_SERVO 0 = true ∧ p.rxOn 8 = true ∧ p.power.servo = true ∧
      p.fget F.TB_CTRL_PTP_PORT 0 = 0 ∧ p.rxOn 11 = true ∧ p.fget F.TB_CTRL_PTP_PORT 0 ≠ 3 ∧
      p.evStopped = false ∧ (let w := p.fset F.KS_STAT_STATE 0 2
       w.evStopped = true ∧ w.rxOn 8 = true ∧ w.power.servo = true ∧ w.fget F.TB_CTRL_PTP_PORT 0 = 0) ∧
      (p.fset F.TB_STATUS_TB_LOCKED 0 1).flag F.TB_STATUS_TB_LOCKED 0 = true ∧ p.flag F.TB_STATUS_TB_LOCKED 0 = false ∧
      p.flag F.TB_CTRL_STEP_EN 0 = true ∧ 10000 < (10001#32).toInt.natAbs ∧ p.servoStepped = false ∧
      ({ p with goodSyncs := 7 } : State).goodSyncs = 7 := by decide

set_option maxRecDepth 8000 in
theorem test_no_alarms : ∀ k, k < 256 → live.flag F.BR_AL_STAT_ARMED k = false := by decide

/-- Receivers on; channel 15 follows source kind `k`, index `i`, and is valid. -/
def channelOn (k i cyc : Nat) : State :=
  { liveWith [(F.BR_CH_CFG_EN, 15, 1), (F.BR_CH_CFG_SRC, 15, k), (F.BR_CH_CFG_SRC_IDX, 15, i), (F.BR_CH_CFG_CYCLE, 15, cyc),
      (F.BR_CH_STAT_VALID, 15, 1)] with power := { hubs := true } }

set_option maxRecDepth 8000 in
theorem test_encoders :
    let s := channelOn 1 15 4000
    s.abzOn 15 = true ∧ s.abzMode 15 = true ∧ s.channels 1 15 = [15] ∧ Quiet s [15] ∧ Unwatched s [15] ∧ s.naturals 31 = [] ∧ s.flag F.BR_CH_STAT_VALID 15 = true ∧
      ({ s with bearings := [(15, { src := 0x80000000 })] } : State).fget F.BR_CH_QUANT_QUANT 15 < 0x80000000 := by
  unfold Quiet Unwatched; decide

/-- A phase window without a stamp watches channel 15 when its source is lost. -/
theorem test_watched :
    let s := sets (channelOn 1 15 4000) [(F.BR_WIN_STAT_ARMED, 31, 1), (F.BR_WIN_CFG_DOMAIN, 31, 1), (F.BR_WIN_CFG_CHANNEL, 31, 15)]
    s.flag F.BR_WIN_STAT_ARMED 31 = true ∧ s.flag F.BR_WIN_CFG_DOMAIN 31 = true ∧ s.fget F.BR_WIN_CFG_CHANNEL 31 ∈ [15] ∧
      (s.win 31).start = none := by decide

set_option maxRecDepth 8000 in
theorem test_serial :
    let s := sets (channelOn 2 15 32) [(F.ING_PORT_CFG_PARAM, 31, 1)]
    let b : State := { s with ports := [(31, { busy := true })], bearings := [(15, { missed := 2 })] }
    b.rxOn 31 = true ∧ (b.port 31).busy = true ∧ natBit (b.fget F.ING_PORT_CFG_PARAM 31) 0 = true ∧ b.channels 2 15 = [15] ∧
      (b.bearing 15).missed = 2 ∧ (s.bearing 15).missed ≠ 2 ∧ Quiet b [15] ∧ (b.port 31).serving = [] ∧ (b.port 31).waiting = [] ∧
      ¬ (b.naturals 31 = [] ∧ b.channels 2 15 = []) ∧ (s.port 31).busy = false ∧ (s.port 31).waiting = [] ∧ Unwatched b [15] ∧
      (∃ a ∈ (({ s with ports := [(31, { waiting := [{ poll := true }] })] } : State).port 31).waiting, a.poll = true) := by
  unfold Quiet Unwatched; decide

set_option maxRecDepth 8000 in
theorem test_mains :
    let s := channelOn 3 2 0
    let b : State := { s with bearings := [(15, { seen := true })] }
    s.rxOn 42 = true ∧ s.channels 3 2 = [15] ∧ Quiet s [15] ∧ s.naturals 42 = [] ∧ s.flag F.BR_CH_STAT_VALID 15 = true ∧
      ((b.bearing 15).seen = true ∧ (22222223#32).toNat > 22222222) ∧ ¬ ((s.bearing 15).seen = true ∧ True) ∧
      (channelOn 4 7 1024).channels 4 7 = [15] ∧ Unwatched s [15] := by unfold Quiet Unwatched; decide

/-- An alarm slot of partition 0 with its configuration. -/
def slotWith (l : List (Fld × Nat × Nat)) : State := liveWith ([(F.BR_AL_CFG_MODE, 255, 1), (F.BR_AL_CFG_ACTION, 255, 0)] ++ l)

theorem test_alarm_registers :
    (slotWith [(F.BR_AL_STAT_ARMED, 255, 1)]).timeDue 255 = true ∧ (slotWith []).timeDue 255 = false ∧
      (slotWith [(F.BR_AL_CFG_MODE, 255, 2)]).fget F.BR_AL_CFG_MODE 255 = 2 ∧
      (slotWith [(F.BR_AL_CFG_ACTION, 255, 1)]).fget F.BR_AL_CFG_ACTION 255 = 1 ∧
      (slotWith [(F.KS_PART_ATT_TDI, 0, 2)]).tdiLocked 0 = true ∧ (slotWith []).tdiLocked 0 = false ∧
      (slotWith [(F.BR_AL_TARGET_TARGET, 255, 1)]).alarmRefused ((slotWith []).rget .BR_AL_CFG 255) 0 = 0 ∧
      0 < sdiff (BitVec.ofNat 32 1) live.now ∧ sdiff (BitVec.ofNat 32 0) live.now ≤ 0 ∧
      (slotWith [(F.BR_AL_CFG_MODE, 255, 0)]).alarmRefused ((slotWith [(F.BR_AL_CFG_MODE, 255, 0)]).rget .BR_AL_CFG 255) 0 ≠ 0 ∧
      (let s := slotWith [(F.BR_AL_CFG_DOMAIN, 255, 1), (F.BR_CH_CFG_EN, 0, 1), (F.BR_CH_QUANT_QUANT, 0, 1)]
       s.alarmRefused (s.rget .BR_AL_CFG 255) 0 = 0 ∧ s.flag F.BR_AL_CFG_DOMAIN 255 = true) ∧
      (slotWith [(F.BR_AL_STAT_ARMED, 255, 1)]).flag F.BR_AL_STAT_ARMED 255 = true := by decide

theorem test_alarm_commands :
    let cfg : W32 := 0x40000000
    let run : RunParams := { prog := 1, tiles := 1 }
    let s : State := { liveWith [(F.TG_PART_TILES, 0, 1)] with progs := [theProg 0 [] false] }
    live.alarmRefused (cfg.setWidth 64) 0 = 0 ∧ cfg.toNat / 2 ^ 16 % 16 ≠ 1 ∧ natBit cfg.toNat 27 = false ∧
      live.flag F.BR_AL_STAT_ARMED 255 = false ∧ 0 < sdiff 1#32 live.now ∧
      live.alarmRefused ((0x40010000 : W32).setWidth 64) 0 = 0 ∧ (0x40010000#32).toNat / 2 ^ 16 % 16 = 1 ∧ s.runCheck 0 run = 0 ∧
      (∀ t ∈ bitList run.tiles 16, pinned (theProg 0 [] false) t = true) ∧ live.fget F.BR_AL_CFG_PART 255 = 0 ∧
      (slotWith [(F.BR_AL_CFG_PART, 255, 7)]).fget F.BR_AL_CFG_PART 255 ≠ 0 ∧
      live.alarmRefused ((0x40080000 : W32).setWidth 64) 0 ≠ 0 ∧ live.timeDue 255 = false ∧
      (let d := slotWith [(F.BR_AL_STAT_ARMED, 255, 1), (F.BR_AL_CFG_MODE, 255, 2)]
       d.timeDue 255 = true ∧ d.fget F.BR_AL_CFG_MODE 255 = 2 ∧ d.fget F.BR_AL_CFG_PART 255 = 0) ∧
      (let f := slotWith [(F.BR_AL_STAT_ARMED, 255, 1), (F.BR_AL_TARGET_TARGET, 255, 1)]
       f.timeDue 255 = false ∧ f.flag F.BR_AL_STAT_ARMED 255 = true) := by decide

set_option maxRecDepth 8000 in
/-- One time alarm alone is due. -/
theorem test_one_due : ∀ j, j < 256 → j ≠ 255 → (slotWith [(F.BR_AL_STAT_ARMED, 255, 1)]).timeDue j = false := by decide

theorem test_windows :
    let s := liveWith [(F.BR_WIN_CFG_START_SRC, 31, 0x107), (F.BR_WIN_CFG_STOP_SRC, 31, 0x10F)]
    let a := s.fset F.BR_WIN_STAT_ARMED 31 1
    s.tdiLocked (s.fget F.BR_WIN_OWN_PART 31) = false ∧ s.flag F.BR_WIN_STAT_ARMED 31 = false ∧ s.fget F.BR_WIN_CFG_START_SRC 31 < 0x110 ∧
      (liveWith [(F.BR_WIN_CFG_START_SRC, 31, 0x110)]).fget F.BR_WIN_CFG_START_SRC 31 = 0x110 ∧ a.flag F.BR_WIN_STAT_ARMED 31 = true ∧
      ({ a with power := { hubs := true } } : State).rxOn 55 = true ∧ (a.win 31).start = none ∧ (a.win 31).stop = none ∧
      (({ a with windows := [(31, { start := some (0, 0) })], ticks := 1 } : State).win 31).start = some (0, 0) ∧
      0 ≤ sdiff live.now 0 ∧ (a.fset F.KS_PART_ATT_TDI 0 1).tdiLocked 0 = true ∧ live.fget F.TRC_TRIG_TRIG 0 = 0 ∧
      natBit ((live.fset F.ING_PORT_CFG_PARAM 55 0).fget F.ING_PORT_CFG_PARAM 55) 1 = false := by decide

/-! ### Ingress -/

theorem test_descriptor_registers :
    let s := liveWith [(F.ING_D_CFG_DEST, 127, 1)]
    let a := liveWith [(F.ING_D_CTRL_STATE, 127, 2)]
    let u : UnitRec := { inside := 1 }
    s.flag F.ING_D_CFG_DEST 127 = true ∧ (live.fset F.KS_PART_ATT_TDI 0 1).tdiLocked (live.fget F.ING_D_CFG_PART 127) = true ∧
      live.tdiLocked (live.fget F.ING_D_CFG_PART 127) = false ∧ live.flag F.ING_D_CFG_DEST 127 = false ∧
      live.fget F.ING_D_CTRL_STATE 127 = 0 ∧ live.descRefused 127 ≠ 0 ∧ a.fget F.ING_D_CTRL_STATE 127 ≠ 0 ∧ (a.desc 127).cur = none ∧
      (({ a with descs := [(127, { cur := some u })] } : State).desc 127).cur = some u ∧ (a.desc 127).backlog = [] := by decide

/-- HBM frames 0 and 1 granted to partition 0, the receivers on, and descriptor 127 with a data ring of one frame and a record
ring of 16. -/
def streams (src sample sel : Nat) (l : List (Fld × Nat × Nat)) : State :=
  { liveWith ([(F.TG_FRAMES_COUNT, 0, 2), (F.ING_D_CFG_SRC, 127, src), (F.ING_D_CFG_SAMPLE, 127, sample), (F.ING_D_SEL_SEL, 127, sel),
      (F.ING_D_DATA_SIZE, 127, 0x2000), (F.ING_D_REC_LOG2_RECS, 127, 4), (F.ING_D_REC_ADDR, 127, 0x200000)] ++ l) with
    power := { hubs := true } }

theorem test_descriptor_commands :
    let s := streams 0x10 0 0 []
    let p := TCmd.descArm 126 0x04000000 0 (s.rget .ING_D_DATA 127) (s.rget .ING_D_REC 127)
    Ready (inFlight s p) 0 3 (theCmd p) ∧ (0x04000000#32).toNat / 2 ^ 28 % 8 = 0 ∧
      s.descCheck 0x04000000 0 (s.rget .ING_D_DATA 127) (s.rget .ING_D_REC 127) = 0 ∧ s.descRefused 127 = 0 ∧
      s.fget F.ING_D_CTRL_STATE 126 = 0 ∧ (s.fset F.ING_D_CTRL_STATE 126 1).fget F.ING_D_CTRL_STATE 126 ≠ 0 ∧
      s.fget F.ING_D_CFG_PART 126 = 0 ∧ (s.fset F.ING_D_CFG_PART 126 7).fget F.ING_D_CFG_PART 126 ≠ 0 ∧
      s.descCheck 0x04000000 0 0 0 ≠ 0 := by unfold Ready; decide

theorem test_samples :
    let s := streams 0x28 1 1000 [(F.ING_D_CTRL_STATE, 127, 1)]
    let q := streams 0x27 1 1000 [(F.ING_D_CTRL_STATE, 127, 1)]
    let w : State := { q with ports := [(39, { waiting := [{ tick := 1, descs := [127], latched := [127] }] })] }
    let b : State := { q with ports := [(39, { busy := true, serving := [127] })], descs := [(127, { cur := some {} })] }
    (s.fget F.ING_D_CTRL_STATE 127 ≠ 0 ∧ s.fget F.ING_D_CFG_SAMPLE 127 = 1 ∧ s.rxOn 0x28 = true ∧ s.serial 0x28 = false ∧
      Takes s 127 (s.payload 0x28).length) ∧ (q.fget F.ING_D_CFG_SRC 127 = 39 ∧ q.rxOn 39 = true) ∧
    live.fget F.ING_D_CTRL_STATE 127 = 0 ∧ (w.port 39).waiting ≠ [] ∧ (w.port 39).busy = false ∧ w.rxOn 39 = true ∧ Takes w 127 0 ∧
    (b.port 39).busy = true ∧ (b.gateNow 127).shut = false ∧ (s.desc 127).sampled = none ∧
    (∀ a ∈ (w.port 39).waiting, a.tick ≠ w.ticks) ∧ (b.port 39).serving = [127] ∧ (b.desc 127).cur = some {} ∧ b.gating 127 = [] := by
  unfold Takes; decide

theorem test_ports :
    srcListed 47 = false ∧ srcListed 42 = true ∧ srcListed 55 = true ∧ srcListed 63 = false ∧ paramOk 0 320 = true ∧
      paramOk 0 316 = false := by decide

set_option maxRecDepth 8000 in
/-- A descriptor of encoder 15 whose natural samples are its index pulses. -/
theorem test_index_sample :
    let s := streams 31 0 0 [(F.ING_D_CTRL_STATE, 127, 1)]
    s.abzMode 15 = true ∧ s.naturals 31 = [127] ∧ Takes s 127 8 ∧ (s.desc 127).sampled ≠ some (s.ticks, true) ∧
      s.flag F.ING_D_CFG_PH_EN 127 = false ∧ Quiet s (s.channels 1 15) := by
  unfold Takes Quiet; and_intros <;> decide

/-- A camera descriptor of port 7, virtual channel 3, RAW8. -/
def camera (v : Desc) : State := { streams 7 0 (3 + 0x2A * 16) [(F.ING_D_CTRL_STATE, 127, 1)] with descs := [(127, v)] }

set_option maxRecDepth 8000 in
theorem test_frames :
    let s := camera {}
    let c := camera { cur := some {} }
    127 ∈ s.csiDescs 7 3 ∧ 127 ∈ c.csiDescs 7 3 ∧ s.rxOn 7 = true ∧ s.vcOk 7 3 = true ∧ s.vcOk 7 15 = false ∧
      s.channels 4 7 = [] ∧ Takes s 127 0 ∧ (c.desc 127).cur = some {} ∧ dtOk 0x2A = true ∧ dtOk 0x2F = false ∧
      c.csiDesc 7 3 0x2A = some 127 ∧ c.gating 127 = [] ∧ (c.lineBytes 127 0x2A [1, 2]).length + backlogBytes (c.desc 127) ≤ 32768 := by
  refine ⟨?_, ?_, by unfold Takes; decide⟩
  · decide
  · decide

/-- A frame of 60 bytes with EtherType 0x0800. -/
def netBytes : List Byte := List.replicate 12 0 ++ [8] ++ List.replicate 47 0

set_option maxRecDepth 8000 in
theorem test_network :
    let s := streams 11 0 0x0800 [(F.ING_D_CTRL_STATE, 127, 1)]
    let t := streams 13 0 0x0800 [(F.ING_D_CTRL_STATE, 127, 1)]
    let g := live
    s.rxOn 11 = true ∧ netBytes.length + 4 ≤ 9216 ∧ frameTag netBytes = (0x0800, 0, 0) ∧ s.netDesc 11 0x0800 0 = some 127 ∧
      Takes s 127 60 ∧ natBit (s.fget F.ING_PORT_CFG_PARAM 11) 3 = false ∧ g.netDesc 11 0x0800 0 = none ∧
      t.rxOn 13 = true ∧ t.netDesc 13 0x0800 0 = some 127 ∧ Takes t 127 60 ∧ g.netDesc 13 0x0800 0 = none := by
  unfold Takes; decide

/-- A filter that blocks the frame. -/
theorem test_filter_discards :
    let s : State := { streams 8 0 0 [(F.ING_PORT_CFG_PARAM, 8, 8)] with
      filters := [(0, BitVec.ofNat 128 (2 ^ 80 + 2 ^ 83))] }
    s.rxOn 8 = true ∧ natBit (s.fget F.ING_PORT_CFG_PARAM 8) 3 = true ∧ (s.qci 0 netBytes).1 = false := by decide

theorem test_landing :
    let u : UnitRec := { data := [{ data := [1, 2, 3] }], complete := true }
    let s : State := { streams 0x10 0 0 [] with descs := [(127, { backlog := [u] })] }
    let w : UnitRec := { isWindow := true, complete := true }
    let v : State := { streams 0x10 0 0 [] with descs := [(127, { backlog := [w] })] }
    (s.desc 127).backlog = [u] ∧ s.flag F.ING_D_CFG_DEST 127 = false ∧ s.flag F.ING_D_CFG_SEM_EN 127 = false ∧
      0x200000 + 32 * (s.fget F.ING_D_RPTR_REC_PROD 127 % 16) + 32 ≤ 2 ^ 36 ∧
      s.fget F.ING_D_DATA_SIZE 127 * 256 = 0x200000 ∧ s.fget F.ING_D_DATA_LOC 127 = 0 ∧ s.fget F.ING_D_REC_ADDR 127 = 0x200000 ∧
      3 ≤ s.ringRoom 127 (s.unitOfs 127) ∧ s.unitOfs 127 = 0 ∧ s.aligned 127 = false ∧ (unitData u).length = 3 ∧
      s.recordFree 127 = true ∧ Flowing s 0 ∧ (v.desc 127).backlog = [w] ∧ w.isWindow = true ∧ (v.desc 127).cur = none := by
  unfold Flowing; decide

set_option maxRecDepth 20000 in
/-- Every HBM frame is in service. -/
theorem test_frames_in (f : Nat) : (streams 0x10 0 0 []).frameIn f = true := by
  have h : ∀ k, k < 64 → (!((streams 0x10 0 0 []).flag F.FLT_PC_RETIRED k)) = true := by decide
  exact h (f % 64) (Nat.mod_lt _ (by decide))

/-! ### Egress -/

theorem test_excitation :
    let ok := liveWith [(F.EXC_CH_CFG_SETPOINT, 3, 5000), (F.EXC_CH_LIM_ILIM, 3, 50), (F.EXC_CH_LIM_ISCALE, 3, 13),
      (F.EXC_CH_LIM_FOLD, 3, 1)]
    let st := fun k => ok.fset F.EXC_CH_STAT_STATE 3 k
    let p := TCmd.excCmd 3 1 false 0 0
    Ready (inFlight ok p) 0 3 (theCmd p) ∧ ok.excOk 3 = true ∧ live.excOk 3 = false ∧ ok.fget F.EXC_CH_STAT_STATE 3 = 0 ∧
      (50 * 1000 ≤ ok.fget F.EXC_CH_LIM_ISCALE 3 * 4095) ∧ ok.tdiLocked (ok.fget F.EXC_CH_CFG_PART 3) = false ∧
      (ok.fset F.KS_PART_ATT_TDI 0 2).tdiLocked (ok.fget F.EXC_CH_CFG_PART 3) = true ∧ (st 4).fget F.EXC_CH_STAT_STATE 3 = 4 ∧
      ok.fget F.EXC_CH_CFG_PART 3 = 0 ∧ (ok.fset F.EXC_CH_CFG_PART 3 7).fget F.EXC_CH_CFG_PART 3 ≠ 0 ∧
      (st 1).fget F.EXC_CH_STAT_STATE 3 = 1 ∧ 10 * (st 1).fget F.EXC_CH_MEAS_VOUT 3 < 9 * (st 1).fget F.EXC_CH_CFG_SETPOINT 3 ∧
      ¬ (10 * ((st 1).fset F.EXC_CH_MEAS_VOUT 3 4500).fget F.EXC_CH_MEAS_VOUT 3 < 9 * (st 1).fget F.EXC_CH_CFG_SETPOINT 3) ∧
      ((st 1).fset F.EXC_CH_STAT_ATTEMPT 3 3).fget F.EXC_CH_STAT_ATTEMPT 3 = 3 ∧ (st 1).fget F.EXC_CH_STAT_ATTEMPT 3 < 3 ∧
      (st 2).fget F.EXC_CH_STAT_STATE 3 = 2 ∧ (st 3).fget F.EXC_CH_STAT_STATE 3 = 3 := by unfold Ready; decide

/-- Tile 15 of partition 0 with a TAGGED region 15 of one full slot. -/
def staged (l : List (Fld × Nat × Nat)) : State :=
  { liveWith ([(F.KS_GRADE_TILE_MASK, 0, 0xFFFF), (F.TG_PART_TILES, 0, 0x8000), (F.DK_RGN_CFG_EN, 255, 1), (F.DK_RGN_CFG_MODE, 255, 1)] ++ l)
      with full := [(slotKey 15 0, true)] }

theorem test_outputs :
    live.flag F.ACT_PWM_CFG_EN 31 = false ∧ (liveWith [(F.ACT_PWM_PERIOD_PERIOD, 31, 16)]).fget F.ACT_PWM_PERIOD_PERIOD 31 = 16 ∧
      (let s := liveWith [(F.ACT_PWM_CFG_EN, 31, 1)]
       s.flag F.ACT_PWM_CFG_EN 31 = true ∧
        (((0x400000#32).setWidth 64 &&& regMask .ACT_PWM_CFG .rw) ^^^ s.rget .ACT_PWM_CFG 31) &&& 0x7FFFFFFF#64 ≠ 0 ∧
        ((((s.rget .ACT_PWM_CFG 31).setWidth 32 : W32).setWidth 64 &&& regMask .ACT_PWM_CFG .rw) ^^^ s.rget .ACT_PWM_CFG 31) &&& 0x7FFFFFFF#64 = 0) := by decide

theorem test_staging :
      live.tdiLocked (live.fget F.ACT_GRP_CFG_PART 7) = false ∧ live.flag F.ACT_GRP_CFG_EN 7 = false ∧
      live.tdiLocked (live.fget F.ACT_DQ_CFG_PART 15) = false ∧ live.flag F.ACT_DQ_CFG_EN 15 = false ∧
      live.tdiLocked (live.fget F.ACT_ADV_WL0_PART 63) = false ∧
      (live.fset F.KS_PART_ATT_TDI 0 1).tdiLocked (live.fget F.ACT_GRP_CFG_PART 7) = true ∧ (staged []).runOk 0 15 15 0 1 = true := by decide

theorem test_stage_runs :
    live.stageRun (.group 7) = none ∧
      (let s := staged [(F.ACT_GRP_CFG_EN, 7, 1), (F.ACT_GRP_CFG_TILE, 7, 15), (F.ACT_GRP_CFG_REGION, 7, 15)]
       s.stageRun (.group 7) = some (0, 15, 15, 0, 1) ∧ ∀ i, i < 1 → s.isFull 15 (0 + i) = true) ∧
      (let s := staged [(F.ACT_DQ_CFG_EN, 15, 1), (F.ACT_DQ_SRC_TILE, 15, 15), (F.ACT_DQ_SRC_REGION, 15, 15), (F.ACT_DQ_SRC_NSLOTS, 15, 1)]
       s.stageRun (.queue 15) = some (0, 15, 15, 0, 1)) ∧
      (let s := staged [(F.ACT_ADV_SRC_EN, 63, 1), (F.ACT_ADV_SRC_TILE, 63, 15), (F.ACT_ADV_SRC_REGION, 63, 15)]
       s.stageRun (.tag 63) = some (0, 15, 15, 0, 1)) ∧
      (let s : State := { liveWith [(F.ACT_PWM_CFG_EN, 31, 1)] with pwms := [(31, { pending := some (5, false) })] }
       (s.pwm 31).pending = some (5, false) ∧ s.flag F.ACT_PWM_CFG_EN 31 = true) ∧
      natBit live.pulses 3 = false ∧ natBit (8 : Nat) 3 = true := by
  and_intros <;> decide

theorem test_frames_leave :
    let f : TxFrame := { queue := 15, tc := 7, data := [1] }
    let s : State := { liveWith [(F.ING_PORT_STAT_LINK, 11, 1)] with txq := [(3, [f])] }
    let l : GateList := { base := 1, entries := [(1, 1)] }
    let w : State := { live with gates := [(67, { waiting := some { l with base := 0 } }), (68, { running := some l })] }
    live.txNext 3 = none ∧ s.txNext 3 = some f ∧ s.flag F.ING_PORT_STAT_LINK 11 = true ∧ live.flag F.ING_PORT_STAT_LINK 11 = false ∧
      (w.gate 67).waiting = some { l with base := 0 } ∧ sdiff 0 w.now ≤ 0 ∧ (w.gate 68).waiting = none ∧ (w.gate 68).running = some l ∧
      (live.gate 0).running = none := by decide

theorem test_load_commands :
    let p := TCmd.qciLoad 3 3 0 1 [1, 0, 0, 0]
    let q := TCmd.dqSafeLoad 15 false hostBuf
    Ready (inFlight live p) 0 3 (theCmd p) ∧ 0 < sdiff (BitVec.ofNat 32 (leField [1, 0, 0, 0] 0 4)) live.now ∧
      sdiff (BitVec.ofNat 32 (leField [0, 0, 0, 0] 0 4)) live.now ≤ 0 ∧ (live.gate 67).waiting = none ∧
      (({ live with gates := [(67, { waiting := some {} })] } : State).gate 67).waiting ≠ none ∧
      (memories q).dqSafeCheck (theCmd q) = 0 ∧ BufHere (memories q) hostBuf true ∧ Flowing (memories q) 0 ∧ Ready (memories q) 0 3 (theCmd q) ∧
      (memories q).fget F.ACT_DQ_CFG_PART 15 = 0 ∧
      (live.fset F.ACT_DQ_CFG_PART 15 7).fget F.ACT_DQ_CFG_PART 15 ≠ 0 ∧
      driveFrame (leBytes 4 60 ++ List.replicate 60 0) 64 = some (List.replicate 60 0) ∧ driveFrame (List.replicate 64 0) 64 = none := by
  unfold Ready BufHere FramesGood Flowing; and_intros <;> decide

theorem test_advisory :
    let s : State := { liveWith [(F.ACT_ADV_STAT_SEALED, 0, 1), (F.ACT_ADV_STAT_LINK, 0, 1)] with power := { hubs := true } }
    let d := sets s [(F.ACT_ADV_WL0_EN, 63, 1), (F.ACT_ADV_TSTAT_FRESH, 63, 1)]
    (State.reset.power.hubs = false) ∧ s.flag F.ACT_ADV_STAT_SEALED 0 = true ∧ (∀ k, k < 64 → s.flag F.ACT_ADV_WL0_EN k = false) ∧
      (d.lastTag + 1 + 63) % 64 = 63 ∧ d.flag F.ACT_ADV_WL0_EN 63 = true ∧ d.flag F.ACT_ADV_TSTAT_FRESH 63 = true ∧
      (∀ i, i < 63 → d.flag F.ACT_ADV_WL0_EN ((d.lastTag + 1 + i) % 64) = false) ∧ d.flag F.ACT_ADV_STAT_LINK 0 = true ∧
      (d.fset F.ACT_ADV_STAT_LINK 0 0).flag F.ACT_ADV_STAT_LINK 0 = false := by decide

/-! ### The host side, commits and partitions -/

theorem test_host_side :
    let p := TCmd.dmaCopy hostBuf hbmBuf
    let c := theCmd p
    let s := memories p
    let w := liveWith [(F.KS_FW_STAT_BUSY, 0, 1), (F.KS_FW_STAT_LAST_CMD, 0, 1), (F.TRC_STAT_MODE, 0, 1), (F.TRC_STAT_STATE, 0, 2)]
    let d : State := { live with power := { perst := true } }
    (oneSlot 1).fetchOpen 0 = true ∧ live.fetchOpen 0 = false ∧ s.findCmd 0 3 = some c ∧ s.resetBusy 0 = false ∧ s.switching = false ∧
      s.fenceMet c = true ∧ hostSrc p = some hostBuf ∧ w.flag F.KS_FW_STAT_BUSY 0 = true ∧
      w.fget F.KS_FW_STAT_LAST_CMD 0 = 1 ∧ live.flag F.KS_FW_STAT_BUSY 0 = false ∧ w.flag F.TRC_STAT_MODE 0 = true ∧
      w.fget F.TRC_STAT_STATE 0 = 2 ∧ ¬ (live.flag F.TRC_STAT_MODE 0 = true) ∧ (w.fset F.TRC_STAT_OWNER 0 1).fget F.TRC_STAT_OWNER 0 = 0 + 1 ∧ w.trace.part = 0 ∧
      d.power.perst = true ∧ live.power.perst = false := by
  decide

theorem test_retrain :
    let s : State := { live with power := { released := true } }
    s.power.released = true ∧ s.power.perst = false ∧ min 64 (64 * 8 * 16 / 512) ≠ s.fget F.TG_SERVICE_LF 0 ∧
      min 64 (64 * 32 * 16 / 512) = s.fget F.TG_SERVICE_LF 0 ∧ live.power.released = false := by decide

/-- A commit that gives partition 0 a reservation of 6,553.5 GB/s of HBM, more than the device has. -/
def tooMuch : PartCfg := { part := 0, cfg := [0xFFFF] }

/-- It passes the checks before admission: a partition without frames loses none. -/
theorem test_commit_check (c : Cmd) (hc : c.par = .tgCommit false 0 [tooMuch]) : live.commitCheck c = 0 := by
  have hg : ∀ f, live.granted 0 f = false := by
    intro f
    have h : ∀ k, k < 4 → live.fget F.TG_FRAMES_FIRST (4 * 0 + k) + live.fget F.TG_FRAMES_COUNT (4 * 0 + k) ≤
        live.fget F.TG_FRAMES_FIRST (4 * 0 + k) := by decide
    simp only [granted, List.any_eq_false, List.mem_range, Bool.and_eq_true, decide_eq_true_eq, not_and]
    intro k hk _
    have := h k hk
    omega
  have hl : live.lostFrames tooMuch = [] := by
    simp [lostFrames, tooMuch, hg]
  have hb : [tooMuch].any (live.loserBusy c) = false := by simp [loserBusy, hl]
  unfold commitCheck
  rw [hc]
  dsimp only
  rw [if_neg (by decide), if_neg (by decide), if_neg (by decide), hb, if_neg (by decide)]

theorem test_commit :
    let ok := TCmd.tgCommit false 0 []
    let bad := TCmd.tgCommit false 0 [{ part := 0, tiles := 1 }, { part := 1, tiles := 1 }]
    let x : PartCfg := { part := 7, tiles := 0x8000, cfg := [0, 0, 0, 0, 0], runs := [(32767, 1)] }
    Ready (inFlight live ok) 0 3 (theCmd ok) ∧ (inFlight live ok).commitCheck (theCmd ok) = 0 ∧
      (∀ k, k < 5 → (inFlight live ok).admitted [] k = true) ∧ (inFlight live bad).commitCheck (theCmd bad) ≠ 0 ∧
      live.admitted [tooMuch] 0 = false ∧ ([x].map (·.part)).Nodup ∧ (∀ y ∈ [x], y.cfg.length ≤ 5 ∧ y.runs.length ≤ 4) ∧
      live.commit = none ∧ (liveWith [(F.TG_STATUS_DEGRADED, 0, 1)]).flag F.TG_STATUS_DEGRADED 0 = true ∧
      (∀ k, k < 5 → live.fget F.TG_CFG_FLOOR k ≤ live.fget F.TG_EFF_E k) ∧
      (let s := liveWith [(F.TG_CFG_FLOOR, 4, 1), (F.TG_EFF_E, 4, 0)]
       s.fget F.TG_EFF_E 4 < s.fget F.TG_CFG_FLOOR 4) := by unfold Ready; and_intros <;> decide

theorem test_partitions :
    let p := TCmd.partReset 7
    let q := TCmd.tenantSwitch 7 none
    let x : Scrub := { cmd := some (0, 3), tenant := true, drained := true }
    let y : Scrub := { cmd := some (0, 3) }
    let z : Scrub := {}
    let sc := fun z => ({ live with scrubs := [(7, some z)] } : State)
    Ready (inFlight live p) 0 3 (theCmd p) ∧ Ready (inFlight live q) 0 3 (theCmd q) ∧ (live.fset F.KS_PART_ATT_TDI 7 2).tdiLocked 7 = true ∧
      live.tdiLocked 7 = false ∧ (live.fset F.TRH_PART_STAT_RESET_BUSY 7 1).resetBusy 7 = true ∧ live.resetBusy 7 = false ∧
      (theCmd p).part ≠ 7 ∧ 0 / 16 ≠ 7 ∧ live.runs = [] ∧ live.scrub 7 = none ∧ (sc x).scrub 7 = some x ∧ (sc y).scrub 7 = some y ∧
      (sc z).scrub 7 = some z ∧ y.drained = false := by unfold Ready; and_intros <;> decide

/-- Nothing is in flight after reset, by whatever ring and TAG. -/
theorem test_no_work (f : Nat → Nat → Bool) : NoWork live f := by
  refine ⟨fun c h => ?_, fun x h => ?_, fun k hk j h => ?_⟩
  · exact absurd h (by show c ∉ ([] : List Cmd); simp)
  · exact absurd h (by show x ∉ ([] : List Run); simp)
  · have : (live.ctx k).jobs = [] := by
      have h : ∀ k, k < 4 → (live.ctx k).jobs = [] := by decide
      exact h k hk
    simp [this] at h

theorem test_vault_share :
    let s := liveWith [(F.CS_PART_VAULT_SIZE, 0, 96)]
    s.tdiLocked 7 = false ∧ 96 < 96 + 1 ∧ ¬ (96 < 0 + 0) ∧ (s.fget F.CS_PART_VAULT_SIZE 0 ≠ 0 ∧ 95 < 0 + s.fget F.CS_PART_VAULT_SIZE 0) ∧
      (∀ k, k < 4 → s.fget F.CS_CTX_STATE k = 0) ∧ (s.fset F.KS_PART_ATT_TDI 7 1).tdiLocked 7 = true := by decide

theorem test_memory_errors :
    let j : CsJob := { ring := 0, tag := 3, p := { op := 4, nl := 1 } }
    let s : State := { live with csCtx := [(3, { jobs := [j] })] }
    (live.flag F.FLT_PC_RETIRED 63 = false ∧ live.flag F.FLT_PC_UE_SEEN 63 = false) ∧
      (live.fset F.FLT_PC_RETIRED 63 1).flag F.FLT_PC_RETIRED 63 = true ∧ (live.fset F.FLT_PC_UE_SEEN 63 1).flag F.FLT_PC_UE_SEEN 63 = true ∧
      (∀ k, k < 64 → tabGet 0 live.ceNow k ≤ 64 ∨ live.flag F.FLT_PC_RETIRED k = true) ∧ (s.ctx 3).jobs = [j] ∧ j.p.op ≠ 0 ∧
      (live.ctx 3).jobs = [] ∧ live.fallback = none ∧ (live.fset F.FLT_EVR_CFG_EN 0 1).flag F.FLT_EVR_CFG_EN 0 = true ∧
      live.flag F.FLT_EVR_CFG_EN 0 = false ∧ (0x90000000#32).toNat / 2 ^ 24 % 32 = 16 := by and_intros <;> decide

/-! ### Causeway -/

/-- Link 7 in a state, in a pool, the hubs released. -/
def linked (st : Nat) : State := { liveWith [(F.CW_NODE_POOL_EN, 0, 1), (F.CW_LINK_STAT_STATE, 7, st)] with power := { hubs := true } }

theorem test_links :
    (∀ st, st < 6 → (linked st).linkState 7 = st) ∧ (linked 0).flag F.CW_NODE_POOL_EN 0 = true ∧ natBit (linked 0).conflicts 7 = false ∧
      (linked 1).nodeConflict 7 7 0 = false ∧ (linked 1).nodeConflict 7 0 0 = true ∧ (linked 1).linksReady = false ∧
      ({ linked 1 with power := { hubs := true, memReady := true } } : State).linksReady = true ∧
      (linked 1).fget F.CW_LINK_STAT_FAILS 7 < 2 ∧ tabGet 0 (linked 3).replays 7 < 15 ∧
      15 ≤ tabGet 0 ({ linked 3 with replays := [(7, 15)] } : State).replays 7 ∧ ((linked 4).fset F.CW_LINK_STAT_FAILS 7 2).fget F.CW_LINK_STAT_FAILS 7 = 2 := by
  and_intros <;> decide

theorem test_grants_and_requests :
    let s := (linked 3).fset F.CW_EXPORT_COUNT 0 1
    let a : State := { s with applied := [(1, [5])] }
    live.tdiLocked (live.fget F.CW_GRANT_PART 63) = false ∧ (∀ c ∈ live.cmds, c.part ≠ 0) ∧ (∃ c ∈ (inFlight live .nop).cmds, c.part = 0) ∧
      s.linkState 7 = 3 ∧ s.exported 0x1FFFC0 64 = true ∧ s.exported 0x1FFFC1 64 = false ∧ s.wasApplied 1 5 = false ∧
      a.wasApplied 1 5 = true ∧ s.poisoned = [] ∧ framesOf 0x1FFFC0 64 = [0] ∧ s.poolPart = 0 ∧ s.fused 15 = true ∧
      s.fused 0 = true ∧ s.retired 15 = false ∧ (s.fset F.KS_GRADE_TILE_MASK 0 0x8000).fused 15 = true ∧
      s.isFull 15 32767 = false ∧ natBit ((live.fset F.CW_NODE_MEMBERS 0 0x81).fget F.CW_NODE_MEMBERS 0) 7 = true ∧ 7 ≠ live.node ∧
      natBit (live.fget F.CW_NODE_MEMBERS 0) 7 = false ∧ Flowing s s.poolPart := by unfold Flowing; and_intros <;> decide

/-! ### Trace, counters, registers -/

theorem test_digest_reads :
    let p := TCmd.dgRead 0xFFFFFFFF 2 hostBuf
    let c := theCmd p
    let s := memories p
    Ready s 0 3 c ∧ 32 * 2 ≤ hostBuf.count ∧ s.ringFn 0 = 0 ∧ (s.fset F.KS_PART_ATT_CONFIDENTIAL 0 1).confid 0 = true ∧ s.confid 0 = false ∧
      s.dgCheck c = 0 ∧ (s.fset F.KS_PART_ATT_CONFIDENTIAL 0 1).dgCheck c ≠ 0 ∧ c.took = none ∧ BufHere s hostBuf false ∧ Flowing s 0 := by
  unfold Ready BufHere FramesGood Flowing; and_intros <;> decide

theorem test_trace_commands :
    let p := fun op => TCmd.trcCfg { op := op, buf := hostBuf }
    let q := TCmd.trcCfg { op := 0, mode := 1, buf := hostBuf }
    let e := fun op st => (memories (p op)).fset F.TRC_STAT_STATE 0 st
    (∀ op, op < 3 → Ready (memories (p op)) 0 3 (theCmd (p op))) ∧
      (e 0 0).trcCheck (theCmd (p 0)) = 0 ∧ (e 0 2).trcCheck (theCmd (p 0)) ≠ 0 ∧
      (e 1 4).trcCheck (theCmd (p 1)) = 0 ∧ (e 1 2).trcCheck (theCmd (p 1)) ≠ 0 ∧
      (e 2 2).trcCheck (theCmd (p 2)) = 0 ∧
      (memories q).trcCheck (theCmd q) = 0 ∧ (e 1 4).ringFn 0 = 0 ∧
      BufHere (e 1 4) hostBuf false ∧ Flowing (e 1 4) 0 := by
  refine ⟨?_, by unfold BufHere FramesGood Flowing; and_intros <;> decide⟩
  intro op h
  have : op = 0 ∨ op = 1 ∨ op = 2 := by omega
  unfold Ready
  rcases this with rfl | rfl | rfl <;> decide

theorem test_trace_events :
    let s := fun st => liveWith [(F.TRC_STAT_STATE, 0, st), (F.TRC_STAT_MODE, 0, 1)]
    let t : State := { s 2 with trace := { buf := [{}], fifoLost := [(63, 1)] } }
    ((s 3).fget F.TRC_STAT_STATE 0 = 3 ∧ (s 3).trace.post = 0) ∧ ¬ ((s 2).fget F.TRC_STAT_STATE 0 = 3) ∧
      t.flag F.TRC_STAT_MODE 0 = true ∧ t.fget F.TRC_STAT_STATE 0 = 2 ∧ t.trace.buf ≠ [] ∧ tabGet 0 t.trace.fifoLost 63 ≠ 0 ∧
      tabGet 0 live.trace.fifoLost 63 = 0 := by and_intros <;> decide

theorem test_counters :
    let s := live.fset F.EVC_CFG_EN 63 1
    s.flag F.EVC_CFG_EN 63 = true ∧ s.fget F.EVC_CFG_EVENT 63 = 0 ∧ s.fget F.EVC_CFG_QUAL 63 = 0 ∧ s.flag F.EVC_CFG_ANY 63 = false ∧
      live.flag F.EVC_CFG_EN 63 = false ∧ s.flag F.EVC_CFG_CFG_ERR 63 = false ∧
      (s.fset F.EVC_CFG_CFG_ERR 63 1).flag F.EVC_CFG_CFG_ERR 63 = true ∧ evcRange 0x00F = some 16 ∧ evcRange 0x010 = none := by and_intros <;> decide

theorem test_register_writes :
    (Instr.registerWrite .pf 0 32 0).wf = true ∧ live.regByte .pf (regOffset .TB_CTRL 0) = some (.TB_CTRL, 0, 0) ∧
      (∀ i, i < 3 → live.regByte .pf (0x3FFFFFC + i) = none) ∧ (24 + 7) / 8 = 3 ∧ (regPlace .TB_CTRL).width ≠ 24 ∧ State.reset.fget F.KS_STAT_STATE 0 = 0 ∧
      (live.regByte .pf (regOffset .TB_CTRL 0)).isSome = true ∧ (regPlace .TB_CTRL).width ≠ 64 := by and_intros <;> decide

/-! ### Keystone -/

theorem test_firmware :
    let s := liveWith [(F.KS_STAT_PENDING, 0, 1)]
    let b := liveWith [(F.KS_FW_STAT_BUSY, 0, 1), (F.KS_FW_STAT_LAST_CMD, 0, 1)]
    live.flag F.KS_FW_STAT_BUSY 0 = false ∧ b.flag F.KS_FW_STAT_BUSY 0 = true ∧ b.fget F.KS_FW_STAT_LAST_CMD 0 = 1 ∧
      s.activateErr true = 0 ∧ live.activateErr true ≠ 0 ∧ (4096#32).toNat % 2 ^ 13 = 4096 ∧ (4097#32).toNat % 2 ^ 13 = 4097 ∧
      (live.fset F.KS_STAT_STATE 0 2).switching = true ∧ live.switching = false ∧ (∀ p, p < 8 → live.confid p = false) ∧
      (0#32).getLsbD 31 = false ∧ (0x80000000#32).getLsbD 31 = true ∧ live.fget F.KS_STAT_STATE 0 ≠ 0 ∧ State.reset.fget F.KS_STAT_STATE 0 = 0 := by
  and_intros <;> decide

theorem test_hash :
    let p := fun op => TCmd.ksHash op 0 7 hostBuf
    let s := fun op => ({ memories (p op) with hashes := [(7, some {})] } : State)
    let f : State := { live with hashes := (List.range 8).map (fun k => (k, some {})) }
    (∀ op ∈ [0, 1, 2, 3], Ready (s op) 0 3 (theCmd (p op)) ∧ hashCheck (s op) (theCmd (p op)) = 0 ∧ (s op).hashCtx 7 = some {} ∧
      BufHere (s op) hostBuf true ∧ Flowing (s op) 0) ∧ hashCheck live (theCmd (p 1)) ≠ 0 ∧ 48 ≤ hostBuf.count ∧
      (∀ j, j < 8 → (f.hashCtx j).isSome = true) ∧ live.hashCtx 0 = none := by
  unfold Ready BufHere FramesGood Flowing; and_intros <;> decide

/-! ### Caisson -/

/-- One prime, 2 ^ 5 - 2 ^ 1 + 1 = 31, in a ring of one coefficient. -/
def tinyChain : List Prime := [{ k := 5, j := 1, psi := 30 }]

/-- Partition 0 holds the whole Vault and context 3, of one prime; HBM frame 0 is granted. -/
def sealedState (jobs : List CsJob) (c : TCmd) : State :=
  { memories c with
    regs := (sets (memories c) [(F.CS_PART_VAULT_SIZE, 0, 96), (F.CS_CTX_STATE, 3, 1), (F.CS_STAT_CUR, 0, 3), (F.CS_STAT_IDLE, 0, 0)]).regs
    csCtx := [(3, { chain := tinyChain, jobs := jobs })] }

def sealedOp (op : Nat) : CsParams := { ctx := 3, op := op, nl := 1, a := 0, b := 1, d := 2, onl := 1, hbm := { hbmBuf with count := 8 }, consts := [1] }

/-- A chain of one prime in a buffer of 16 bytes. -/
def chainBuf : BufDesc := { hostBuf with count := 16 }

theorem test_caisson_contexts :
    let p := TCmd.csCtxOpen 0 1 chainBuf
    let q := TCmd.csCtxClose 3
    let s := sealedState [] p
    let z := sealedState [] q
    let late := fun c => ({ sealedState [] c with cmds := [{ theCmd q with tag := 4 }, theCmd c] } : State)
    Ready s 0 3 (theCmd p) ∧ s.csCtxOpenCheck (theCmd p) = 0 ∧ BufHere s chainBuf true ∧ Flowing s 0 ∧ s.csAhead (theCmd p) = false ∧
      (late p).csAhead (theCmd p) = true ∧ (late q).csAhead (theCmd q) = true ∧ Ready (late p) 0 3 (theCmd p) ∧
      (memories p).csCtxOpenCheck (theCmd p) ≠ 0 ∧ s.fget F.CS_CTX_STATE 0 = 0 ∧
      (∀ k, k < 4 → (sets s [(F.CS_CTX_STATE, 0, 1), (F.CS_CTX_STATE, 1, 1), (F.CS_CTX_STATE, 2, 1)]).fget F.CS_CTX_STATE k ≠ 0) ∧
      chainOf [5, 1, 0, 0, 0, 0, 0, 0, 30, 0, 0, 0, 0, 0, 0, 0] 1 = some tinyChain ∧ chainOk 0 tinyChain = true ∧
      chainOk 0 [{ k := 0, j := 0, psi := 0 }] = false ∧ chainOf [5, 1, 1] 1 = none ∧ z.csAhead (theCmd q) = false ∧
      z.csCtxCloseCheck (theCmd q) = 0 ∧ live.csCtxCloseCheck (theCmd q) ≠ 0 ∧ (s.ctx 3).jobs = [] := by
  unfold Ready BufHere FramesGood Flowing; and_intros <;> decide

theorem test_caisson_operations :
    (∀ op, op < 11 → let p := TCmd.csOp (sealedOp op); let s := sealedState [] p
      csCheck s (theCmd p) = 0 ∧ s.csAhead (theCmd p) = false ∧ FramesGood s 0x1FFFC0 8 (op == 0)) ∧
    (let p := TCmd.csOp (sealedOp 4)
     let s := sealedState [] p
     Ready s 0 3 (theCmd p) ∧ csCheck live (theCmd p) ≠ 0 ∧ Flowing s 0 ∧ (sealedOp 4).hbm.kind = 1 ∧ s.vaultPoisoned 0 8 = none ∧
       ({ s with vaultBad := [0] } : State).vaultPoisoned 0 8 = some 0 ∧
       ({ s with cmds := [{ theCmd p with tag := 4 }, theCmd p] } : State).csAhead (theCmd p) = true ∧
       (∀ j ∈ ((sealedState [{ ring := 0, tag := 4, p := sealedOp 4 }] p).ctx 3).jobs, j.ring ≠ 0 ∨ j.tag ≠ 3)) := by
  unfold Ready FramesGood Flowing; and_intros <;> decide

theorem test_limb_steps :
    let j : CsJob := { ring := 0, tag := 3, p := sealedOp 4 }
    let s := sealedState [j] (.csOp (sealedOp 4))
    s.flag F.CS_STAT_IDLE 0 = false ∧ (s.ctx (s.fget F.CS_STAT_CUR 0)).jobs = [j] ∧ 2 ≤ j.p.op ∧ isPrime 31 = true ∧
      j.step + 1 = jobSteps j.p ∧ j.step + 1 ≠ jobSteps { j.p with nl := 2 } ∧
      (s.stepReads 0 0 j.step j.p).any (fun e => (s.vaultPoisoned e.1 e.2).isSome) = false ∧
      (let b : State := { s with vaultBad := [1] }
       (b.stepReads 0 0 j.step j.p).any (fun e => (b.vaultPoisoned e.1 e.2).isSome) = true) ∧
      (s.ctx 3).prime 0 = { k := 5, j := 1, psi := 30 } ∧ live.flag F.CS_STAT_IDLE 0 = true ∧
      memNat s.vault (s.vaultAddr 0 0) 8 < 31 := by and_intros <;> decide

/-! ### The mailbox -/

/-- The mailbox open, session 3 established, handshake 2 begun. -/
def talking (l : List (Fld × Nat × Nat)) : State :=
  { liveWith l with
    power := { hostReady := true }
    spdm := { sessions := [false, false, false, true], handshake := [false, false, true, false] } }

theorem test_mailbox :
    Talks (talking []) none ∧ Talks (talking []) (some 3) ∧ (talking []).lostSession (some 0) = true ∧
      (talking [(F.KS_STAT_STATE, 0, 2)]).switching = true ∧ (talking [(F.KS_STAT_STATE, 0, 3)]).fget F.KS_STAT_STATE 0 = 3 ∧
      live.configOpen = false ∧ ({ live with power := { perst := true } } : State).power.perst = true ∧
      requestOf (.spdmHeartbeat 3) = some (some 3, false) := by unfold Talks; and_intros <;> decide

theorem test_sessions :
    let s := talking []
    let f : State := { s with spdm := { s.spdm with sessions := [true, true, true, true] } }
    (∀ k, k < 4 → f.sessionOpen k = true ∨ f.spdm.handshake.getD k false = true) ∧ s.sessionOpen 0 = false ∧
      s.spdm.handshake.getD 2 false = true ∧ s.spdm.handshake.getD 3 false = false ∧ s.spdm.slot1 = [] ∧
      ({ s with spdm := { s.spdm with slot1 := [1] } } : State).spdm.slot1 ≠ [] ∧
      ({ s with spdm := { s.spdm with deferred := [(0, .spdmGetVersion none)] } } : State).spdm.deferred.find? (fun e => e.1 == 0) =
        some (0, .spdmGetVersion none) ∧ s.spdm.deferred = [] := by and_intros <;> decide

set_option maxRecDepth 8000 in
theorem test_tdisp :
    let s : State := { talking ((List.range 16).map (fun i => (F.TRH_RING_CFG_OWNER, 16 * 7 + i, 1))) with ide := 0x100 }
    (s.fget F.KS_PART_ATT_TDI 7 = 0 ∧ (∀ i, i < 16 → s.flag F.TRH_RING_CFG_OWNER (16 * 7 + i) = true) ∧ s.resetBusy 7 = false ∧
      natBit s.ide 8 = true) ∧ (talking [(F.KS_PART_ATT_TDI, 7, 1)]).fget F.KS_PART_ATT_TDI 7 = 1 := by and_intros <;> decide

/-! ### Thermal, power and test access -/

theorem test_thermal :
    let s : State := { live with power := { pll := true } }
    let w : State := { s with thermal := { window := [([0, 0, 0, 0], List.replicate 16 0, 0, 0)], inletFails := 2, shut := 2 } }
    s.power.pll = true ∧ s.thermal.window.length ≤ 1000 ∧ ¬ (∃ k, k < 4 ∧ (1520 : Int) ≤ (([1519, 1519, 1519, 1519] : List W16).getD k 0).toInt) ∧
      (∃ k, k < 4 ∧ (1520 : Int) ≤ (([0, 0, 0, 1520] : List W16).getD k 0).toInt) ∧
      (∃ k, k < 4 ∧ (1680 : Int) ≤ (([0, 0, 0, 1680] : List W16).getD k 0).toInt) ∧ s.thermal.shut = 0 ∧ w.thermal.shut = 2 ∧
      (let t := s.fset F.TH_STAT_THROTTLE 0 1
       t.flag F.TH_STAT_THROTTLE 0 = true ∧ t.cooled = false) ∧
      (s.fset F.TH_CFG_INLET_SRC 0 0).flag F.TH_CFG_INLET_SRC 0 = false ∧ s.flag F.TH_CFG_INLET_SRC 0 = true ∧ w.thermal.inletFails = 2 ∧
      s.thermal.inletFails ≠ 2 ∧ w.thermal.window ≠ [] ∧ s.thermal.window = [] ∧ live.power.pll = false := by and_intros <;> decide

/-- A second of samples at the clearing point. -/
def coolSecond : State :=
  { live with thermal := { window := List.replicate 1000 ([1472, 1472, 1472, 1472], List.replicate 16 1632, 0, 0) } }.fset
    F.TH_STAT_THROTTLE 0 1

theorem test_cooled : coolSecond.flag F.TH_STAT_THROTTLE 0 = true ∧ coolSecond.cooled = true := by
  refine ⟨by decide, ?_⟩
  have hw : coolSecond.thermal.window = List.replicate 1000 ([1472, 1472, 1472, 1472], List.replicate 16 1632, 0, 0) := rfl
  unfold State.cooled
  dsimp only
  rw [hw, List.length_replicate, List.all_replicate]
  decide

theorem test_power_up :
    let p := fun (q : Power) => ({ State.reset with power := q } : State)
    (p { pwrGood := true }).power.pwrGood = true ∧ State.reset.power.pwrGood = false ∧ (p { resetLow := true }).power.resetLow = true ∧
      (p { released := true }).power.released = true ∧ (p { pll := true }).power.boot = false ∧ (p { boot := true }).power.hubs = false ∧
      (p { hubs := true }).power.trained = false ∧ (p { trained := true }).power.memReady = false ∧
      (let s := p { memReady := true }
       s.power.memReady = true ∧ s.power.hostReady = false ∧ s.power.perst = false ∧ s.power.since ≤ s.ticks) ∧
      (p { hubs := true }).power.recovery = false ∧ (p { hubs := true }).power.servo = false ∧
      (State.reset.bank 0).signed = true ∧ State.reset.fuses.svn ≤ (State.reset.bank 0).svn := by and_intros <;> decide

/-! ## Single steps and single values -/

/-- R30: 4.0 ns a tick. -/
theorem test_tick_adds : ∃ t, step { live with power := { pll := true } } = .next t ∧ t.tb = 4 * 2 ^ 24 := ⟨_, rfl, by decide⟩

/-- R144: the last entry of the first pass turns PHASE over, and only that of its ring. -/
theorem test_phase_turns :
    ∃ t, exec (.completionPost 0 3) { liveWith [(F.TRH_RING_CFG_CQ_LOG2, 0, 4), (F.TRH_RING_PTR_CQ_TAIL, 0, 15)] with
        cmds := [{ theCmd .nop with done := some (0, 0) }], phases := 3 } = .next t ∧
      t.phases = 2 ∧ natBit (memNat t.host 240 2) 15 = true ∧ t.fget F.TRH_RING_PTR_CQ_TAIL 0 = 0 := ⟨_, rfl, by decide⟩

/-- R31: TB_NOW holds the timebase in ns. -/
theorem test_now_reads : ∃ t, exec (.tbNowRead 4) { live with tb := 5 * 2 ^ 24 + 1 } = .next t ∧ t.fget F.TB_NOW_NS 4 = 5 ∧
    t.fget F.TB_SNAP_FRAC 4 = 1 := ⟨_, rfl, by decide⟩

/-- R131: NOP ends with STATUS 0. -/
theorem test_nop_ends : ∃ t, exec (.nop 0 3) (inFlight live .nop) = .next t ∧ t.cmds.map (·.done) = [some (0, 0)] := ⟨_, rfl, by decide⟩

/-- R180: a SIGNAL saturates at 65,535 and sets OVERFLOW. -/
theorem test_signal_saturates :
    ∃ t, exec (.semSignal 0 3) (inFlight (liveWith [(F.SEM_CFG_EN, 7, 1), (F.SEM_STAT_COUNT, 7, 65535)]) (.semOp 7 0 0 1)) = .next t ∧
      t.semCount 7 = 65535 ∧ t.fget F.SEM_STAT_OVERFLOW 7 = 1 := ⟨_, rfl, by decide⟩

/-- R129, R134: 64 bytes from a host region land at their HBM offset. -/
theorem test_copy_lands :
    ∃ t, exec (.dmaCopy 0 3) { memories (.dmaCopy hostBuf hbmBuf) with host := [(0x103F, 7)] } = .next t ∧
      t.hbm = [(0x1FFFFF, 7)] ∧ t.cmds.map (·.done) = [some (0, 64)] := ⟨_, rfl, by decide⟩

/-- R164: END takes the tile back to idle. -/
theorem test_end_idles : ∃ t, exec (.endRole 0) (running live (ins 0x2F noOps) []) = .next t ∧ t.fget F.PT_STAT_STATE 0 = 0 ∧
    t.runs = [] := ⟨_, rfl, by decide⟩

/-- R370: a ring image adds modulo 2 ^ 64 (ADD of R165). -/
theorem test_ring_add_wraps : eltRing 0x01 (2 ^ 64 - 1) 2 = 1 := by decide

/-- R213 and IEEE 754: 1 + 1 = 2, 1.5 x 2 = 3, and 1 in F16 and in BF16. -/
theorem test_float : f32Add 0x3F800000 0x3F800000 = 0x40000000 ∧ f32Mul 0x3FC00000 0x40000000 = 0x40400000 ∧
    (convert 1 .rne true 0 (f32Val 0x3F800000)).1 = 0x3C00 ∧
    (convert 2 .rne true 0 (f32Val 0x3F800000)).1 = 0x3F80 := by decide

/-- R12, R63: a write of a port's OFF takes effect through its register. -/
theorem test_port_off : ∃ t, exec (.portCfgWrite 42 0x80000000) live = .next t ∧ t.flag F.ING_PORT_CFG_OFF 42 = true := ⟨_, rfl, by decide⟩

end Sys2Proof.Tests
end

/-! PROOF of O6. The memories and the register table of the LY4 keep their canonical form. The memories change in the
writes of the first part, and in `deckPut`, only; every other operation changes other fields or goes through those writes, so
one lemma for each operation of the model, in the model's order, carries the invariant from the writes to the commands. -/

namespace Sys2Proof.Safety

open Sys2Proof.Machine State

variable {s : State}

/-! The writes of the memories, of one register, and updates of anything else -/

/-- A table write keeps the keys strictly rising, also where it lists the default. -/
theorem tabSorted_tabSet {V : Type} [DecidableEq V] (d : V) (t : Tab V) (k : Nat) (v : V) (h : tabSorted t = true) :
    tabSorted (tabSet d t k v) = true := by
  unfold tabSet
  split
  · exact tabSorted_filter _ t h
  · exact tabSorted_tabPut t k v h

theorem memWf_foldl_memSet {α : Type} (m : Memory) (l : List α) (a : α → Nat) (b : α → Byte) (h : memWf m = true) :
    memWf (l.foldl (fun m x => memSet m (a x) (b x)) m) = true := by
  induction l generalizing m with
  | nil => exact h
  | cons x l ih => exact ih _ (memWf_memSet m _ _ h)

theorem Canonical.writeHost {a : Nat} {bs : List Byte} (hs : Canonical s) :
    Canonical { s with host := memWrite s.host a bs } := by
  obtain ⟨hd, hb, hh, hv, hr⟩ := hs
  exact ⟨hd, hb, memWf_memWrite _ _ _ hh, hv, hr⟩

theorem Canonical.writeHbm {a : Nat} {bs : List Byte} (hs : Canonical s) :
    Canonical { s with hbm := memWrite s.hbm a bs } := by
  obtain ⟨hd, hb, hh, hv, hr⟩ := hs
  exact ⟨hd, memWf_memWrite _ _ _ hb, hh, hv, hr⟩

theorem Canonical.filterHbm {p : Host.Cell → Bool} {poisoned : List Nat} (hs : Canonical s) :
    Canonical { s with hbm := s.hbm.filter p, poisoned } := by
  obtain ⟨hd, hb, hh, hv, hr⟩ := hs
  exact ⟨hd, tabWf_filter _ p _ hb, hh, hv, hr⟩

theorem Canonical.writeDeck {a : Nat} {bs : List Byte} (hs : Canonical s) :
    Canonical { s with deck := memWrite s.deck a bs } := by
  obtain ⟨hd, hb, hh, hv, hr⟩ := hs
  exact ⟨memWf_memWrite _ _ _ hd, hb, hh, hv, hr⟩

theorem Canonical.clearDeck {a n : Nat} {full fedOut : Tab Bool} {scales : Tab W128} (hs : Canonical s) :
    Canonical { s with deck := memClear s.deck a n, full, scales, fedOut } := by
  obtain ⟨hd, hb, hh, hv, hr⟩ := hs
  exact ⟨memWf_memClear _ _ _ hd, hb, hh, hv, hr⟩

theorem Canonical.writeVault {a : Nat} {bs : List Byte} {vaultBad : List Nat} (hs : Canonical s) :
    Canonical { s with vault := memWrite s.vault a bs, vaultBad } := by
  obtain ⟨hd, hb, hh, hv, hr⟩ := hs
  exact ⟨hd, hb, hh, memWf_memWrite _ _ _ hv, hr⟩

theorem Canonical.clearVault {a n : Nat} {vaultBad : List Nat} (hs : Canonical s) :
    Canonical { s with vault := memClear s.vault a n, vaultBad } := by
  obtain ⟨hd, hb, hh, hv, hr⟩ := hs
  exact ⟨hd, hb, hh, memWf_memClear _ _ _ hv, hr⟩

/-- The canonical form is about the register table and the four memories: any other field may take any value. -/
theorem Canonical.keep (hs : Canonical s)
    {pending tb wrap ticks goodSyncs servoStepped bearings entries holds windows ports descs filters meters tokens gates pwms
    pulses groups queues txq tags smac lastTag rampUs cmds phases turnPart turnRing mrs unsig progs runs nextRun nextProg
    tiles stays scales full fedOut waiters poisoned resUsed ceilUsed held turnRsv turnExc commit degradedRes faults evPhase
    evLost evHeld ceNow deckCe ceDue peerMasks conflicts restores applied credits replays atomicSeq digests trace fuses
    bankA bankB reverted config fallback swStart policies scrubs scrubInfo hashes hashLast spdm ide csCtx vaultBad thermal
    power jtag outs draws} :
    Canonical { s with
      pending, tb, wrap, ticks, goodSyncs, servoStepped, bearings, entries, holds, windows, ports, descs, filters, meters,
      tokens, gates, pwms, pulses, groups, queues, txq, tags, smac, lastTag, rampUs, cmds, phases, turnPart, turnRing, mrs,
      unsig, progs, runs, nextRun, nextProg, tiles, stays, scales, full, fedOut, waiters, poisoned, resUsed, ceilUsed, held,
      turnRsv, turnExc, commit, degradedRes, faults, evPhase, evLost, evHeld, ceNow, deckCe, ceDue, peerMasks, conflicts,
      restores, applied, credits, replays, atomicSeq, digests, trace, fuses, bankA, bankB, reverted, config, fallback,
      swStart, policies, scrubs, scrubInfo, hashes, hashLast, spdm, ide, csCtx, vaultBad, thermal, power, jtag, outs, draws } := hs

/-! Answers that carry a state: of an operation with other results, of a tile instruction, of a command -/

theorem Canonical.of_snd {α : Type} {p : α × State} {a : α} (e : p = (a, s)) (h : Canonical p.2) : Canonical s := by
  rw [e] at h
  exact h

theorem Canonical.of_snd_snd {α β : Type} {p : α × β × State} {a : α} {b : β} (e : p = (a, b, s)) (h : Canonical p.2.2) :
    Canonical s := by
  rw [e] at h
  exact h

theorem Canonical.of_snd_snd_snd {α β γ : Type} {p : α × β × γ × State} {a : α} {b : β} {c : γ} (e : p = (a, b, c, s))
    (h : Canonical p.2.2.2) : Canonical s := by
  rw [e] at h
  exact h

/-- The state that a tile instruction's answer carries. -/
def Did.state : Did → State
  | .wait s => s
  | .stop s _ => s
  | .ok s _ _ => s

/-- A tile instruction's answer carries a canonical state. -/
def CanonicalDid : Did → Prop
  | .wait s => Canonical s
  | .stop s _ => Canonical s
  | .ok s _ _ => Canonical s

theorem CanonicalDid.ok {b : Nat} {o : List Nat} (h : Canonical s) : CanonicalDid (.ok s b o) := h

theorem CanonicalDid.wait (h : Canonical s) : CanonicalDid (.wait s) := h

theorem CanonicalDid.stop {n : Nat} (h : Canonical s) : CanonicalDid (.stop s n) := h

theorem Canonical.of_did {d e : Did} (he : d = e) (h : CanonicalDid d) : Canonical (Did.state e) := by
  subst he
  cases d <;> exact h

/-- Every next state that a command answers is canonical. -/
def CanonicalNext (o : Host.Outcome State Fault Refusal) : Prop := ∀ t, o = .next t → Canonical t

theorem CanonicalNext.next (h : Canonical s) : CanonicalNext (.next s) := by
  rintro _ ⟨⟩
  exact h

/-! Choices and loops -/

theorem Canonical.ite {c : Prop} [Decidable c] {a b : State} (ha : Canonical a) (hb : Canonical b) :
    Canonical (if c then a else b) := by
  split
  · exact ha
  · exact hb

/-- A choice whose first branch goes on from the state of its second. -/
theorem Canonical.ite_then {c : Prop} [Decidable c] {a b : State} (hb : Canonical b) (ha : Canonical b → Canonical a) :
    Canonical (if c then a else b) := .ite (ha hb) hb

/-- A choice whose second branch goes on from the state of its first. -/
theorem Canonical.ite_else {c : Prop} [Decidable c] {a b : State} (ha : Canonical a) (hb : Canonical a → Canonical b) :
    Canonical (if c then a else b) := .ite ha (hb ha)

theorem Canonical.ite_snd {α : Type} {c : Prop} [Decidable c] {a b : α × State} (ha : Canonical a.2)
    (hb : Canonical b.2) : Canonical (if c then a else b).2 := by
  split
  · exact ha
  · exact hb

theorem Canonical.ite_snd_snd {α β : Type} {c : Prop} [Decidable c] {a b : α × β × State} (ha : Canonical a.2.2)
    (hb : Canonical b.2.2) : Canonical (if c then a else b).2.2 := by
  split
  · exact ha
  · exact hb

theorem Canonical.ite_snd_snd_snd {α β γ : Type} {c : Prop} [Decidable c] {a b : α × β × γ × State}
    (ha : Canonical a.2.2.2) (hb : Canonical b.2.2.2) : Canonical (if c then a else b).2.2.2 := by
  split
  · exact ha
  · exact hb

theorem CanonicalDid.ite {c : Prop} [Decidable c] {a b : Did} (ha : CanonicalDid a) (hb : CanonicalDid b) :
    CanonicalDid (if c then a else b) := by
  split
  · exact ha
  · exact hb

theorem Canonical.foldl {α : Type} {f : State → α → State} {l : List α} (hf : ∀ s a, Canonical s → Canonical (f s a))
    (h : Canonical s) : Canonical (l.foldl f s) := by
  induction l generalizing s with
  | nil => exact h
  | cons a l ih => exact ih (hf s a h)

theorem Canonical.forEach {α : Type} {f : α → State → State} {l : List α} (hf : ∀ a s, Canonical s → Canonical (f a s))
    (h : Canonical s) : Canonical (forEach l f s) := .foldl (fun s a => hf a s) h

/-! The operations and commands of Machine/Ops -/

theorem Canonical.rset {r : Reg} {k : Nat} {v : W64} (hs : Canonical s) : Canonical (s.rset r k v) := by
  obtain ⟨hd, hb, hh, hv, hr⟩ := hs
  exact ⟨hd, hb, hh, hv, tabSorted_tabSet _ _ _ _ hr⟩

theorem Canonical.rreset {r : Reg} {k : Nat} (hs : Canonical s) : Canonical (s.rreset r k) := .rset hs

theorem Canonical.fset {f : Fld} {k v : Nat} (hs : Canonical s) : Canonical (s.fset f k v) := .rset hs

theorem Canonical.fadd {f : Fld} {k n : Nat} (hs : Canonical s) : Canonical (s.fadd f k n) := .fset hs

theorem Canonical.setBearing {c : Nat} {b : Bearing} (hs : Canonical s) : Canonical (s.setBearing c b) := .keep hs

theorem Canonical.setWin {w : Nat} {v : Window} (hs : Canonical s) : Canonical (s.setWin w v) := .keep hs

theorem Canonical.setPort {p : Nat} {v : Port} (hs : Canonical s) : Canonical (s.setPort p v) := .keep hs

theorem Canonical.setDesc {n : Nat} {v : Desc} (hs : Canonical s) : Canonical (s.setDesc n v) := .keep hs

theorem Canonical.setGate {g : Nat} {v : Gate} (hs : Canonical s) : Canonical (s.setGate g v) := .keep hs

theorem Canonical.setPwm {o : Nat} {v : Pwm} (hs : Canonical s) : Canonical (s.setPwm o v) := .keep hs

theorem Canonical.setGroup {g : Nat} {v : OutBuf} (hs : Canonical s) : Canonical (s.setGroup g v) := .keep hs

theorem Canonical.setQueue {q : Nat} {v : OutBuf} (hs : Canonical s) : Canonical (s.setQueue q v) := .keep hs

theorem Canonical.setAdvTag {k : Nat} {v : OutBuf} (hs : Canonical s) : Canonical (s.setAdvTag k v) := .keep hs

theorem Canonical.setTxFrames {p : Nat} {v : List TxFrame} (hs : Canonical s) : Canonical (s.setTxFrames p v) :=
  .keep hs

theorem Canonical.setTile {t : Nat} {v : Tile} (hs : Canonical s) : Canonical (s.setTile t v) := .keep hs

theorem Canonical.setStay {t c : Nat} {v : Stay} (hs : Canonical s) : Canonical (s.setStay t c v) := .keep hs

theorem Canonical.setSemWaiters {n : Nat} {v : List Waiter} (hs : Canonical s) : Canonical (s.setSemWaiters n v) :=
  .keep hs

theorem Canonical.setMr {p h : Nat} {v : Region} (hs : Canonical s) : Canonical (s.setMr p h v) := .keep hs

theorem Canonical.setCtx {c : Nat} {v : CsCtx} (hs : Canonical s) : Canonical (s.setCtx c v) := .keep hs

theorem Canonical.setHashCtx {c : Nat} {v : Option HashCtx} (hs : Canonical s) : Canonical (s.setHashCtx c v) :=
  .keep hs

theorem Canonical.draw (hs : Canonical s) : Canonical s.draw.2 := .keep hs

theorem Canonical.emit {o : Out} (hs : Canonical s) : Canonical (s.emit o) := .keep hs

theorem Canonical.hostWrite {a : Nat} {bs : List Byte} (hs : Canonical s) : Canonical (s.hostWrite a bs) :=
  .writeHost hs

theorem Canonical.countOne {masked : Bool} {n k : Nat} (hs : Canonical s) : Canonical (countOne masked n k s) :=
  .ite (.fset hs) (.fset (.ite hs (.fset hs)))

theorem Canonical.count {code : Nat} {qual part : Option Nat} {n : Nat} (hs : Canonical s) :
    Canonical (s.count code qual part n) :=
  .ite (.forEach (fun _ _ hs => .countOne hs) hs) hs

theorem Canonical.snapshot (hs : Canonical s) : Canonical s.snapshot := .forEach (fun _ _ hs => .fset hs) (.fset hs)

theorem Canonical.charge {p r n : Nat} (hs : Canonical s) : Canonical (s.charge p r n) :=
  .count (.count (.fadd (.fadd (.keep hs))))

theorem Canonical.gated {p : Nat} {c : Instr} {t : State} (hs : Canonical s) (ht : Canonical t) :
    Canonical (s.gated p c t) := by
  unfold State.gated
  split
  · exact ht
  · exact .ite hs (.keep hs)

theorem Canonical.gatedAll {ps : List Nat} {c : Instr} {t : State} (hs : Canonical s) (ht : Canonical t) :
    Canonical (s.gatedAll ps c t) := by
  unfold State.gatedAll
  split
  · exact .gated hs ht
  · exact ht

theorem Canonical.streamDrain (hs : Canonical s) : Canonical s.streamDrain :=
  .keep (.charge (.hostWrite (.foldl (fun _ _ hs => .hostWrite hs) hs)))

theorem Canonical.traceLost {src : Nat} {part : Option Nat} (hs : Canonical s) : Canonical (s.traceLost src part) :=
  .count (.fset (.fadd (.keep hs)))

theorem Canonical.tracePut {r : TraceRec} (hs : Canonical s) : Canonical (s.tracePut r) :=
  .ite (.ite_then (.keep (.fadd hs)) .streamDrain) (.keep (.ite_else (.fadd hs) .fset))

theorem Canonical.traceTake {src ty : Nat} {part : Option Nat} {fs : List (Nat × Nat)} (hs : Canonical s) :
    Canonical (s.traceTake src ty part fs) :=
  .ite (.traceLost (.keep hs)) (.tracePut (.count (.keep hs)))

theorem Canonical.traceEv {src ty : Nat} {part : Option Nat} {fs : List (Nat × Nat)} (hs : Canonical s) :
    Canonical (s.traceEv src ty part fs) :=
  .ite hs (.ite hs (.ite (.traceTake hs) (.ite (.ite_else (.traceTake hs) (fun h => .keep h)) hs)))

theorem Canonical.msix {fn vector : Nat} (hs : Canonical s) : Canonical (s.msix fn vector) := .emit hs

theorem Canonical.unsignalled {fn vector : Nat} {en : Bool} {coalN : Nat} (hs : Canonical s) :
    Canonical (s.unsignalled fn vector en coalN) :=
  .ite (.keep (.msix hs)) (.keep hs)

theorem Canonical.eventWrite {e : EvRec} (hs : Canonical s) : Canonical (s.eventWrite e) :=
  .unsignalled (.charge (.fset (.keep (.hostWrite hs))))

theorem Canonical.eventsLost (hs : Canonical s) : Canonical s.eventsLost := .ite hs (.eventWrite (.keep hs))

theorem Canonical.eventPut {e : EvRec} (hs : Canonical s) : Canonical (s.eventPut e) :=
  .ite (.keep (.fset (.fadd hs))) (.ite (.eventWrite hs) hs)

theorem Canonical.eventPost {e : EvRec} (hs : Canonical s) : Canonical (s.eventPost e) :=
  .ite hs (.ite (.keep hs) (.eventPut (.eventsLost hs)))

theorem Canonical.event {ty part arg0 arg1 arg2 : Nat} (hs : Canonical s) :
    Canonical (s.event ty part arg0 arg1 arg2) :=
  .eventPost hs

theorem Canonical.faultNew {f : FaultRec} (hs : Canonical s) : Canonical (s.faultNew f) :=
  .traceEv (.event (.fadd (.keep hs)))

theorem Canonical.fault {f : FaultRec} (hs : Canonical s) : Canonical (s.fault f) := by
  unfold State.fault
  split
  · exact .ite (.keep hs) (.faultNew hs)
  · exact .faultNew hs

theorem Canonical.accessFault {fn : Fn} {cause off : Nat} {data : W64} (hs : Canonical s) :
    Canonical (s.accessFault fn cause off data) :=
  .fault hs

theorem Canonical.modCmd {r t : Nat} {f : Cmd → Cmd} (hs : Canonical s) : Canonical (s.modCmd r t f) := .keep hs

/-! The operations and commands of Machine/Tollgate -/

theorem Canonical.refill (hs : Canonical s) : Canonical s.refill := .keep hs

theorem Canonical.tollCycles {n : Nat} (hs : Canonical s) : Canonical (s.tollCycles n) :=
  .forEach (fun _ _ hs => .count (.fadd hs)) hs

theorem Canonical.arbitrate {r : Nat} (hs : Canonical s) : Canonical (arbitrate r s) := .keep hs

theorem Canonical.returnCredits (hs : Canonical s) : Canonical s.returnCredits := .keep hs

theorem Canonical.serveHeld (hs : Canonical s) : Canonical s.serveHeld :=
  .ite (.keep hs) (.returnCredits (.forEach (fun _ _ hs => .arbitrate hs) hs))

theorem Canonical.dropHeld {p : Nat} (hs : Canonical s) : Canonical (s.dropHeld p) := .keep hs

theorem Canonical.capacityEvent {ty r : Nat} (hs : Canonical s) : Canonical (s.capacityEvent ty r) := .event hs

theorem Canonical.recomputeRes {r : Nat} (hs : Canonical s) : Canonical (recomputeRes r s) :=
  .ite (.forEach (fun _ _ hs => .fset hs) (.foldl (fun _ _ hs => .fset (.fset hs)) hs)) (.fset (.fset (.foldl (fun _ _
    hs => .fset (.fset hs)) hs)))

theorem Canonical.recomputeReport {deg : Option Nat} {r : Nat} (hs : Canonical s) :
    Canonical (recomputeReport deg r s) :=
  .ite (.capacityEvent (.traceEv (.fset hs))) (.ite_then (.traceEv (.fset hs)) .capacityEvent)

theorem Canonical.advTagDegrade {k : Nat} (hs : Canonical s) : Canonical (advTagDegrade k s) :=
  .ite_then (.setAdvTag hs) (fun h => .count (.fadd (.fset h)))

theorem Canonical.recompute (hs : Canonical s) : Canonical s.recompute := by
  refine .forEach (fun _ _ hs => .recomputeReport hs) ?_
  split
  · exact .keep (.fset (.fset (.ite_else (.forEach (fun _ _ hs => .recomputeRes hs) hs) (fun h => .forEach (fun _ _ hs
      => .advTagDegrade hs) h))))
  · exact .forEach (fun _ _ hs => .recomputeRes hs) hs

theorem CanonicalNext.execDegradedClear (hs : Canonical s) : CanonicalNext (execDegradedClear s) :=
  .next (.ite (.capacityEvent (.fset (.fset hs))) hs)

/-! The operations and commands of Machine/Sem -/

theorem Canonical.semAdd {n k : Nat} (hs : Canonical s) : Canonical (s.semAdd n k) :=
  .count (.fset (.ite hs (.fset hs)))

theorem Canonical.semTake {n k : Nat} (hs : Canonical s) : Canonical (s.semTake n k) := .traceEv (.count (.fset hs))

theorem Canonical.semGiveBack {n k : Nat} (hs : Canonical s) : Canonical (s.semGiveBack n k) := .fset hs

theorem Canonical.lockTake {n kind id : Nat} (hs : Canonical s) : Canonical (s.lockTake n kind id) :=
  .traceEv (.ite_else (.count (.fset (.fset (.fset (.fset hs))))) .count)

theorem Canonical.lockFree {n : Nat} (hs : Canonical s) : Canonical (s.lockFree n) := .fset (.fset (.fset (.fset hs)))

theorem Canonical.lockRelease {n : Nat} (hs : Canonical s) : Canonical (s.lockRelease n) := .fset (.lockFree hs)

theorem Canonical.lockAbandon {n : Nat} (hs : Canonical s) : Canonical (s.lockAbandon n) := .fset (.lockFree hs)

theorem Canonical.abandonWhere {f : Nat → Nat → Nat → Bool} (hs : Canonical s) : Canonical (s.abandonWhere f) :=
  .forEach (fun _ _ hs => .lockAbandon hs) hs

theorem Canonical.waiterTake {n : Nat} {w : Waiter} (hs : Canonical s) : Canonical (s.waiterTake n w) :=
  .ite (.lockTake hs) (.semTake hs)

theorem Canonical.semRequest {n : Nat} {w : Waiter} (hs : Canonical s) : Canonical (s.semRequest n w).2 :=
  .ite_snd (.waiterTake hs) (.setSemWaiters hs)

theorem Canonical.dropWaiters {f : Requester → Bool} (hs : Canonical s) : Canonical (s.dropWaiters f) := .keep hs

theorem Canonical.signalFree {unit part n p : Nat} (hs : Canonical s) : Canonical (s.signalFree unit part n p) :=
  .ite (.fault hs) (.ite (.fault hs) (.semAdd hs))

/-! The operations and commands of Machine/Mem -/

theorem Canonical.countBlocks {code p o n : Nat} (hs : Canonical s) : Canonical (s.countBlocks code p o n) :=
  .forEach (fun _ _ hs => .count hs) hs

theorem Canonical.poisonFault {cause action p a rt : Nat} (hs : Canonical s) :
    Canonical (s.poisonFault cause action p a rt) :=
  .fault hs

theorem Canonical.freeBytes {n : Nat} (hs : Canonical s) : Canonical (s.freeBytes n).2 := by
  induction n generalizing s with
  | zero => exact hs
  | succ n ih => exact ih (.draw hs)

theorem Canonical.laneUse {l lane k : Nat} (hs : Canonical s) : Canonical (s.laneUse l lane k) := .keep hs

theorem Canonical.linkUse {nd n : Nat} {received : Bool} (hs : Canonical s) :
    Canonical (s.linkUse nd n received) := by
  unfold State.linkUse
  split
  · exact hs
  · exact .count (.ite_else (.laneUse hs) .fadd)

theorem Canonical.toPool {nd : Nat} {m : PoolMsg} (hs : Canonical s) : Canonical (s.toPool nd m) := .emit hs

theorem Canonical.noPath {p nd rt : Nat} (hs : Canonical s) : Canonical (s.noPath p nd rt) := .fault hs

theorem Canonical.peerAnswer {read : Bool} (hs : Canonical s) : Canonical (s.peerAnswer read).2 := .keep hs

theorem Canonical.remoteRead {p cause rt a n : Nat} (hs : Canonical s) :
    Canonical (s.remoteRead p cause rt a n).2.2 :=
  have h : Canonical ((s.toPool (a / 2 ^ 36) (.read (a % 2 ^ 36) n)).peerAnswer true).2 := .peerAnswer (.toPool hs)
  .ite_snd_snd (.poisonFault (.draw h)) (.ite_snd_snd h (.linkUse (.charge (.freeBytes h))))

theorem Canonical.remoteWrite {p nd n : Nat} {m : PoolMsg} (hs : Canonical s) :
    Canonical (s.remoteWrite p nd n m).2 :=
  have h : Canonical ((s.toPool nd m).peerAnswer false).2 := .peerAnswer (.toPool hs)
  .ite_snd h (.linkUse (.charge h))

theorem Canonical.nextSeq (hs : Canonical s) : Canonical s.nextSeq.2 := .keep hs
/-- A property that the ways of a request out of this device give their answer (R29, R285). -/
theorem remotely_induction {α : Type} {P : α → Prop} {p rt nd : Nat} {fail : Nat → State → α} {f : State → α}
    (hs : Canonical s) (hfail : ∀ n s, Canonical s → P (fail n s)) (hf : ∀ s, Canonical s → P (f s)) :
    P (s.remotely p rt nd fail f) := by
  unfold State.remotely
  split
  · split
    · exact hfail _ _ hs
    · exact hfail _ _ (.noPath hs)
  · exact hf _ hs

theorem Canonical.hbmRead {p cause rt a n : Nat} (hs : Canonical s) : Canonical (s.hbmRead p cause rt a n).2.2 := by
  unfold State.hbmRead
  refine .ite_snd_snd (.ite_snd_snd hs ?_) ?_
  · split
    · exact .poisonFault hs
    · exact .countBlocks (.charge hs)
  · exact remotely_induction (P := (fun x : Nat × List Byte × State => Canonical x.2.2)) hs (fun _ _ hs => hs) (fun _
      hs => .remoteRead hs)

theorem Canonical.hbmWrite {p rt a : Nat} {bs : List Byte} (hs : Canonical s) :
    Canonical (s.hbmWrite p rt a bs).2 := by
  unfold State.hbmWrite
  refine .ite_snd (.ite_snd hs (.writeHbm (.countBlocks (.charge hs)))) ?_
  exact remotely_induction (P := (fun x : Nat × State => Canonical x.2)) hs (fun _ _ hs => hs) (fun _ hs =>
    .remoteWrite hs)

theorem Canonical.setFull {t slot : Nat} {v : Bool} (hs : Canonical s) : Canonical (s.setFull t slot v) := .keep hs

theorem Canonical.setFulls {t slot n : Nat} {v : Bool} (hs : Canonical s) : Canonical (s.setFulls t slot n v) :=
  .forEach (fun _ _ hs => .setFull hs) hs

theorem Canonical.deckWrite {t slot o : Nat} {bs : List Byte} (hs : Canonical s) :
    Canonical (s.deckWrite t slot o bs) :=
  .writeDeck hs

theorem Canonical.feedOut {t g : Nat} (hs : Canonical s) : Canonical (s.feedOut t g) := .ite (.keep hs) hs

theorem Canonical.bufRead {p rt cause : Nat} {d : BufDesc} {o n : Nat} (hs : Canonical s) :
    Canonical (s.bufRead p rt cause d o n).2.2 := by
  unfold State.bufRead
  split
  · exact .charge hs
  · exact .hbmRead hs
  · exact .ite (.setFulls hs) hs

theorem Canonical.bufWrite {p rt : Nat} {d : BufDesc} {o : Nat} {bs : List Byte} (hs : Canonical s) :
    Canonical (s.bufWrite p rt d o bs).2 := by
  unfold State.bufWrite
  split
  · exact .charge (.writeHost hs)
  · exact .hbmWrite hs
  · exact .ite_then (.charge (.deckWrite hs)) (fun h => .feedOut (.setFulls h))

theorem Canonical.undefBuf {p : Nat} {d : BufDesc} (hs : Canonical s) : Canonical (undefBuf p d s) := by
  have h : Canonical (s.freeBytes d.count).2 := .freeBytes hs
  unfold State.undefBuf
  dsimp only
  split
  · exact .ite hs (.writeHost h)
  · exact .ite (.writeHbm h) h
  · exact .deckWrite h

/-! The operations and commands of Machine/Operands -/

theorem Canonical.deckPut {t a : Nat} {bs : List Byte} (hs : Canonical s) : Canonical (s.deckPut t a bs) := by
  obtain ⟨hd, hb, hh, hv, hr⟩ := hs
  exact ⟨memWf_foldl_memSet _ _ _ _ hd, hb, hh, hv, hr⟩

theorem Canonical.putElem {v : View} {x : Nat × Nat × Nat × Nat} {c : Nat} (hs : Canonical s) :
    Canonical (s.putElem v x c) :=
  .deckPut hs

theorem Canonical.putElems {v : View} {cs : List Nat} (hs : Canonical s) : Canonical (s.putElems v cs) :=
  .foldl (fun _ _ hs => .putElem hs) hs

/-! The operations and commands of Machine/Ring -/

theorem Canonical.bar {t : State} (hs : Canonical s) (ht : Canonical t) : Canonical (s.bar t) := .ite ht hs

theorem Canonical.tdiEnter {p cause : Nat} (hs : Canonical s) : Canonical (s.tdiEnter p cause) :=
  .ite hs (.event (.fset hs))

theorem Canonical.tdiError {p cause : Nat} (hs : Canonical s) : Canonical (s.tdiError p cause) :=
  .ite (.tdiEnter hs) hs

theorem Canonical.finish {r t status result : Nat} (hs : Canonical s) : Canonical (s.finish r t status result) := by
  unfold State.finish
  split
  · exact hs
  · exact .ite_then (.modCmd hs) .signalFree

theorem Canonical.finishAll {f : Cmd → Bool} {status : Nat} (hs : Canonical s) : Canonical (s.finishAll f status) :=
  .keep hs

theorem Canonical.withCmd {r t : Nat} {want : TCmd → Bool} {f : State → Cmd → State} (hs : Canonical s)
    (hf : ∀ s a, Canonical s → Canonical (f s a)) :
    Canonical (s.withCmd r t want f) := by
  unfold State.withCmd
  split
  · exact hs
  · exact .ite hs (hf _ _ hs)

theorem Canonical.enter {c : Cmd} {st : Nat} {effect : State → State} (hs : Canonical s)
    (heffect : ∀ s, Canonical s → Canonical (effect s)) :
    Canonical (s.enter c st effect) :=
  .ite hs (.ite (.finish hs) (heffect _ (.modCmd hs)))

theorem Canonical.begin {r t : Nat} {want : TCmd → Bool} {check : State → Cmd → Nat} {effect : Cmd → State → State}
    {again : Cmd → State → State} (hs : Canonical s) (heffect : ∀ a s, Canonical s → Canonical (effect a s))
    (hagain : ∀ a s, Canonical s → Canonical (again a s)) :
    Canonical (s.begin r t want check effect again) :=
  .withCmd hs (fun _ _ hs => .ite (hagain _ _ hs) (.enter hs (fun _ hs => heffect _ _ hs)))

theorem Canonical.halt {r cause : Nat} (hs : Canonical s) : Canonical (s.halt r cause) := .event (.fset (.fset hs))

theorem Canonical.ringRun {r : Nat} {v : W32} (hs : Canonical s) : Canonical (s.ringRun r v) :=
  .ite (.ite (.ite (.fset hs) (.keep (.fset (.fset (.rset (.fset hs)))))) hs) (.ite (.fset hs) (.fset (.fset hs)))

theorem Canonical.ringCfgWrite {fn : Fn} {r : Nat} {v : W32} (hs : Canonical s) :
    Canonical (s.ringCfgWrite fn r v) := by
  unfold State.ringCfgWrite
  dsimp only
  split
  · exact .ite hs (.ite (.accessFault hs) (.ringRun (.fset (.fset hs))))
  · exact .ite (.accessFault hs) (.ite (.accessFault hs) (.ite (.fset hs) (.ite (.accessFault hs) (.ite (.fset (.fset
      (.fset hs))) (.ringRun (.fset (.fset hs)))))))

theorem Canonical.doorbell {fn : Fn} {r o : Nat} {v : W16} {act : State → State} (hs : Canonical s)
    (hact : ∀ s, Canonical s → Canonical (act s)) :
    Canonical (s.doorbell fn r o v act) := by
  unfold State.doorbell
  refine .ite (hact _ hs) ?_
  split
  · exact .accessFault hs
  · exact hs

theorem Canonical.dbSq {r : Nat} {v : W16} (hs : Canonical s) : Canonical (dbSq r v s) := .ite (.halt hs) (.fset hs)

theorem Canonical.dbCq {fn : Fn} {r : Nat} {v : W16} (hs : Canonical s) : Canonical (dbCq fn r v s) :=
  .ite (.fset hs) (.accessFault hs)

theorem Canonical.fetchTurn {r : Nat} (hs : Canonical s) : Canonical (s.fetchTurn r) := .keep hs

theorem Canonical.takePacket {r : Nat} {b : List Byte} {n status : Nat} {p : Parsed} (hs : Canonical s) :
    Canonical (s.takePacket r b n status p) :=
  .keep (.traceEv (.count (.charge (.fset hs))))

theorem Canonical.post {c : Cmd} (hs : Canonical s) : Canonical (s.post c) :=
  .unsignalled (.traceEv (.ite_else (.count (.charge (.fset (.keep (.hostWrite hs))))) .count))

theorem CanonicalNext.execRingEnable {fn : Fn} {r : Fin 128} {v : W32} (hs : Canonical s) :
    CanonicalNext (execRingEnable fn r v s) :=
  .next (.bar hs (.ringCfgWrite hs))

theorem CanonicalNext.execRingDisable {fn : Fn} {r : Fin 128} {v : W32} (hs : Canonical s) :
    CanonicalNext (execRingDisable fn r v s) :=
  .next (.bar hs (.ringCfgWrite hs))

theorem CanonicalNext.execRingDrained {r : Fin 128} (hs : Canonical s) : CanonicalNext (execRingDrained r s) :=
  .next (.ite (.fset hs) hs)

theorem CanonicalNext.execTrhDbSq {fn : Fn} {r : Fin 128} {v : W16} (hs : Canonical s) :
    CanonicalNext (execTrhDbSq fn r v s) :=
  .next (.bar hs (.doorbell hs (fun _ hs => .dbSq hs)))

theorem CanonicalNext.execTrhDbCq {fn : Fn} {r : Fin 128} {v : W16} (hs : Canonical s) :
    CanonicalNext (execTrhDbCq fn r v s) :=
  .next (.bar hs (.doorbell hs (fun _ hs => .dbCq hs)))

theorem CanonicalNext.execCompletionPost {r : Fin 128} {tag : Fin 512} (hs : Canonical s) :
    CanonicalNext (execCompletionPost r tag s) := by
  refine .next (.ite hs ?_)
  split
  · exact .gated hs (.post hs)
  · exact hs

theorem CanonicalNext.execCoalescingTimeout {who : CoalOf} (hs : Canonical s) :
    CanonicalNext (execCoalescingTimeout who s) :=
  .next (.ite (.keep (.msix hs)) hs)

theorem CanonicalNext.execNop {r : Fin 128} {tag : Fin 512} (hs : Canonical s) : CanonicalNext (execNop r tag s) :=
  .next (.begin hs (fun _ _ hs => .finish hs) (fun _ _ hs => hs))

theorem CanonicalNext.execMrRegister {r : Fin 128} {tag : Fin 512} (hs : Canonical s) :
    CanonicalNext (execMrRegister r tag s) := by
  refine .next (.begin hs (fun _ _ hs => ?_) (fun _ _ hs => hs))
  split
  · exact .finish (.setMr hs)
  · exact hs

theorem Canonical.streamStop {p h : Nat} (hs : Canonical s) : Canonical (s.streamStop p h) :=
  .ite (.keep (.fset hs)) hs

theorem Canonical.mrGone {h : Nat} {c : Cmd} (hs : Canonical s) : Canonical (mrGone h c s) :=
  .ite hs (.finish (.setMr (.streamStop hs)))

theorem Canonical.passed {c : Cmd} (hs : Canonical s) : Canonical (s.passed c) := by
  unfold State.passed
  split
  · exact .setMr hs
  · exact hs

theorem CanonicalNext.execMrDeregister {r : Fin 128} {tag : Fin 512} (hs : Canonical s) :
    CanonicalNext (execMrDeregister r tag s) := by
  refine .next (.begin hs (fun _ _ hs => ?_) (fun _ _ hs => ?_))
  · split
    · exact .mrGone (.passed hs)
    · exact hs
  · split
    · exact .mrGone hs
    · exact hs

theorem Canonical.copyMore {src dst : BufDesc} {c : Cmd} (hs : Canonical s) : Canonical (copyMore src dst c s) :=
  .ite hs (.ite hs (.ite (.finish (.bufRead hs)) (.ite hs (.ite (.finish (.bufWrite (.bufRead hs))) (.ite (.finish
    (.bufWrite (.bufRead hs))) (.modCmd (.bufWrite (.bufRead hs))))))))

theorem Canonical.copyGo {c : Cmd} (hs : Canonical s) : Canonical (copyGo c s) := by
  unfold State.copyGo
  split
  · exact .copyMore hs
  · exact hs

theorem CanonicalNext.execDmaCopy {r : Fin 128} {tag : Fin 512} (hs : Canonical s) :
    CanonicalNext (execDmaCopy r tag s) :=
  .next (.gated hs (.begin hs (fun _ _ hs => .copyGo hs) (fun _ _ hs => .copyGo hs)))

/-! The operations and commands of Machine/Trace -/

theorem Canonical.dgWrite {dest : BufDesc} {c : Cmd} {took : Nat × List Byte} (hs : Canonical s) :
    Canonical (dgWrite dest c took s) :=
  .ite (.modCmd hs) (.ite (.finish (.ite_snd hs (.bufWrite hs))) (.finish (.ite_snd hs (.bufWrite hs))))

theorem Canonical.dgGo {c : Cmd} (hs : Canonical s) : Canonical (dgGo c s) := by
  unfold State.dgGo
  split
  · exact .dgWrite hs
  · exact hs

theorem Canonical.traceMark {ty trig : Nat} (hs : Canonical s) : Canonical (s.traceMark ty trig) :=
  .ite_then (.fset (.tracePut hs)) .snapshot

theorem Canonical.traceStopped (hs : Canonical s) : Canonical s.traceStopped := .fset (.ite (.streamDrain hs) hs)

theorem Canonical.traceStop {trig : Nat} (hs : Canonical s) : Canonical (s.traceStop trig) :=
  .ite (.ite (.traceStopped (.fset (.traceMark hs))) (.keep (.fset (.traceMark hs)))) (.ite (.keep hs) hs)

theorem Canonical.traceStart {trig : Nat} (hs : Canonical s) : Canonical (s.traceStart trig) := by
  unfold State.traceStart
  refine .ite ?_ ?_
  · dsimp only
    split
    · exact .ite_then (.fset (.traceMark hs)) .traceStop
    · exact .fset (.traceMark hs)
  · exact hs

theorem Canonical.traceAlarm {start : Bool} {p arg : Nat} (hs : Canonical s) : Canonical (s.traceAlarm start p arg) :=
  .ite hs (.ite hs (.ite (.traceStart hs) (.traceStop hs)))

theorem Canonical.traceInput {n : Nat} (hs : Canonical s) : Canonical (s.traceInput n) :=
  .ite_then (.ite (.traceStart hs) hs) .traceStop

theorem Canonical.trcConfigure {p : TrcParams} {c : Cmd} (hs : Canonical s) : Canonical (trcConfigure p c s) :=
  .finish (.keep (.fset (.fset (.fset (.fset (.fset (.fset (.fset hs))))))))

theorem Canonical.trcCopy {p : TrcParams} {c : Cmd} (hs : Canonical s) : Canonical (trcCopy p c s) :=
  .ite (.finish hs) (.ite (.finish (.charge (.writeHost hs))) (.finish (.hbmWrite hs)))

theorem Canonical.trcReadout {c : Cmd} (hs : Canonical s) : Canonical (trcReadout c s) := by
  unfold State.trcReadout
  split
  · exact .trcCopy hs
  · exact hs

theorem Canonical.trcSetup {c : Cmd} (hs : Canonical s) : Canonical (trcSetup c s) := by
  unfold State.trcSetup
  split
  · exact .trcConfigure hs
  · exact hs

theorem Canonical.traceIdle (hs : Canonical s) : Canonical s.traceIdle := .keep (.fset hs)

theorem Canonical.traceTenant {p : Nat} (hs : Canonical s) : Canonical (s.traceTenant p) :=
  .ite_then (.keep hs) .traceIdle

theorem Canonical.evcCtrl {v : W32} (hs : Canonical s) : Canonical (s.evcCtrl v) :=
  .ite_then (.ite_then (.fset (.fset hs)) .snapshot) (fun h => .forEach (fun _ _ hs => .fset hs) h)

theorem Canonical.evcCfg {k : Nat} {v : W32} (hs : Canonical s) : Canonical (s.evcCfg k v) :=
  .ite (.ite (.fset hs) (.accessFault hs)) (.ite_else (.ite_then (.fset (.fset (.fset hs))) .fset) (fun h => .ite
    (.fset h) (.fset h)))

theorem CanonicalNext.execDgRead {r : Fin 128} {tag : Fin 512} (hs : Canonical s) :
    CanonicalNext (execDgRead r tag s) :=
  .next (.gated hs (.begin hs (fun _ _ hs => .dgGo hs) (fun _ _ hs => .dgGo hs)))

theorem CanonicalNext.execTraceConfigure {r : Fin 128} {tag : Fin 512} (hs : Canonical s) :
    CanonicalNext (execTraceConfigure r tag s) :=
  .next (.begin hs (fun _ _ hs => .trcSetup hs) (fun _ _ hs => hs))

theorem CanonicalNext.execTraceReadout {r : Fin 128} {tag : Fin 512} (hs : Canonical s) :
    CanonicalNext (execTraceReadout r tag s) :=
  .next (.gatedAll hs (.begin hs (fun _ _ hs => .trcReadout hs) (fun _ _ hs => hs)))

theorem CanonicalNext.execTraceRelease {r : Fin 128} {tag : Fin 512} (hs : Canonical s) :
    CanonicalNext (execTraceRelease r tag s) :=
  .next (.begin hs (fun _ _ hs => .finish (.traceIdle hs)) (fun _ _ hs => hs))

theorem CanonicalNext.execTracePostEnd (hs : Canonical s) : CanonicalNext (execTracePostEnd s) :=
  .next (.ite (.gated hs (.traceStopped hs)) hs)

theorem CanonicalNext.execTraceLostRecord {src : Fin 64} (hs : Canonical s) :
    CanonicalNext (execTraceLostRecord src s) :=
  .next (.ite (.tracePut (.keep hs)) hs)

theorem CanonicalNext.execStreamFlush (hs : Canonical s) : CanonicalNext (execStreamFlush s) :=
  .next (.ite (.gated hs (.streamDrain hs)) hs)

theorem CanonicalNext.execHostWriteError {err : HostErr} (hs : Canonical s) :
    CanonicalNext (execHostWriteError err s) :=
  .next (.ite (.fault (.fset hs)) hs)

theorem CanonicalNext.execEvcSnap {v : W32} (hs : Canonical s) : CanonicalNext (execEvcSnap v s) :=
  .next (.bar hs (.evcCtrl hs))

theorem CanonicalNext.execEvcClear {v : W32} (hs : Canonical s) : CanonicalNext (execEvcClear v s) :=
  .next (.bar hs (.evcCtrl hs))

theorem CanonicalNext.execEvcCfgWrite {k : Fin 64} {v : W32} (hs : Canonical s) :
    CanonicalNext (execEvcCfgWrite k v s) :=
  .next (.bar hs (.evcCfg hs))

/-! The operations and commands of Machine/Runs -/

theorem Canonical.modRun {id : Nat} {f : Run → Run} (hs : Canonical s) : Canonical (s.modRun id f) := .keep hs

theorem Canonical.modTile {t : Nat} {f : Tile → Tile} (hs : Canonical s) : Canonical (s.modTile t f) := .setTile hs

theorem Canonical.setState {t st : Nat} (hs : Canonical s) : Canonical (s.setState t st) := .ite hs (.fset hs)

theorem Canonical.setStartQ {t : Nat} {q : List Nat} (hs : Canonical s) : Canonical (s.setStartQ t q) :=
  .fset (.modTile hs)

theorem Canonical.setStayStat {t c busy kernel : Nat} (hs : Canonical s) :
    Canonical (s.setStayStat t c busy kernel) :=
  .ite (.fset (.fset hs)) (.fset (.fset hs))

theorem Canonical.stayStop {t c : Nat} (hs : Canonical s) : Canonical (s.stayStop t c) :=
  .setStayStat (.setStay (.abandonWhere (.dropWaiters hs)))

theorem Canonical.staysStop {id : Nat} (hs : Canonical s) : Canonical (s.staysStop id) :=
  .forEach (fun _ _ hs => .forEach (fun _ _ hs => .ite (.stayStop hs) hs) hs) hs

theorem Canonical.tileFree {t : Nat} (hs : Canonical s) : Canonical (s.tileFree t) := .rset (.setState (.setTile hs))

theorem Canonical.finishRun {r : Run} {status : Nat} (hs : Canonical s) : Canonical (s.finishRun r status) := by
  unfold State.finishRun
  dsimp only
  split
  · exact .finish (.modCmd hs)
  · exact hs

theorem Canonical.roleStop {id status t : Nat} (hs : Canonical s) : Canonical (roleStop id status t s) :=
  .ite (.tileFree (.traceEv (.abandonWhere (.dropWaiters hs)))) hs

theorem Canonical.runStop {id status : Nat} (hs : Canonical s) : Canonical (s.runStop id status) := by
  unfold State.runStop
  split
  · exact hs
  · exact .finishRun (.keep (.forEach (fun _ _ hs => .ite (.setStartQ hs) hs) (.forEach (fun _ _ hs => .roleStop hs)
      (.staysStop (.ite (.forEach (fun _ _ hs => .undefBuf hs) hs) hs)))))

theorem Canonical.commitDigest {id p cut : Nat} {marked : Bool} {d : Digest} (hs : Canonical s) :
    Canonical (commitDigest id p cut marked d s) :=
  .modRun (.fadd (.keep hs))

theorem Canonical.commitDigests {r : Run} {cut : Nat} (hs : Canonical s) : Canonical (s.commitDigests r cut) :=
  .modRun (.forEach (fun _ _ hs => .ite (.modTile hs) hs) (.forEach (fun _ _ hs => .commitDigest hs) hs))

theorem Canonical.endRun {r : Run} (hs : Canonical s) : Canonical (s.endRun r) :=
  .finishRun (.keep (.forEach (fun _ _ hs => .ite (.tileFree (.traceEv hs)) (.setStartQ hs)) (.commitDigests hs)))

theorem Canonical.roleEnd {r : Run} {t : Nat} (hs : Canonical s) : Canonical (s.roleEnd r t) := by
  unfold State.roleEnd
  dsimp only
  split
  · exact .ite_then (.modRun (.tileFree (.traceEv hs))) .endRun
  · exact .modRun (.tileFree (.traceEv hs))

theorem Canonical.enqueue {r : Run} {t : Nat} (hs : Canonical s) : Canonical (s.enqueue r t) :=
  .ite (.setStartQ hs) (.setStartQ hs)

theorem Canonical.addRun {r : Run} (hs : Canonical s) : Canonical (s.addRun r) :=
  .forEach (fun _ _ hs => .enqueue hs) (.keep hs)

theorem Canonical.alarmStart {k p : Nat} (hs : Canonical s) : Canonical (s.alarmStart k p) :=
  .ite hs (.ite (.addRun hs) (.forEach (fun _ _ hs => .count (.fset (.fadd hs))) hs))

theorem Canonical.copyRole {r : Run} {g : Prog} {t len : Nat} (hs : Canonical s) :
    Canonical (s.copyRole r g t len).2 :=
  .ite_snd hs (.ite_snd (.hbmRead hs) (.ite_snd (.hbmRead hs) (.hbmRead hs)))

theorem Canonical.feedStart {t : Nat} (hs : Canonical s) : Canonical (s.feedStart t) :=
  .forEach (fun _ _ hs => .keep hs) hs

theorem Canonical.startRole {r : Run} {t : Nat} (hs : Canonical s) : Canonical (s.startRole r t) :=
  .traceEv (.ite_then (.modRun (.fset (.rset (.setState (.setStartQ (.setTile (.feedStart hs))))))) .count)

theorem Canonical.startHead {t : Nat} (hs : Canonical s) : Canonical (s.startHead t) := by
  unfold State.startHead
  split
  · exact hs
  · split
    · exact .runStop hs
    · exact .ite (.runStop hs) (.ite (.startRole hs) (.ite hs (.ite (.runStop (.copyRole hs)) (.startRole (.copyRole
        hs)))))

theorem CanonicalNext.execRunStart {t : Fin 16} (hs : Canonical s) : CanonicalNext (execRunStart t s) :=
  .next (.gated hs (.ite hs (.startHead hs)))

theorem Canonical.loadImage {d : BufDesc} {pin : Nat} {c : Cmd} (hs : Canonical s) :
    Canonical (loadImage d pin c s) := by
  unfold State.loadImage
  refine .ite hs (.ite (.finish (.bufRead hs)) ?_)
  split
  · exact .finish (.bufRead hs)
  · exact .ite (.finish (.bufRead hs)) (.ite (.finish (.bufRead hs)) (.finish (.keep (.bufRead hs))))

theorem Canonical.loadGo {c : Cmd} (hs : Canonical s) : Canonical (loadGo c s) := by
  unfold State.loadGo
  split
  · exact .loadImage hs
  · exact hs

theorem CanonicalNext.execProgLoad {r : Fin 128} {tag : Fin 512} (hs : Canonical s) :
    CanonicalNext (execProgLoad r tag s) :=
  .next (.gated hs (.begin hs (fun _ _ hs => .loadGo hs) (fun _ _ hs => .loadGo hs)))

theorem Canonical.queueRun {c : Cmd} (hs : Canonical s) : Canonical (queueRun c s) := by
  unfold State.queueRun
  split
  · exact .ite hs (.addRun hs)
  · exact hs

theorem CanonicalNext.execProgRun {r : Fin 128} {tag : Fin 512} (hs : Canonical s) :
    CanonicalNext (execProgRun r tag s) :=
  .next (.begin hs (fun _ _ hs => .queueRun hs) (fun _ _ hs => .queueRun hs))

theorem CanonicalNext.execProgUnload {r : Fin 128} {tag : Fin 512} (hs : Canonical s) :
    CanonicalNext (execProgUnload r tag s) := by
  refine .next (.begin hs (fun _ _ hs => ?_) (fun _ _ hs => hs))
  split
  · exact .finish (.keep hs)
  · exact hs

/-! The operations and commands of Machine/Sequencer -/

theorem Canonical.waitTag {t part deck region slot : Nat} {want : Bool} (hs : Canonical s) :
    Canonical (s.waitTag t part deck region slot want) :=
  .traceEv (.setState (.modTile hs))

theorem Canonical.waitSem {t part n : Nat} (hs : Canonical s) : Canonical (s.waitSem t part n) :=
  .traceEv (.setState hs)

theorem Canonical.holdDigest {x : Issue} {bits : Nat} {out : List Nat} (hs : Canonical s) :
    Canonical (s.holdDigest x bits out) :=
  .traceEv (.count (.ite hs (.modTile hs)))

theorem Canonical.retireSpan {r : Run} {t : Nat} (hs : Canonical s) : Canonical (s.retireSpan r t) :=
  .modTile (.fadd (.traceEv (.count (.forEach (fun _ _ hs => .setFull hs) hs))))

theorem CanonicalDid.tileSignal {x : Issue} {n k : Nat} (hs : Canonical s) : CanonicalDid (s.tileSignal x n k) :=
  .ite (.stop hs) (.ite (.stop hs) (.ok (.semAdd hs)))

theorem Canonical.retire {x : Issue} {bits : Nat} {out : List Nat} (hs : Canonical s) :
    Canonical (s.retire x bits out) := by
  unfold State.retire
  extract_lets t n s1 s2 s3 ds y cut
  have h3 : Canonical s3 := .ite_then (.ite_then (.count hs) fun h => .modRun (.count h)) .holdDigest
  split
  extract_lets s4 s5
  have h5 : Canonical s5 := .fset (.setTile h3)
  exact .ite (.roleEnd (.retireSpan h5)) (.ite (.ite (.modTile h5) (.retireSpan h5)) h5)

theorem Canonical.rememberTake {t n k : Nat} (hs : Canonical s) : Canonical (s.rememberTake t n k) := .modTile hs

theorem Canonical.issueWait {x : Issue} (hs : Canonical s) : Canonical (s.issueWait x) := by
  have h : Canonical (s.semRequest (iWsem x.i) { who := .tile x.t, n := 1 }).2 := .semRequest hs
  unfold State.issueWait
  refine .ite (.runStop hs) (.ite (.runStop hs) ?_)
  split
  next heq => exact .modTile (.rememberTake (.of_snd heq h))
  next heq => exact .waitSem (.of_snd heq h)

theorem Canonical.issueDo {x : Issue} {f : Issue → State → Did} (hs : Canonical s)
    (hf : ∀ a s, Canonical s → CanonicalDid (f a s)) :
    Canonical (s.issueDo x f) := by
  have h := hf x s hs
  unfold State.issueDo
  split
  next heq => exact .of_did heq h
  next heq => exact .runStop (.of_did heq h)
  next s1 _ _ heq =>
    have h1 : Canonical s1 := .of_did heq h
    refine .ite ?_ (.retire h1)
    have h2 : CanonicalDid (s1.tileSignal x (iSsem x.i) 1) := .tileSignal h1
    split
    next heq => exact .retire (.of_did heq h2)
    next heq => exact .of_did heq h2
    next heq => exact .runStop (.of_did heq h2)

theorem Canonical.enterTail {x : Issue} (hs : Canonical s) : Canonical (s.enterTail x) := .ite (.modTile hs) hs

theorem Canonical.issue {t op : Nat} {f : Issue → State → Did} (hs : Canonical s)
    (hf : ∀ a s, Canonical s → CanonicalDid (f a s)) :
    Canonical (s.issue t op f) := by
  unfold State.issue
  split
  · exact hs
  · refine .ite hs (.ite (.modTile hs) ?_)
    dsimp only
    split
    · exact .ite (.issueWait hs) hs
    · refine .ite (.ite (.issueWait hs) hs) ?_
      split
      · exact .waitTag (.ite (.issueWait hs) hs)
      · exact .issueDo (.enterTail (.ite (.issueWait hs) hs)) hf

theorem Canonical.issueMove {c : Instr} {t op : Nat} {f : Issue → State → Did} (hs : Canonical s)
    (hf : ∀ a s, Canonical s → CanonicalDid (f a s)) :
    Canonical (s.issueMove c t op f) :=
  .gated hs (.issue hs hf)

theorem Canonical.passCut {r : Run} {im : Image} {cut t k : Nat} (hs : Canonical s) :
    Canonical (passCut r im cut t k s) :=
  .ite hs (.ite_then (.traceEv hs) (fun h => .ite_then (.modTile h) .retireSpan))

theorem Canonical.cutDigests {r : Run} {cut : Nat} (hs : Canonical s) : Canonical (s.cutDigests r cut) :=
  .ite (.modRun (.commitDigests hs)) (.forEach (fun _ _ hs => .ite (.modTile hs) hs) hs)

theorem Canonical.releaseCut {r : Run} {im : Image} (hs : Canonical s) : Canonical (s.releaseCut r im) :=
  .forEach (fun _ _ hs => .passCut hs) (.modRun (.cutDigests hs))

theorem CanonicalNext.execCutBarrierRelease {run : Nat} (hs : Canonical s) :
    CanonicalNext (execCutBarrierRelease run s) := by
  refine .next ?_
  split
  · split
    · exact .ite (.releaseCut hs) hs
    · exact hs
  · exact hs

theorem Canonical.dmaResume {r t : Nat} (hs : Canonical s) : Canonical (s.dmaResume r t) := by
  refine .withCmd hs (fun _ _ hs => ?_)
  split
  · exact .copyMore hs
  · exact hs

theorem CanonicalNext.execTagWaitResume {w : TagWaiter} (hs : Canonical s) :
    CanonicalNext (execTagWaitResume w s) := by
  refine .next ?_
  split
  · exact .ite (.setState (.modTile hs)) hs
  · exact .ite (.setStay hs) hs
  · exact .gated hs (.dmaResume hs)

/-! The operations and commands of Machine/Flags -/

theorem Canonical.warnRun {id : Nat} (hs : Canonical s) : Canonical (s.warnRun id) := .modRun hs

theorem Canonical.warnNan {x : Issue} (hs : Canonical s) : Canonical (s.warnNan x) := .warnRun (.fadd (.fset hs))

theorem Canonical.warnSurplus {x : Issue} (hs : Canonical s) : Canonical (s.warnSurplus x) := .warnRun (.fset hs)

theorem Canonical.warnSkip {x : Issue} (hs : Canonical s) : Canonical (s.warnSkip x) := .warnRun (.fadd (.fset hs))

theorem CanonicalDid.writeOut {x : Issue} {v : View} {cs : List (Nat × Bool)} (hs : Canonical s) :
    CanonicalDid (s.writeOut x v cs) :=
  .ok (.ite_then (.putElems hs) .warnNan)

theorem Canonical.writeUndef {v : View} (hs : Canonical s) : Canonical (s.writeUndef v) :=
  .foldl (fun _ _ hs => .putElem (.draw hs)) hs

/-! The operations and commands of Machine/TileMem -/

theorem CanonicalDid.waitPath {x : Issue} (hs : Canonical s) : CanonicalDid (s.waitPath x) := .wait (.modTile hs)

theorem Canonical.landFill {t : Nat} {o : Opd} (hs : Canonical s) : Canonical (s.landFill t o) :=
  .ite (.modTile (.setFulls hs)) hs

theorem CanonicalDid.doFill {x : Issue} (hs : Canonical s) : CanonicalDid (doFill x s) :=
  .ite (.stop hs) (.ite (.waitPath hs) (.ite (.stop (.hbmRead hs)) (.ok (.landFill (.charge (.deckPut (.hbmRead
    hs)))))))

theorem CanonicalDid.doDrain {x : Issue} (hs : Canonical s) : CanonicalDid (doDrain x s) :=
  .ite (.stop hs) (.ite (.waitPath hs) (.ite (.stop (.hbmWrite hs)) (.ok (.hbmWrite hs))))

theorem CanonicalDid.doXfer {x : Issue} (hs : Canonical s) : CanonicalDid (doXfer x s) :=
  .ite (.stop hs) (.ite (.wait (.waitTag (.modTile (.ite_then (.charge (.deckPut hs)) .setFulls)))) (.ok (.modTile
    (.ite_then (.charge (.deckPut hs)) .setFulls))))

theorem CanonicalDid.doScaleLoad {x : Issue} (hs : Canonical s) : CanonicalDid (doScaleLoad x s) :=
  .ite (.stop hs) (.ok (.foldl (fun _ _ hs => .keep hs) hs))

theorem Canonical.addView {v : View} {cs : List Nat} (hs : Canonical s) : Canonical (s.addView v cs) := .putElems hs

theorem Canonical.traceXt {t src part slot n : Nat} (hs : Canonical s) : Canonical (s.traceXt t src part slot n) :=
  .forEach (fun _ _ hs => .traceEv hs) hs

theorem CanonicalDid.reduceDeck {x : Issue} {t : Nat} (hs : Canonical s) : CanonicalDid (reduceDeck x t s) :=
  .ite (.stop hs) (.ite (.wait (.waitTag hs)) (.ok (.traceXt (.ite_then (.charge (.addView hs)) .setFulls))))

theorem CanonicalDid.reduceHbm {x : Issue} {a : Nat} (hs : Canonical s) : CanonicalDid (reduceHbm x a s) :=
  .ite (.stop hs) (.ite (.ite (.stop (.hbmRead hs)) (.ite (.stop (.hbmWrite (.hbmRead hs))) (.ok (.hbmWrite (.hbmRead hs)))))
    (have h := remotely_induction (P := fun x : Nat × State => Canonical x.2) (Canonical.nextSeq hs) (fun _ _ hs => hs)
      (fun _ hs => .remoteWrite hs)
    .ite (.waitPath hs) (.ite (.stop h) (.ok h))))

theorem Canonical.sendDeck {x : Issue} {nd t fmt n slot : Nat} {bs : List Byte} (hs : Canonical s) :
    Canonical (sendDeck x nd t fmt n slot bs s).2 := by
  induction n generalizing slot bs s with
  | zero => exact hs
  | succ n ih =>
    have h (m : PoolMsg) : Canonical (s.nextSeq.2.remotely x.r.part (runRt x.r) nd Prod.mk
        (fun s => s.remoteWrite x.r.part nd (bs.take 256).length m)).2 :=
      remotely_induction (P := fun y : Nat × State => Canonical y.2) (.nextSeq hs) (fun _ _ hs => hs) (fun _ hs => .remoteWrite hs)
    unfold State.sendDeck
    dsimp only
    split
    next heq => exact ih (.of_snd heq (h _))
    next heq => exact .of_snd heq (h _)

theorem CanonicalDid.reduceAway {x : Issue} {a : Nat} (hs : Canonical s) : CanonicalDid (reduceAway x a s) :=
  .ite (.stop hs) (.ite (.waitPath hs) (.ite (.stop (.sendDeck hs)) (.ok (.sendDeck hs))))

theorem CanonicalDid.doReduce {x : Issue} (hs : Canonical s) : CanonicalDid (doReduce x s) := by
  unfold State.doReduce
  dsimp only
  split
  · exact .reduceDeck hs
  · exact .reduceDeck hs
  · exact .reduceHbm hs
  · exact .reduceAway hs

theorem CanonicalNext.execFill {t : Fin 16} (hs : Canonical s) : CanonicalNext (execFill t s) :=
  .next (.issueMove hs (fun _ _ hs => .doFill hs))

theorem CanonicalNext.execDrain {t : Fin 16} (hs : Canonical s) : CanonicalNext (execDrain t s) :=
  .next (.issueMove hs (fun _ _ hs => .doDrain hs))

theorem CanonicalNext.execXfer {t : Fin 16} (hs : Canonical s) : CanonicalNext (execXfer t s) :=
  .next (.issueMove hs (fun _ _ hs => .doXfer hs))

theorem CanonicalNext.execScaleLoad {t : Fin 16} (hs : Canonical s) : CanonicalNext (execScaleLoad t s) :=
  .next (.issue hs (fun _ _ hs => .doScaleLoad hs))

theorem CanonicalNext.execReduceXt {t : Fin 16} (hs : Canonical s) : CanonicalNext (execReduceXt t s) :=
  .next (.issueMove hs (fun _ _ hs => .doReduce hs))

theorem CanonicalNext.execAtomicAdd {t : Fin 16} (hs : Canonical s) : CanonicalNext (execAtomicAdd t s) :=
  .next (.issueMove hs (fun _ _ hs => .doReduce hs))

/-! The operations and commands of Machine/Attention -/

theorem CanonicalDid.tableFails {x : Issue} (hs : Canonical s) : CanonicalDid (s.tableFails x) :=
  .ite (.ok (.putElems (.modRun hs))) (.stop hs)

theorem Canonical.fetchPages {x : Issue} {base size j : Nat} {as : List Nat} (hs : Canonical s) :
    Canonical (fetchPages x base size j as s).2 := by
  induction as generalizing j s with
  | nil => exact hs
  | cons a as ih => exact .ite_snd (.hbmRead hs) (ih (.charge (.deckPut (.hbmRead hs))))

theorem CanonicalDid.doRetrieve {x : Issue} (hs : Canonical s) : CanonicalDid (doRetrieve x s) := by
  unfold State.doRetrieve
  refine .ite (.stop hs) (.ite (.tableFails hs) ?_)
  dsimp only
  split
  · exact .stop hs
  · exact .ite (.waitPath hs) (.ite (.stop (.fetchPages hs)) (.ok (.deckPut (.fetchPages hs))))

theorem CanonicalDid.doAttn {x : Issue} (hs : Canonical s) : CanonicalDid (doAttn x s) :=
  .ite (.stop hs) (.ite (.tableFails hs) (.writeOut (.ite (.warnRun hs) hs)))

theorem CanonicalNext.execKvRetrieve {t : Fin 16} (hs : Canonical s) : CanonicalNext (execKvRetrieve t s) :=
  .next (.issueMove hs (fun _ _ hs => .doRetrieve hs))

theorem CanonicalNext.execAttn {t : Fin 16} (hs : Canonical s) : CanonicalNext (execAttn t s) :=
  .next (.issue hs (fun _ _ hs => .doAttn hs))

/-! The operations and commands of Machine/Caisson -/

theorem Canonical.vaultWrite {a : Nat} {bs : List Byte} (hs : Canonical s) : Canonical (s.vaultWrite a bs) :=
  .writeVault hs

theorem Canonical.vaultClear {a n : Nat} (hs : Canonical s) : Canonical (s.vaultClear a n) := .clearVault hs

theorem Canonical.limbWrite {a n : Nat} {v : Option (List Nat)} (hs : Canonical s) :
    Canonical (s.limbWrite a n v) := by
  unfold State.limbWrite
  split
  · exact .vaultWrite hs
  · exact .vaultWrite (.freeBytes hs)

theorem Canonical.pipeTo {n : Nat} (hs : Canonical s) : Canonical (s.pipeTo n) :=
  .ite_else (.fset (.fset hs)) (fun h => .count (.traceEv (.fadd h)))

theorem Canonical.ctxShow {c : Nat} (hs : Canonical s) : Canonical (ctxShow c s) := by
  unfold State.ctxShow
  refine .ite hs ?_
  dsimp only
  split
  · exact .fset (.fset (.fset (.fset hs)))
  · exact .fset (.fset (.fset (.fset hs)))

theorem Canonical.ctxSettle (hs : Canonical s) : Canonical s.ctxSettle := by
  refine .forEach (fun _ _ hs => .ctxShow hs) ?_
  refine .ite ?_ ?_
  · split
    · exact .fset (.fset hs)
    · exact hs
  · refine .ite hs ?_
    split
    · exact .pipeTo hs
    · exact .fset hs

theorem Canonical.setJobs {c : Nat} {js : List CsJob} (hs : Canonical s) : Canonical (s.setJobs c js) := .setCtx hs

theorem Canonical.ctxFree {c : Nat} (hs : Canonical s) : Canonical (s.ctxFree c) := .setCtx (.rreset hs)

theorem Canonical.jobEnd {c status : Nat} (hs : Canonical s) : Canonical (s.jobEnd c status) := by
  unfold State.jobEnd
  split
  · exact hs
  · exact .ctxSettle (.finish (.setJobs hs))

theorem Canonical.jobSpoil {c : Nat} {p : CsParams} (hs : Canonical s) : Canonical (s.jobSpoil c p) :=
  .ite (.undefBuf hs) (.writeVault (.freeBytes hs))

theorem Canonical.jobsDrop {f : Nat → Nat → Bool} (hs : Canonical s) : Canonical (s.jobsDrop f) := by
  refine .ctxSettle (.forEach (fun _ _ hs => .setJobs ?_) hs)
  split
  · exact .ite (.jobSpoil hs) hs
  · exact hs

theorem Canonical.vaultFail {c a : Nat} (hs : Canonical s) : Canonical (s.vaultFail c a) := by
  unfold State.vaultFail
  split
  · exact hs
  · exact .jobEnd (.jobSpoil (.fault hs))

theorem Canonical.csBegin {r t : Nat} {want : TCmd → Bool} {check : State → Cmd → Nat} {effect : Cmd → State → State}
    {again : Cmd → State → State} (hs : Canonical s) (heffect : ∀ a s, Canonical s → Canonical (effect a s))
    (hagain : ∀ a s, Canonical s → Canonical (again a s)) :
    Canonical (s.csBegin r t want check effect again) :=
  .ite hs (.begin hs heffect hagain)

theorem Canonical.csCtxOpenGo {c : Cmd} (hs : Canonical s) : Canonical (csCtxOpenGo c s) := by
  unfold State.csCtxOpenGo
  split
  · split
    · exact .count (.finish hs)
    · refine .ite (.finish (.bufRead hs)) ?_
      split
      · exact .finish (.bufRead hs)
      · exact .ite (.finish (.fset (.fset (.fset (.fset (.setCtx (.rreset (.bufRead hs)))))))) (.finish (.bufRead hs))
  · exact hs

theorem Canonical.csCtxCloseGo {c : Cmd} (hs : Canonical s) : Canonical (csCtxCloseGo c s) := by
  unfold State.csCtxCloseGo
  split
  · exact .finish (.ctxFree hs)
  · exact hs

theorem Canonical.csTransfer {ring tag : Nat} (hs : Canonical s) : Canonical (s.csTransfer ring tag) := by
  unfold State.csTransfer
  split
  · exact hs
  · split
    · split
      · refine .ite hs (.ite (.ite (.jobEnd (.hbmRead hs)) (.jobEnd (.vaultWrite (.hbmRead hs)))) ?_)
        dsimp only
        split
        · exact .vaultFail hs
        · exact .jobEnd (.hbmWrite hs)
      · exact hs
    · exact hs

theorem Canonical.csQueue {c : Cmd} (hs : Canonical s) : Canonical (csQueue c s) := by
  unfold State.csQueue
  split
  · exact .csTransfer (.ctxSettle (.setJobs hs))
  · exact hs

theorem Canonical.csRow {op r t : Nat} (hs : Canonical s) : Canonical (s.csRow op r t) :=
  .csBegin hs (fun _ _ hs => .csQueue hs) (fun _ _ hs => .csTransfer hs)

theorem Canonical.limbStep {c : Nat} (hs : Canonical s) : Canonical (s.limbStep c) := by
  unfold State.limbStep
  split
  · exact hs
  · dsimp only
    split
    · exact .vaultFail hs
    · exact .ite (.finish (.setJobs (.ite (.count (.limbWrite hs)) (.limbWrite hs)))) (.setJobs (.ite (.count
        (.limbWrite hs)) (.limbWrite hs)))

theorem Canonical.shareWrite {p : Nat} {w : W64} (hs : Canonical s) : Canonical (s.shareWrite p w) :=
  .ite (.accessFault hs) (.ite (.accessFault hs) (.fset (.fset (.ite hs (.vaultClear (.vaultClear hs))))))

theorem CanonicalNext.execCsCtxOpen {r : Fin 128} {tag : Fin 512} (hs : Canonical s) :
    CanonicalNext (execCsCtxOpen r tag s) :=
  .next (.gated hs (.csBegin hs (fun _ _ hs => .csCtxOpenGo hs) (fun _ _ hs => hs)))

theorem CanonicalNext.execCsCtxClose {r : Fin 128} {tag : Fin 512} (hs : Canonical s) :
    CanonicalNext (execCsCtxClose r tag s) :=
  .next (.csBegin hs (fun _ _ hs => .csCtxCloseGo hs) (fun _ _ hs => hs))

theorem CanonicalNext.execCsLoad {r : Fin 128} {tag : Fin 512} (hs : Canonical s) :
    CanonicalNext (execCsLoad r tag s) :=
  .next (.gated hs (.csRow hs))

theorem CanonicalNext.execCsStore {r : Fin 128} {tag : Fin 512} (hs : Canonical s) :
    CanonicalNext (execCsStore r tag s) :=
  .next (.gated hs (.csRow hs))

theorem CanonicalNext.execCsNtt {r : Fin 128} {tag : Fin 512} (hs : Canonical s) :
    CanonicalNext (execCsNtt r tag s) :=
  .next (.csRow hs)

theorem CanonicalNext.execCsIntt {r : Fin 128} {tag : Fin 512} (hs : Canonical s) :
    CanonicalNext (execCsIntt r tag s) :=
  .next (.csRow hs)

theorem CanonicalNext.execCsAdd {r : Fin 128} {tag : Fin 512} (hs : Canonical s) :
    CanonicalNext (execCsAdd r tag s) :=
  .next (.csRow hs)

theorem CanonicalNext.execCsSub {r : Fin 128} {tag : Fin 512} (hs : Canonical s) :
    CanonicalNext (execCsSub r tag s) :=
  .next (.csRow hs)

theorem CanonicalNext.execCsMul {r : Fin 128} {tag : Fin 512} (hs : Canonical s) :
    CanonicalNext (execCsMul r tag s) :=
  .next (.csRow hs)

theorem CanonicalNext.execCsMac {r : Fin 128} {tag : Fin 512} (hs : Canonical s) :
    CanonicalNext (execCsMac r tag s) :=
  .next (.csRow hs)

theorem CanonicalNext.execCsMulc {r : Fin 128} {tag : Fin 512} (hs : Canonical s) :
    CanonicalNext (execCsMulc r tag s) :=
  .next (.csRow hs)

theorem CanonicalNext.execCsAuto {r : Fin 128} {tag : Fin 512} (hs : Canonical s) :
    CanonicalNext (execCsAuto r tag s) :=
  .next (.csRow hs)

theorem CanonicalNext.execCsBconv {r : Fin 128} {tag : Fin 512} (hs : Canonical s) :
    CanonicalNext (execCsBconv r tag s) :=
  .next (.csRow hs)

theorem CanonicalNext.execLimbStepEnd (hs : Canonical s) : CanonicalNext (execLimbStepEnd s) := by
  refine .next (.ite hs ?_)
  dsimp only
  split
  · exact .ctxSettle (.pipeTo (.limbStep hs))
  · exact .ctxSettle (.limbStep hs)

theorem CanonicalNext.execVaultShareWrite {p : Fin 8} {v : W32} (hs : Canonical s) :
    CanonicalNext (execVaultShareWrite p v s) :=
  .next (.bar hs (.shareWrite hs))

theorem CanonicalNext.execVaultUncorrectable {ctx : Fin 4} {addr : BitVec 27} (hs : Canonical s) :
    CanonicalNext (execVaultUncorrectable ctx addr s) := by
  refine .next ?_
  dsimp only
  split
  · exact hs
  · exact .ite hs (.vaultFail (.keep hs))

/-! The operations and commands of Machine/Ingress -/

theorem Canonical.portError {n : Nat} (hs : Canonical s) : Canonical (s.portError n) := .fset (.fadd hs)

theorem Canonical.unmatched {n : Nat} (hs : Canonical s) : Canonical (s.unmatched n) := .fadd hs

theorem Canonical.dropUnit {n cause : Nat} (hs : Canonical s) : Canonical (s.dropUnit n cause) :=
  .traceEv (.ite_else (.count (.fadd (.setDesc hs))) .fset)

theorem Canonical.unitQuiet {n : Nat} (hs : Canonical s) : Canonical (s.unitQuiet n) := .count (.fadd hs)

theorem Canonical.unitTake {n : Nat} {u : UnitRec} {want : Nat} (hs : Canonical s) :
    Canonical (s.unitTake n u want) :=
  .ite (.dropUnit (.setDesc (.fset hs))) (.ite (.dropUnit (.setDesc (.fset hs))) (.setDesc (.setDesc (.fset hs))))

theorem Canonical.unitStart {n flags info want : Nat} {gate : Option Gating} (hs : Canonical s) :
    Canonical (s.unitStart n flags info want gate) :=
  .ite (.unitQuiet hs) (.unitTake hs)

theorem Canonical.dropOnce {n cause : Nat} {u : UnitRec} (hs : Canonical s) : Canonical (s.dropOnce n cause u) :=
  .ite hs (.dropUnit hs)

theorem Canonical.grain {n : Nat} {bs : List Byte} {line : Bool} (hs : Canonical s) :
    Canonical (s.grain n bs line) := by
  unfold State.grain
  dsimp only
  split
  · exact hs
  · exact .ite (.setDesc (.count (.fadd hs))) (.ite (.setDesc hs) (.ite (.setDesc hs) (.dropUnit (.setDesc hs))))

theorem Canonical.unitEnd {n : Nat} (hs : Canonical s) : Canonical (s.unitEnd n) := by
  unfold State.unitEnd
  dsimp only
  split
  · exact hs
  · exact .ite (.setDesc hs) (.setDesc hs)

theorem Canonical.unitCut {n : Nat} (hs : Canonical s) : Canonical (s.unitCut n) := by
  unfold State.unitCut
  split
  · exact hs
  · exact .unitEnd (.dropOnce (.setDesc hs))

theorem Canonical.unitWhole {n flags info : Nat} {bs : List Byte} (hs : Canonical s) :
    Canonical (s.unitWhole n flags info bs) :=
  .unitEnd (.grain (.unitStart hs))

/-- Stated before the bytes are given: with them the kernel would compute the address in unary. -/
theorem hubWrite_eq {p a : Nat} :
    s.hubWrite p a = fun bs => (s.hbmWrite p 0xFFFF (s.node * 2 ^ 36 + a % 2 ^ 36) bs).2 :=
  rfl
theorem Canonical.hubWrite {p a : Nat} {bs : List Byte} (hs : Canonical s) : Canonical (s.hubWrite p a bs) := by
  rw [hubWrite_eq]
  exact .hbmWrite hs

theorem Canonical.ringWrite {n a : Nat} {bs : List Byte} (hs : Canonical s) : Canonical (s.ringWrite n a bs) :=
  .ite_else (.hubWrite hs) .hubWrite

theorem Canonical.deckLand {n fuel a : Nat} {bs : List Byte} (hs : Canonical s) :
    Canonical (s.deckLand n fuel a bs).2 := by
  induction fuel generalizing a bs s with
  | zero => exact hs
  | succ fuel ih =>
    cases bs with
    | nil => exact hs
    | cons b bs => exact .ite_snd hs (ih (.ite (.setFull (.deckWrite hs)) (.deckWrite hs)))

theorem Canonical.slotPut {n a : Nat} {bs : List Byte} (hs : Canonical s) : Canonical (s.slotPut n a bs).2 :=
  .feedOut (.charge (.deckLand hs))

theorem Canonical.landBytes {n a len : Nat} {bs : List Byte} (hs : Canonical s) :
    Canonical (s.landBytes n a len bs).2 :=
  .ite_snd (.slotPut hs) (.ringWrite hs)

theorem Canonical.landUnit {n a : Nat} {u : UnitRec} (hs : Canonical s) : Canonical (s.landUnit n a u).2 :=
  .ite_snd (.setDesc (.landBytes hs)) (.dropOnce (.setDesc (.landBytes hs)))

theorem Canonical.recordPost {n : Nat} {u : UnitRec} {ofs len : Nat} (hs : Canonical s) :
    Canonical (s.recordPost n u ofs len) :=
  .fadd (.setDesc (.hubWrite hs))

theorem Canonical.recordSem {n : Nat} (hs : Canonical s) : Canonical (s.recordSem n) := .ite (.signalFree hs) hs

theorem Canonical.padWrite {n a pad : Nat} (hs : Canonical s) : Canonical (s.padWrite n a pad) :=
  .ite hs (.ite (.slotPut hs) (.ringWrite hs))

theorem Canonical.unitDone {n a : Nat} {u : UnitRec} (hs : Canonical s) : Canonical (s.unitDone n a u) :=
  .ite (.dropOnce hs) (.traceEv (.recordSem (.count (.fadd (.fset (.recordPost (.padWrite hs)))))))

theorem Canonical.windowPost {n : Nat} {u : UnitRec} (hs : Canonical s) : Canonical (s.windowPost n u) :=
  .ite (.dropUnit hs) (.recordSem (.recordPost (.setDesc hs)))

theorem Canonical.landNext {n : Nat} (hs : Canonical s) : Canonical (s.landNext n) := by
  unfold State.landNext
  dsimp only
  split
  · exact .setDesc (.landUnit hs)
  · exact .setDesc (.landUnit hs)
  · exact hs

theorem Canonical.land {n : Nat} (hs : Canonical s) : Canonical (s.land n) := by
  unfold State.land
  dsimp only
  split
  · exact .ite (.windowPost (.setDesc (.landNext hs))) (.unitDone (.setDesc (.landUnit hs)))
  · exact .setDesc (.landUnit hs)
  · exact hs

theorem Canonical.windowVoid {n : Nat} {k : Nat × Nat} (hs : Canonical s) : Canonical (s.windowVoid n k) :=
  .ite_else (.setDesc hs) (fun h => .count (.fadd h))

theorem Canonical.windowRecord {w : Nat} {start stop len : W32} {inv sub inc : Bool} (hs : Canonical s) :
    Canonical (s.windowRecord w start stop len inv sub inc) :=
  .ite hs (.setDesc (.ite (.windowVoid hs) hs))

theorem Canonical.windowDone {w : Nat} {byStart again : Bool} (hs : Canonical s) :
    Canonical (s.windowDone w byStart again) := by
  unfold State.windowDone
  extract_lets v inc
  split
  split
  extract_lets d sub inv len s1 s2 s3 s4 s5
  have h3 : Canonical s3 := .fadd (.fset (.fset (.fset (.windowRecord hs))))
  have h5 : Canonical s5 := .fset (.fset (.fset (.fset h3)))
  exact .ite (.setWin h5) (.setWin (.fset h5))

theorem Canonical.windowOne {src w : Nat} (hs : Canonical s) : Canonical (windowOne src w s) := by
  unfold State.windowOne
  refine .ite hs ?_
  generalize (if s.flag F.BR_WIN_CFG_DOMAIN w then s.phaseOf (s.fget F.BR_WIN_CFG_CHANNEL w) else some s.now) = stamp
  cases stamp with
  | none => exact .windowDone hs
  | some x => exact .ite (.windowDone (.setWin hs)) (.setWin hs)

theorem Canonical.windowEvent {src : Nat} (hs : Canonical s) : Canonical (s.windowEvent src) :=
  .forEach (fun _ _ hs => .windowOne hs) hs

theorem Canonical.windowDisarm {w : Nat} (hs : Canonical s) : Canonical (s.windowDisarm w) :=
  .ite hs (.ite (.windowDone hs) (.setWin (.fset hs)))

theorem Canonical.windowClose {w : Nat} (hs : Canonical s) : Canonical (s.windowClose w) := .ite (.windowDone hs) hs

theorem Canonical.windowsLost {c : Nat} (hs : Canonical s) : Canonical (s.windowsLost c) :=
  .forEach (fun _ _ hs => .windowDone hs) hs

theorem Canonical.windowArm {w : Nat} (hs : Canonical s) : Canonical (s.windowArm w) :=
  .ite hs (.ite (.fset hs) (.setWin (.fset hs)))

theorem Canonical.descArmed {n : Nat} (hs : Canonical s) : Canonical (s.descArmed n) := .setDesc (.fset hs)

theorem Canonical.descArmBit {n : Nat} (hs : Canonical s) : Canonical (s.descArmBit n) :=
  .ite hs (.ite (.fset hs) (.descArmed hs))

theorem Canonical.disarmOne {n : Nat} {u : UnitRec} (hs : Canonical s) : Canonical (disarmOne n u s) :=
  .ite (.windowPost hs) (.ite hs (.unitDone (.dropOnce hs)))

theorem Canonical.hubClear {n : Nat} (hs : Canonical s) : Canonical (s.hubClear n) := .setDesc hs

theorem Canonical.descDisarm {n : Nat} (hs : Canonical s) : Canonical (s.descDisarm n) :=
  .ite hs (.fset (.forEach (fun _ _ hs => .disarmOne hs) (.hubClear hs)))

theorem Canonical.descQuiet {n : Nat} (hs : Canonical s) : Canonical (s.descQuiet n) :=
  .fset (.forEach (fun _ _ hs => .disarmOne hs) (.hubClear hs))

theorem Canonical.serialStart {src : Nat} (hs : Canonical s) : Canonical (s.serialStart src) := by
  unfold State.serialStart
  dsimp only
  split
  · exact hs
  · exact .ite hs (.forEach (fun _ _ hs => .unitStart hs) (.setPort hs))

theorem Canonical.ask {src n : Nat} {latched : Bool} (hs : Canonical s) : Canonical (s.ask src n latched) :=
  .ite (.setDesc hs) (.ite (.setPort hs) (.setPort hs))

theorem Canonical.pollAsk {src : Nat} (hs : Canonical s) : Canonical (s.pollAsk src) := .setPort hs

theorem Canonical.sampleAt {n : Nat} {latched : Bool} (hs : Canonical s) : Canonical (s.sampleAt n latched) :=
  .ite (.ite (.setDesc hs) hs) (.setDesc (.unitWhole hs))

theorem Canonical.sampleAsk {n : Nat} {latched : Bool} (hs : Canonical s) : Canonical (s.sampleAsk n latched) :=
  .ite hs (.ite (.ask hs) (.sampleAt hs))

theorem Canonical.ssiStarts (hs : Canonical s) : Canonical s.ssiStarts :=
  .forEach (fun _ _ hs => .serialStart hs) hs

theorem Canonical.naturalSample {src : Nat} (hs : Canonical s) : Canonical (s.naturalSample src) := by
  unfold State.naturalSample
  refine .ite hs ?_
  split
  · exact .unmatched hs
  · exact .setPort (.forEach (fun _ _ hs => .sampleAt hs) hs)

theorem Canonical.captureLatch {n : Nat} (hs : Canonical s) : Canonical (s.captureLatch n) := .ite hs (.sampleAsk hs)

theorem Canonical.serialEnd {src : Nat} {bs : List Byte} (hs : Canonical s) : Canonical (s.serialEnd src bs) :=
  .forEach (fun _ _ hs => .unitEnd (.grain hs)) (.setPort hs)

theorem Canonical.portHeld {src : Nat} (hs : Canonical s) : Canonical (s.portHeld src) :=
  .forEach (fun _ _ hs => .setDesc (.unitCut hs)) (.setPort hs)

theorem Canonical.netFrame {src : Nat} {bs : List Byte} (hs : Canonical s) : Canonical (s.netFrame src bs) := by
  unfold State.netFrame
  dsimp only
  split
  · exact .unmatched hs
  · exact .unitWhole hs

theorem Canonical.qci {port : Nat} {bs : List Byte} (hs : Canonical s) : Canonical (s.qci port bs).2 := by
  unfold State.qci
  dsimp only
  split
  · exact hs
  · exact .ite_snd hs (.ite_snd hs (.ite_snd (.ite_snd (.keep hs) hs) hs))

theorem Canonical.meterRefill (hs : Canonical s) : Canonical s.meterRefill := .keep hs

theorem Canonical.csiFrameStart {port vc : Nat} (hs : Canonical s) : Canonical (s.csiFrameStart port vc) :=
  .forEach (fun _ _ hs => .ite_else (.unitCut hs) (fun h => .setDesc (.fset h))) (.setPort hs)

theorem Canonical.csiUnit {n : Nat} (hs : Canonical s) : Canonical (s.csiUnit n) := by
  unfold State.csiUnit
  split
  · exact .ite (.unitQuiet hs) (.unitTake (.setDesc hs))
  · exact .unitQuiet hs

theorem Canonical.csiLine {port vc dt : Nat} {data : List Byte} {crcOk : Bool} (hs : Canonical s) :
    Canonical (s.csiLine port vc dt data crcOk) := by
  unfold State.csiLine
  refine .ite (.unmatched hs) ?_
  dsimp only
  split
  · exact .ite_then (.ite (.setPort hs) hs) .unmatched
  · exact .grain (.ite_else (.ite_then (.ite (.setPort hs) hs) .csiUnit) .setDesc)

theorem CanonicalNext.execFrameEnd {port : Fin 8} {vc : Fin 16} (hs : Canonical s) :
    CanonicalNext (execFrameEnd port vc s) :=
  .next (.ite (.forEach (fun _ _ hs => .setDesc (.unitEnd hs)) hs) hs)

theorem CanonicalNext.execEthFrame {port : Fin 4} {data : List Byte} {fcsOk : Bool} (hs : Canonical s) :
    CanonicalNext (execEthFrame port data fcsOk s) := by
  refine .next (.ite hs (.ite (.portError hs) (.ite (.ite hs (.unmatched hs)) (.ite ?_ (.netFrame hs)))))
  have h : Canonical (s.qci port data).2 := .qci hs
  split
  next heq => exact .netFrame (.of_snd heq h)
  next heq => exact .portError (.of_snd heq h)

theorem CanonicalNext.execTapFrame {tap : Fin 2} {data : List Byte} {fcsOk : Bool} (hs : Canonical s) :
    CanonicalNext (execTapFrame tap data fcsOk s) :=
  .next (.ite hs (.ite (.portError hs) (.netFrame hs)))

theorem CanonicalNext.execPeriodicSample {n : Fin 128} (hs : Canonical s) : CanonicalNext (execPeriodicSample n s) :=
  .next (.ite (.ite_then (.sampleAsk hs) .serialStart) hs)

theorem CanonicalNext.execSpiTransactionStart {port : Fin 8} (hs : Canonical s) :
    CanonicalNext (execSpiTransactionStart port s) :=
  .next (.ite (.serialStart hs) hs)

theorem CanonicalNext.execSpiTransferEnd {port : Fin 8} {words : List W32} (hs : Canonical s) :
    CanonicalNext (execSpiTransferEnd port words s) :=
  .next (.ite (.serialEnd hs) hs)

theorem CanonicalNext.execLanding {n : Fin 128} (hs : Canonical s) : CanonicalNext (execLanding n s) :=
  .next (.gated hs (.land hs))

theorem CanonicalNext.execDArm {n : Fin 128} (hs : Canonical s) : CanonicalNext (execDArm n s) :=
  .next (.bar hs (.ite_else (.accessFault hs) (fun h => .ite h (.descArmBit hs))))

theorem CanonicalNext.execDDisarm {n : Fin 128} (hs : Canonical s) : CanonicalNext (execDDisarm n s) :=
  .next (.bar hs (.ite (.accessFault hs) (.descDisarm hs)))

theorem Canonical.descMark {c : Cmd} (hs : Canonical s) : Canonical (s.descMark c) := by
  unfold State.descMark
  split
  · exact .ite (.fset hs) hs
  · exact hs

theorem Canonical.descArmGo {c : Cmd} (hs : Canonical s) : Canonical (descArmGo c s) := by
  unfold State.descArmGo
  split
  · exact .finish (.descArmed (.rset (.rset (.rset (.rset hs)))))
  · exact hs

theorem CanonicalNext.execDescArm {r : Fin 128} {tag : Fin 512} (hs : Canonical s) :
    CanonicalNext (execDescArm r tag s) :=
  .next (.withCmd hs (fun _ _ hs => .enter (.ite (.descMark hs) hs) (fun _ hs => .descArmGo hs)))

theorem CanonicalNext.execDescDisarm {r : Fin 128} {tag : Fin 512} (hs : Canonical s) :
    CanonicalNext (execDescDisarm r tag s) := by
  refine .next (.begin hs (fun _ _ hs => ?_) (fun _ _ hs => hs))
  split
  · exact .ite (.finish hs) (.finish (.descDisarm hs))
  · exact hs

theorem CanonicalNext.execWinArm {w : Fin 32} (hs : Canonical s) : CanonicalNext (execWinArm w s) :=
  .next (.bar hs (.ite (.accessFault hs) (.windowArm hs)))

theorem CanonicalNext.execWinDisarm {w : Fin 32} (hs : Canonical s) : CanonicalNext (execWinDisarm w s) :=
  .next (.bar hs (.ite (.accessFault hs) (.windowDisarm hs)))

theorem CanonicalNext.execPortLinkChange {src : Fin 64} {up : Bool} (hs : Canonical s) :
    CanonicalNext (execPortLinkChange src up s) :=
  .next (.ite hs (.ite_then (.fset hs) .setPort))

/-! The operations and commands of Machine/Tick -/

theorem Canonical.tileCycles {n t : Nat} (hs : Canonical s) : Canonical (s.tileCycles n t) := by
  unfold State.tileCycles
  dsimp only
  split
  · exact .count hs
  · exact .count hs
  · exact .count hs
  · exact hs

theorem Canonical.pausedCycles {n : Nat} (hs : Canonical s) : Canonical (s.pausedCycles n) :=
  .ite (.forEach (fun _ _ hs => .count hs) hs) hs

theorem Canonical.cycleCounts {n : Nat} (hs : Canonical s) : Canonical (s.cycleCounts n) :=
  .ite (.pausedCycles (.forEach (fun _ _ hs => .tileCycles hs) (.count (.count (.count hs))))) hs

theorem Canonical.tick (hs : Canonical s) : Canonical s.tick :=
  .ite hs (.cycleCounts (.serveHeld (.meterRefill (.refill (.tollCycles (.keep hs))))))

/-! The operations and commands of Machine/Causeway -/

theorem Canonical.setLink {l st : Nat} (hs : Canonical s) : Canonical (s.setLink l st) := .traceEv (.fset hs)

theorem Canonical.linkFault {l cause action : Nat} (hs : Canonical s) : Canonical (s.linkFault l cause action) :=
  .fault hs

theorem Canonical.members {l : Nat} (hs : Canonical s) : Canonical (s.members l) :=
  .forEach (fun _ _ hs => .ite (.event hs) (.ite (.event hs) hs)) (.fset hs)

theorem Canonical.linkActive {l : Nat} (hs : Canonical s) : Canonical (s.linkActive l) :=
  .ite_then (.members (.fset (.setLink hs))) (fun h => .event (.keep h))

theorem Canonical.heldActive (hs : Canonical s) : Canonical s.heldActive :=
  .ite (.forEach (fun _ _ hs => .linkActive hs) hs) hs

theorem Canonical.linkFailed {l : Nat} (hs : Canonical s) : Canonical (s.linkFailed l) :=
  .ite_else (.linkFault (.fset hs)) (fun h => .recompute (.members (.event (.keep (.linkFault (.setLink h))))))

theorem Canonical.linkTrained {l node plink : Nat} {mask : W64} (hs : Canonical s) :
    Canonical (s.linkTrained l node plink mask) :=
  .ite (.event (.keep (.setLink (.fset (.fset hs))))) (.recompute (.ite_then (.fset (.setLink (.toPool (.keep (.fset
    (.fset hs)))))) .linkActive))

theorem Canonical.linkOff {l : Nat} (hs : Canonical s) : Canonical (s.linkOff l) :=
  .recompute (.members (.keep (.setLink hs)))

theorem Canonical.grantWrite {i : Nat} {v : W64} (hs : Canonical s) : Canonical (s.grantWrite i v) :=
  .ite (.accessFault hs) (.ite (.accessFault hs) (.ite (.fset (.rset hs)) (.rset hs)))

theorem Canonical.poisonServed {o n : Nat} (hs : Canonical s) : Canonical (s.poisonServed o n) := by
  unfold State.poisonServed
  split
  · exact .fault hs
  · exact hs

theorem Canonical.linkTook {l n : Nat} (hs : Canonical s) : Canonical (s.linkTook l n) := .count (.keep hs)

theorem Canonical.answer {nd l n : Nat} {m : PoolMsg} (hs : Canonical s) : Canonical (s.answer nd l n m) :=
  .toPool (.count (.fadd (.laneUse hs)))

theorem Canonical.serveRead {nd l o n : Nat} (hs : Canonical s) : Canonical (s.serveRead nd l o n) :=
  .ite (.answer (.linkTook hs)) (.ite (.answer (.poisonServed (.linkTook hs))) (.answer (.countBlocks (.charge
    (.linkTook hs)))))

theorem Canonical.serveWrite {nd l o : Nat} {bs : List Byte} (hs : Canonical s) :
    Canonical (s.serveWrite nd l o bs) :=
  .ite (.answer (.linkTook hs)) (.answer (.writeHbm (.countBlocks (.charge (.linkTook hs)))))

theorem Canonical.nowApplied {nd : Nat} {seq : W64} (hs : Canonical s) : Canonical (s.nowApplied nd seq) := .keep hs

theorem Canonical.serveAdd {nd l : Nat} {seq : W64} {fmt : Nat} {ring : Bool} {o : Nat} {bs : List Byte}
    (hs : Canonical s) :
    Canonical (s.serveAdd nd l seq fmt ring o bs) := have h : Canonical (s.linkTook l bs.length) := .linkTook hs
  .ite (.answer h) (.ite (.answer h) (.ite (.answer (.poisonServed h))
    (.answer (.writeHbm (.countBlocks (.countBlocks (.charge (.nowApplied h))))))))

theorem Canonical.serveDeck {nd l : Nat} {seq : W64} {fmt : Nat} {ring : Bool} {t slot : Nat} {bs : List Byte}
    (hs : Canonical s) :
    Canonical (s.serveDeck nd l seq fmt ring t slot bs) :=
  .ite (.answer (.linkTook hs)) (.ite (.answer (.linkTook hs)) (.ite hs (.answer (.traceEv (.draw (.charge (.ite_then
    (.deckWrite (.nowApplied (.linkTook hs))) (fun h => .feedOut (.setFull h)))))))))

theorem Canonical.forward {l dest n : Nat} {response : Bool} (hs : Canonical s) :
    Canonical (s.forward l dest n response) := by
  unfold State.forward
  split
  · exact hs
  · exact .toPool (.count (.fadd (.laneUse (.charge (.linkTook hs)))))

theorem Canonical.inbound {x : Inbound} (hs : Canonical s) : Canonical (s.inbound x) := by
  unfold State.inbound
  split
  · exact .ite (.serveRead hs) hs
  · exact .ite (.serveWrite hs) hs
  · exact .ite (.forward hs) hs
  · exact .ite (.serveAdd hs) hs
  · exact .ite (.serveDeck hs) hs

theorem Canonical.nodeWrite {w : W64} (hs : Canonical s) : Canonical (s.nodeWrite w) :=
  .ite (.accessFault hs) (.heldActive (.fset (.fset (.fset hs))))

theorem Canonical.linkRestore {l : Nat} (hs : Canonical s) : Canonical (s.linkRestore l) :=
  .ite hs (.keep (.setLink (.fset hs)))

theorem Canonical.linkDisable {l : Nat} (hs : Canonical s) : Canonical (s.linkDisable l) := .ite hs (.linkOff hs)

theorem Canonical.exportWrite {w : W64} (hs : Canonical s) : Canonical (s.exportWrite w) :=
  .ite (.accessFault hs) (.rset hs)

theorem CanonicalNext.execSignalDetect {l : Fin 8} (hs : Canonical s) : CanonicalNext (execSignalDetect l s) :=
  .next (.ite (.setLink hs) hs)

theorem CanonicalNext.execTrainingEnd {l : Fin 8} {res : TrainResult} (hs : Canonical s) :
    CanonicalNext (execTrainingEnd l res s) := by
  refine .next (.ite hs ?_)
  split
  · exact .linkTrained hs
  · exact .linkFailed hs

theorem Canonical.linkLost {l : Nat} (hs : Canonical s) : Canonical (s.linkLost l) :=
  .linkFault (.count (.fadd (.setLink (.keep hs))))

theorem CanonicalNext.execLinkAlignmentLoss {l : Fin 8} (hs : Canonical s) :
    CanonicalNext (execLinkAlignmentLoss l s) :=
  .next (.ite hs (.linkLost hs))

theorem CanonicalNext.execRetrainAttempt {l : Fin 8} {ok : Bool} (hs : Canonical s) :
    CanonicalNext (execRetrainAttempt l ok s) :=
  .next (.ite hs (.ite (.linkActive hs) (.linkFailed hs)))

theorem CanonicalNext.execLinkRestore {l : Fin 8} (hs : Canonical s) : CanonicalNext (execLinkRestore l s) :=
  .next (.bar hs (.linkRestore hs))

theorem CanonicalNext.execLinkDisable {l : Fin 8} (hs : Canonical s) : CanonicalNext (execLinkDisable l s) :=
  .next (.bar hs (.linkDisable hs))

theorem CanonicalNext.execCwGrantWrite {i : Fin 64} {v : W64} (hs : Canonical s) :
    CanonicalNext (execCwGrantWrite i v s) :=
  .next (.bar hs (.grantWrite hs))

theorem CanonicalNext.execInboundRequest {req : Inbound} (hs : Canonical s) :
    CanonicalNext (execInboundRequest req s) :=
  .next (.gated hs (.inbound hs))

theorem Canonical.linkReplay {l : Nat} (hs : Canonical s) : Canonical (s.linkReplay l) :=
  .ite_else (.count (.fadd (.keep hs))) .linkLost

theorem CanonicalNext.execLinkCrcError {l : Fin 8} (hs : Canonical s) : CanonicalNext (execLinkCrcError l s) :=
  .next (.ite (.linkReplay hs) hs)

theorem CanonicalNext.execRetiredMaskUpdate {node : Fin 8} {mask : W64} (hs : Canonical s) :
    CanonicalNext (execRetiredMaskUpdate node mask s) :=
  .next (.ite (.keep hs) hs)

/-! The operations and commands of Machine/Egress -/

theorem Canonical.excFault {c cause action : Nat} (hs : Canonical s) : Canonical (s.excFault c cause action) :=
  .fault hs

theorem Canonical.excGateOff {c st : Nat} (hs : Canonical s) : Canonical (s.excGateOff c st) :=
  .fset (.fset (.fset hs))

theorem Canonical.excRamp {c a : Nat} (hs : Canonical s) : Canonical (s.excRamp c a) :=
  .keep (.count (.fset (.fset hs)))

theorem Canonical.excTurnOn {c : Nat} (hs : Canonical s) : Canonical (excTurnOn c s) :=
  .ite hs (.ite (.excRamp hs) (.fset hs))

theorem Canonical.excTurnOff {c : Nat} (hs : Canonical s) : Canonical (excTurnOff c s) := .ite hs (.excGateOff hs)

theorem Canonical.excClear {c : Nat} (hs : Canonical s) : Canonical (excClear c s) := .ite (.fset hs) hs

theorem Canonical.excCommand {src : ExcSrc} {want : Nat} {act : Nat → State → State} (hs : Canonical s)
    (hact : ∀ a s, Canonical s → Canonical (act a s)) :
    Canonical (s.excCommand src want act) := by
  unfold State.excCommand
  split
  · exact .bar hs (.ite (.accessFault hs) (hact _ _ hs))
  · refine .begin hs (fun _ _ hs => ?_) (fun _ _ hs => hs)
    split
    · exact .finish (.ite_else (.ite (.rset (.rset hs)) hs) (fun h => hact _ _ h))
    · exact hs

theorem Canonical.excFail {c cause : Nat} {retire : Bool} (hs : Canonical s) : Canonical (s.excFail c cause retire) :=
  .ite (.event (.excFault (.fset (.excGateOff (.excFault hs))))) (.excGateOff (.excFault hs))

theorem Canonical.excLimits {c : Nat} (hs : Canonical s) : Canonical (s.excLimits c) :=
  .ite_then (.fset (.fset hs)) .count

theorem Canonical.staged {o : StageOut} {bs : List Byte} (hs : Canonical s) : Canonical (s.staged o bs) := by
  unfold State.staged
  dsimp only
  split
  · exact .fset (.setGroup (.ite (.forEach (fun _ _ hs => .count hs) (.fadd hs)) hs))
  · exact .fset (.setQueue (.ite (.count hs) hs))
  · exact .ite (.count (.fadd hs)) (.fset (.setAdvTag (.ite (.count (.fadd hs)) hs)))

theorem Canonical.releaseMark {o p : Nat} {fresh : Bool} (hs : Canonical s) : Canonical (s.releaseMark o p fresh) :=
  .traceEv (.ite_else (.count hs) .count)

theorem Canonical.pwmSet {o duty : Nat} {stale : Bool} (hs : Canonical s) : Canonical (s.pwmSet o duty stale) :=
  .ite (.setPwm (.fset (.fset hs))) (.setPwm hs)

theorem Canonical.pwmMiss {o : Nat} (hs : Canonical s) : Canonical (pwmMiss o s) := by
  unfold State.pwmMiss
  dsimp only
  split
  · exact .pwmSet (.fadd hs)
  · split
    · exact .setPwm (.fset (.fadd hs))
    · exact .fset (.fadd hs)
  · exact .fadd hs

theorem Canonical.releaseFirst {g p : Nat} {b : OutBuf} {outs : List Nat} (hs : Canonical s) :
    Canonical (releaseGroup.releaseFirst g s b p outs) :=
  .ite (.fset (.setGroup (.foldl (fun _ _ hs => .pwmSet hs) (.forEach (fun _ _ hs => .releaseMark hs) hs))))
    (.setGroup (.forEach (fun _ _ hs => .pwmMiss hs) (.forEach (fun _ _ hs => .releaseMark hs) hs)))
theorem Canonical.releaseGroup {g : Nat} (hs : Canonical s) : Canonical (s.releaseGroup g) := by
  unfold State.releaseGroup
  dsimp only
  split
  · exact .ite hs (.releaseFirst hs)
  · exact .releaseFirst hs

theorem Canonical.pwmCfgWrite {o : Nat} {v : W32} (hs : Canonical s) : Canonical (s.pwmCfgWrite o v) :=
  .ite (.ite (.accessFault hs) (.ite hs (.setPwm (.rset hs)))) (.ite (.rset hs) (.ite_then (.rset hs) (fun h =>
    .setPwm (.fset (.fset h)))))

theorem Canonical.stageCfgWrite {r : Reg} {k off : Nat} {v : W32} {ok : State → Bool} {err : Fld} (hs : Canonical s) :
    Canonical (s.stageCfgWrite r k off v ok err) :=
  .ite (.ite (.accessFault hs) (.rset hs)) (.ite (.rset hs) (.ite (.rset hs) (.fset (.rset hs))))

theorem Canonical.grpCfgWrite {g : Nat} {v : W32} (hs : Canonical s) : Canonical (s.grpCfgWrite g v) :=
  .ite (.accessFault hs) (.stageCfgWrite hs)

theorem Canonical.dqCfgWrite {q : Nat} {v : W32} (hs : Canonical s) : Canonical (s.dqCfgWrite q v) :=
  .ite (.accessFault hs) (.stageCfgWrite hs)

theorem Canonical.advSrcWrite {k : Nat} {v : W32} (hs : Canonical s) : Canonical (s.advSrcWrite k v) :=
  .ite (.accessFault hs) (.ite (.rset hs) (.ite (.rset hs) (.fset (.rset hs))))

theorem Canonical.triggerPulse {t : Nat} (hs : Canonical s) : Canonical (s.triggerPulse t) := .ite (.keep hs) hs

theorem Canonical.triggerEnd {t : Nat} (hs : Canonical s) : Canonical (s.triggerEnd t) := .ite (.keep hs) hs

theorem Canonical.driveQueue {q : Nat} {f : List Byte} (hs : Canonical s) : Canonical (s.driveQueue q f) :=
  .ite (.setTxFrames hs) (.fadd hs)

theorem Canonical.queueFirst {q : Nat} (hs : Canonical s) : Canonical (s.queueFirst q).2 := by
  unfold State.queueFirst
  dsimp only
  refine .ite_snd ?_ (.fadd (.releaseMark hs))
  split
  · exact .fset (.setQueue (.releaseMark hs))
  · exact .fadd (.fset (.setQueue (.releaseMark hs)))

theorem Canonical.releaseQueue {q : Nat} (hs : Canonical s) : Canonical (s.releaseQueue q) := by
  unfold State.releaseQueue
  refine .ite hs ?_
  dsimp only
  split
  · exact .ite hs (.driveQueue hs)
  · split
    · exact .driveQueue (.setQueue (.queueFirst hs))
    · exact .setQueue (.queueFirst hs)

theorem Canonical.txSend {port : Nat} {f : TxFrame} (hs : Canonical s) : Canonical (s.txSend port f) :=
  .ite (.setQueue (.fset (.fadd (.emit (.setTxFrames hs))))) (.fadd (.setTxFrames hs))

theorem Canonical.gateStep {k : Nat} {g : Gate} (hs : Canonical s) : Canonical (gateNext.gateStep s k g) := by
  unfold State.gateNext.gateStep
  split
  · exact .setGate hs
  · exact hs
theorem Canonical.gateNext {k : Nat} (hs : Canonical s) : Canonical (s.gateNext k) := by
  unfold State.gateNext
  dsimp only
  split
  · exact .ite (.setGate hs) (.gateStep hs)
  · exact .gateStep hs

theorem Canonical.qciEffect {port table first n : Nat} {d : List Byte} (hs : Canonical s) :
    Canonical (qciEffect port table first n d s) := by
  unfold State.qciEffect
  split
  · exact .foldl (fun _ _ hs => .keep hs) hs
  · exact .foldl (fun _ _ hs => .keep hs) hs
  · exact .setGate hs

theorem Canonical.advSend {k : Nat} (hs : Canonical s) : Canonical (s.advSend k) :=
  .ite (.traceEv (.count (.fadd (.fset (.emit (.setAdvTag (.keep (.fset hs)))))))) (.count (.fadd (.setAdvTag (.keep
    (.fset hs)))))

theorem Canonical.advPace (hs : Canonical s) : Canonical s.advPace := by
  unfold State.advPace
  dsimp only
  split
  · exact .advSend (.forEach (fun _ _ hs => .setAdvTag hs) hs)
  · exact .forEach (fun _ _ hs => .setAdvTag hs) hs

theorem CanonicalNext.execExcOn {src : ExcSrc} (hs : Canonical s) : CanonicalNext (execExcOn src s) :=
  .next (.excCommand hs (fun _ _ hs => .excTurnOn hs))

theorem CanonicalNext.execExcOff {src : ExcSrc} (hs : Canonical s) : CanonicalNext (execExcOff src s) :=
  .next (.excCommand hs (fun _ _ hs => .excTurnOff hs))

theorem CanonicalNext.execExcClearRetired {src : ExcSrc} (hs : Canonical s) :
    CanonicalNext (execExcClearRetired src s) :=
  .next (.excCommand hs (fun _ _ hs => .excClear hs))

theorem CanonicalNext.execRampEnd {c : Fin 4} (hs : Canonical s) : CanonicalNext (execRampEnd c s) :=
  .next (.ite hs (.ite (.fset (.fset (.fset hs))) (.excFail (.fset hs))))

theorem CanonicalNext.execOverload {c : Fin 4} (hs : Canonical s) : CanonicalNext (execOverload c s) :=
  .next (.ite (.excFail (.fset (.fset hs))) hs)

theorem CanonicalNext.execWaitEnd {c : Fin 4} (hs : Canonical s) : CanonicalNext (execWaitEnd c s) :=
  .next (.ite (.excRamp hs) hs)

theorem CanonicalNext.execExcSenseSample {c : Fin 4} {vcode icode : BitVec 12} (hs : Canonical s) :
    CanonicalNext (execExcSenseSample c vcode icode s) :=
  .next (.excLimits (.ite_then (.fset (.fset hs)) (fun h => .keep h)))

theorem CanonicalNext.execStagingCopy {o : StageOut} (hs : Canonical s) : CanonicalNext (execStagingCopy o s) := by
  refine .next ?_
  split
  · exact hs
  · exact .ite (.staged (.setFulls hs)) hs

theorem CanonicalNext.execPwmEnable {o : Fin 32} {v : W32} (hs : Canonical s) : CanonicalNext (execPwmEnable o v s) :=
  .next (.bar hs (.pwmCfgWrite hs))

theorem CanonicalNext.execGroupEnable {g : Fin 8} {v : W32} (hs : Canonical s) :
    CanonicalNext (execGroupEnable g v s) :=
  .next (.bar hs (.grpCfgWrite hs))

theorem CanonicalNext.execDqEnable {q : Fin 16} {v : W32} (hs : Canonical s) : CanonicalNext (execDqEnable q v s) :=
  .next (.bar hs (.dqCfgWrite hs))

theorem CanonicalNext.execAdvSrcEnable {k : Fin 64} {v : W32} (hs : Canonical s) :
    CanonicalNext (execAdvSrcEnable k v s) :=
  .next (.bar hs (.advSrcWrite hs))

theorem CanonicalNext.execPwmPeriodStart {o : Fin 32} (hs : Canonical s) :
    CanonicalNext (execPwmPeriodStart o s) := by
  refine .next ?_
  split
  · exact .ite (.setPwm (.fset (.fset hs))) hs
  · exact hs

theorem CanonicalNext.execTriggerPulseEnd {t : Fin 4} (hs : Canonical s) : CanonicalNext (execTriggerPulseEnd t s) :=
  .next (.triggerEnd hs)

theorem CanonicalNext.execDriveFrameTransmit {port : Fin 4} (hs : Canonical s) :
    CanonicalNext (execDriveFrameTransmit port s) := by
  refine .next ?_
  split
  · exact .txSend hs
  · exact hs

theorem CanonicalNext.execGateListEntry {g : GateRef} (hs : Canonical s) : CanonicalNext (execGateListEntry g s) := by
  refine .next ?_
  split
  · exact .gateNext hs
  · exact .gateNext hs

theorem CanonicalNext.execQciLoad {r : Fin 128} {tag : Fin 512} (hs : Canonical s) :
    CanonicalNext (execQciLoad r tag s) := by
  refine .next (.begin hs (fun _ _ hs => ?_) (fun _ _ hs => hs))
  split
  · exact .finish (.qciEffect hs)
  · exact hs

theorem Canonical.dqSafe {q : Nat} {src : BufDesc} {c : Cmd} (hs : Canonical s) : Canonical (dqSafe q src c s) := by
  unfold State.dqSafe
  refine .ite hs (.ite hs (.ite (.finish (.bufRead hs)) ?_))
  split
  · exact .ite (.finish (.fset (.setQueue (.bufRead hs)))) (.finish (.bufRead hs))
  · exact .finish (.bufRead hs)

theorem CanonicalNext.execDqSafeLoad {r : Fin 128} {tag : Fin 512} (hs : Canonical s) :
    CanonicalNext (execDqSafeLoad r tag s) := by
  refine .next (.gated hs (.begin hs (fun _ _ hs => ?_) (fun _ _ hs => ?_)))
  · split
    · exact .ite (.finish (.fset (.setQueue hs))) (.dqSafe hs)
    · exact hs
  · split
    · exact .dqSafe hs
    · exact hs

theorem CanonicalNext.execPacerTick (hs : Canonical s) : CanonicalNext (execPacerTick s) :=
  .next (.ite (.advPace hs) hs)

theorem CanonicalNext.execAdvisoryLink {up : Bool} (hs : Canonical s) : CanonicalNext (execAdvisoryLink up s) :=
  .next (.fset hs)

/-! The operations and commands of Machine/Keystone -/

theorem Canonical.setBank {b : Nat} {x : Bank} (hs : Canonical s) : Canonical (s.setBank b x) :=
  .ite (.keep hs) (.keep hs)

theorem Canonical.fwEnd {err : Nat} (hs : Canonical s) : Canonical (s.fwEnd err) := .fset (.fset hs)

theorem Canonical.fwCtrl {cmd : Nat} {v : W32} {act : State → State} (hs : Canonical s)
    (hact : ∀ s, Canonical s → Canonical (act s)) :
    Canonical (s.fwCtrl cmd v act) :=
  .ite hs (.ite_else (.fset (.fset hs)) (fun h => hact _ (.fset h)))

theorem Canonical.fwRead (hs : Canonical s) : Canonical s.fwRead :=
  .ite (.fwEnd hs) (.charge (.fset (.fset (.setBank hs))))

theorem Canonical.fwStage {v : W32} (hs : Canonical s) : Canonical (s.fwStage v) :=
  .ite hs (.gated hs (.fwCtrl hs (fun _ hs => .fwRead hs)))

theorem Canonical.fwVerify (hs : Canonical s) : Canonical s.fwVerify :=
  .ite (.fwEnd (.setBank hs)) (.ite (.fwEnd (.setBank hs)) (.event (.fwEnd (.fset (.fset (.setBank hs))))))

theorem Canonical.releaseHeld (hs : Canonical s) : Canonical s.releaseHeld :=
  .forEach (fun _ _ hs => .eventPost hs) (.eventsLost (.keep hs))

theorem Canonical.switchDone (hs : Canonical s) : Canonical s.switchDone :=
  .event (.forEach (fun _ _ hs => .ite hs (.tdiError hs)) (.releaseHeld (.fwEnd (.keep (.fset (.fset (.fset (.fset
    (.fset hs)))))))))

theorem Canonical.fwLive (hs : Canonical s) : Canonical s.fwLive := .ite (.fwEnd hs) (.keep (.fset (.fset hs)))

theorem Canonical.fwAtReset (hs : Canonical s) : Canonical s.fwAtReset := .ite (.fwEnd hs) (.fwEnd (.fset hs))

theorem Canonical.fwCommit (hs : Canonical s) : Canonical s.fwCommit :=
  .ite (.fwEnd hs) (.event (.fwEnd (.keep (.fset hs))))

theorem Canonical.fwDrop (hs : Canonical s) : Canonical s.fwDrop := .fwEnd (.fset hs)

theorem Canonical.debugWrite {v : W32} (hs : Canonical s) : Canonical (s.debugWrite v) :=
  .ite hs (.gated hs (.ite_then (.charge hs) (fun h => .event (.fset h))))

theorem Canonical.hashTake {c : Cmd} (hs : Canonical s) : Canonical (hashTake c s) := by
  unfold State.hashTake
  split
  · split
    · exact .count (.finish hs)
    · exact .finish (.setHashCtx hs)
  · exact hs

theorem Canonical.hashTurn {k p : Nat} (hs : Canonical s) : Canonical (s.hashTurn k p) := .ite_else (.keep hs) .count

theorem Canonical.hashMore {c : Cmd} (hs : Canonical s) : Canonical (hashMore c s) := by
  unfold State.hashMore
  split
  · split
    · exact .finish hs
    · exact .ite (.finish hs) (.ite hs (.ite hs (.ite (.finish (.setHashCtx (.bufRead hs))) (.ite (.finish
        (.setHashCtx (.count (.hashTurn (.bufRead hs))))) (.modCmd (.setHashCtx (.count (.hashTurn (.bufRead
        hs)))))))))
  · exact hs

theorem Canonical.hashBegin {c : Cmd} (hs : Canonical s) : Canonical (hashBegin c s) := by
  unfold State.hashBegin
  split
  · split
    · exact .hashMore (.setHashCtx hs)
    · exact hs
  · exact hs

theorem Canonical.hashEnd {c : Cmd} (hs : Canonical s) : Canonical (hashEnd c s) := by
  unfold State.hashEnd
  split
  · split
    · exact .finish hs
    · exact .ite hs (.ite hs (.ite (.finish (.bufWrite hs)) (.finish (.setHashCtx (.count (.hashTurn (.bufWrite
        hs)))))))
  · exact hs

theorem Canonical.hashDrop {c : Cmd} (hs : Canonical s) : Canonical (hashDrop c s) := by
  unfold State.hashDrop
  split
  · refine .finish (.setHashCtx ?_)
    split
    · exact .finish hs
    · exact hs
  · exact hs

theorem Canonical.hostFault {part fn : Nat} {err : HostErr} {a rt : Nat} (hs : Canonical s) :
    Canonical (s.hostFault part fn err a rt) :=
  .fault hs

theorem Canonical.hostReadFail {err : HostErr} {c : Cmd} (hs : Canonical s) : Canonical (hostReadFail err c s) := by
  unfold State.hostReadFail
  split
  · exact hs
  · refine .ite hs (.finish ?_)
    split
    · split
      · exact .ite_then (.hostFault hs) .setHashCtx
      · exact .hostFault hs
    · exact .undefBuf (.hostFault hs)
    · exact .hostFault hs

theorem CanonicalNext.execFwStage {v : W32} (hs : Canonical s) : CanonicalNext (execFwStage v s) :=
  .next (.fwStage hs)

theorem CanonicalNext.execFwStageVerified (hs : Canonical s) : CanonicalNext (execFwStageVerified s) :=
  .next (.ite (.fwVerify hs) hs)

theorem CanonicalNext.execFwActivateLive {v : W32} (hs : Canonical s) : CanonicalNext (execFwActivateLive v s) :=
  .next (.fwCtrl hs (fun _ hs => .fwLive hs))

theorem CanonicalNext.execFwActivateAtReset {v : W32} (hs : Canonical s) :
    CanonicalNext (execFwActivateAtReset v s) :=
  .next (.fwCtrl hs (fun _ hs => .fwAtReset hs))

theorem CanonicalNext.execFwCommitSvn {v : W32} (hs : Canonical s) : CanonicalNext (execFwCommitSvn v s) :=
  .next (.fwCtrl hs (fun _ hs => .fwCommit hs))

theorem CanonicalNext.execFwDiscard {v : W32} (hs : Canonical s) : CanonicalNext (execFwDiscard v s) :=
  .next (.fwCtrl hs (fun _ hs => .fwDrop hs))

theorem CanonicalNext.execFirmwareReady (hs : Canonical s) : CanonicalNext (execFirmwareReady s) :=
  .next (.ite (.switchDone hs) hs)

theorem CanonicalNext.execSwitchTimeout (hs : Canonical s) : CanonicalNext (execSwitchTimeout s) :=
  .next (.ite (.event (.releaseHeld (.fwEnd (.keep (.fset hs))))) hs)

theorem CanonicalNext.execKsDbgOpen {v : W32} (hs : Canonical s) : CanonicalNext (execKsDbgOpen v s) :=
  .next (.debugWrite hs)

theorem CanonicalNext.execHashOpen {r : Fin 128} {tag : Fin 512} (hs : Canonical s) :
    CanonicalNext (execHashOpen r tag s) :=
  .next (.begin hs (fun _ _ hs => .hashTake hs) (fun _ _ hs => hs))

theorem CanonicalNext.execHashUpdate {r : Fin 128} {tag : Fin 512} (hs : Canonical s) :
    CanonicalNext (execHashUpdate r tag s) :=
  .next (.gated hs (.begin hs (fun _ _ hs => .hashBegin hs) (fun _ _ hs => .hashMore hs)))

theorem CanonicalNext.execHashFinal {r : Fin 128} {tag : Fin 512} (hs : Canonical s) :
    CanonicalNext (execHashFinal r tag s) :=
  .next (.gated hs (.begin hs (fun _ _ hs => .hashEnd hs) (fun _ _ hs => .hashEnd hs)))

theorem CanonicalNext.execHashClose {r : Fin 128} {tag : Fin 512} (hs : Canonical s) :
    CanonicalNext (execHashClose r tag s) :=
  .next (.begin hs (fun _ _ hs => .hashDrop hs) (fun _ _ hs => hs))

theorem CanonicalNext.execHostReadError {what : HostRead} {err : HostErr} (hs : Canonical s) :
    CanonicalNext (execHostReadError what err s) := by
  refine .next ?_
  split
  · exact .ite (.halt (.hostFault hs)) hs
  · exact .withCmd hs (fun _ _ hs => .hostReadFail hs)
  · exact .ite (.fwEnd (.hostFault hs)) hs

/-! The operations and commands of Machine/SemOps -/

theorem Canonical.cmdRequest {n : Nat} {w : Waiter} {c : Cmd} (hs : Canonical s) :
    Canonical (cmdRequest n w c s) := by
  have h : Canonical (s.semRequest n w).2 := .semRequest hs
  unfold State.cmdRequest
  split
  next heq => exact .finish (.of_snd heq h)
  next heq => exact .of_snd heq h

theorem Canonical.grantResume {n : Nat} {w : Waiter} (hs : Canonical s) : Canonical (s.grantResume n w) := by
  unfold State.grantResume
  split
  · exact .setState (.ite (.modTile (.ite (.modTile hs) (.modTile hs))) (.rememberTake (.ite (.modTile hs) (.modTile
      hs))))
  · exact .setStay hs
  · exact hs
  · exact .finish hs

theorem CanonicalNext.execSemaphoreGrant {sem : Fin 8192} (hs : Canonical s) :
    CanonicalNext (execSemaphoreGrant sem s) := by
  refine .next ?_
  split
  · exact .ite (.grantResume (.waiterTake (.setSemWaiters hs))) hs
  · exact hs

theorem CanonicalNext.execSemSignal {r : Fin 128} {tag : Fin 512} (hs : Canonical s) :
    CanonicalNext (execSemSignal r tag s) := by
  refine .next (.begin hs (fun _ _ hs => ?_) (fun _ _ hs => hs))
  split
  · exact .finish (.semAdd hs)
  · exact hs

theorem CanonicalNext.execSemWait {r : Fin 128} {tag : Fin 512} (hs : Canonical s) :
    CanonicalNext (execSemWait r tag s) := by
  refine .next (.begin hs (fun _ _ hs => ?_) (fun _ _ hs => hs))
  split
  · exact .cmdRequest hs
  · exact hs

theorem CanonicalNext.execSemTrywait {r : Fin 128} {tag : Fin 512} (hs : Canonical s) :
    CanonicalNext (execSemTrywait r tag s) := by
  refine .next (.begin hs (fun _ _ hs => ?_) (fun _ _ hs => hs))
  split
  · exact .finish (.semTake hs)
  · exact hs

theorem CanonicalNext.execSemAcquire {r : Fin 128} {tag : Fin 512} (hs : Canonical s) :
    CanonicalNext (execSemAcquire r tag s) := by
  refine .next (.begin hs (fun _ _ hs => ?_) (fun _ _ hs => hs))
  split
  · exact .cmdRequest hs
  · exact hs

theorem CanonicalNext.execSemTryacquire {r : Fin 128} {tag : Fin 512} (hs : Canonical s) :
    CanonicalNext (execSemTryacquire r tag s) := by
  refine .next (.begin hs (fun _ _ hs => ?_) (fun _ _ hs => hs))
  split
  · exact .finish (.waiterTake hs)
  · exact hs

theorem CanonicalNext.execSemRelease {r : Fin 128} {tag : Fin 512} (hs : Canonical s) :
    CanonicalNext (execSemRelease r tag s) := by
  refine .next (.begin hs (fun _ _ hs => ?_) (fun _ _ hs => hs))
  split
  · exact .finish (.lockRelease hs)
  · exact hs

theorem CanonicalNext.execSemRead {r : Fin 128} {tag : Fin 512} (hs : Canonical s) :
    CanonicalNext (execSemRead r tag s) := by
  refine .next (.begin hs (fun _ _ hs => ?_) (fun _ _ hs => hs))
  split
  · exact .finish hs
  · exact hs

theorem CanonicalDid.doSemWait {x : Issue} (hs : Canonical s) : CanonicalDid (doSemWait x s) := by
  refine .ite (.stop hs) (.ite (.stop hs) (.ite (.ok hs) ?_))
  have h (w : Waiter) : Canonical (s.semRequest (iWsem x.i) w).2 := .semRequest hs
  split
  next heq => exact .ok (.rememberTake (.of_snd heq (h _)))
  next heq => exact .wait (.waitSem (.of_snd heq (h _)))

theorem CanonicalDid.grantWord {x : Issue} (hs : Canonical s) : CanonicalDid (grantWord x s) :=
  .ok (.ite_then (.deckPut hs) .modRun)

theorem CanonicalDid.doLock {x : Issue} (hs : Canonical s) : CanonicalDid (doLock x s) := by
  refine .ite (.stop hs) (.ite (.stop hs) (.ite (.grantWord hs) (.ite (.stop hs) ?_)))
  have h (w : Waiter) : Canonical (s.semRequest (iWsem x.i) w).2 := .semRequest hs
  split
  next heq => exact .grantWord (.modTile (.of_snd heq (h _)))
  next heq => exact .wait (.waitSem (.of_snd heq (h _)))

theorem CanonicalDid.doUnlock {x : Issue} (hs : Canonical s) : CanonicalDid (doUnlock x s) :=
  .ite (.stop hs) (.ite (.ok (.lockRelease hs)) (.stop hs))

theorem CanonicalNext.execTileSemWait {t : Fin 16} (hs : Canonical s) : CanonicalNext (execTileSemWait t s) :=
  .next (.issue hs (fun _ _ hs => .doSemWait hs))

theorem CanonicalNext.execTileSemSignal {t : Fin 16} (hs : Canonical s) : CanonicalNext (execTileSemSignal t s) :=
  .next (.issue hs (fun _ _ hs => .tileSignal hs))

theorem CanonicalNext.execLock {t : Fin 16} (hs : Canonical s) : CanonicalNext (execLock t s) :=
  .next (.issue hs (fun _ _ hs => .doLock hs))

theorem CanonicalNext.execUnlock {t : Fin 16} (hs : Canonical s) : CanonicalNext (execUnlock t s) :=
  .next (.issue hs (fun _ _ hs => .doUnlock hs))

theorem CanonicalNext.execLoop {t : Fin 16} (hs : Canonical s) : CanonicalNext (execLoop t s) :=
  .next (.issue hs (fun _ _ hs => .ok hs))

theorem CanonicalNext.execEndRole {t : Fin 16} (hs : Canonical s) : CanonicalNext (execEndRole t s) :=
  .next (.issue hs (fun _ _ hs => .ok hs))

/-! The operations and commands of Machine/StayKernels -/

theorem Canonical.stayStart {t c kernel part : Nat} {owner : StayOwner} {lock : Option Nat} {params : List Byte}
    (hs : Canonical s) :
    Canonical (s.stayStart t c kernel part owner lock params) :=
  .traceEv (.count (.setStayStat (.setStay hs)))

theorem Canonical.callStart {c : Cmd} (hs : Canonical s) : Canonical (callStart c s) := by
  unfold State.callStart
  split
  · refine .ite hs ?_
    split
    · exact .stayStart hs
    · exact hs
  · exact hs

theorem Canonical.kernTags {k : Kern} {w : Work} {out : Bool} (hs : Canonical s) :
    Canonical (s.kernTags k w out) := by
  unfold State.kernTags
  refine .ite (.forEach (fun _ _ hs => ?_) (.ite (.forEach (fun _ _ hs => .setFull hs) hs) hs))
    (.ite (.forEach (fun _ _ hs => .setFull hs) hs) hs)
  dsimp only
  split
  · exact .feedOut (.setFull hs)
  · exact .setFull hs

theorem Canonical.stayEnd {t c : Nat} {result : W32} (hs : Canonical s) : Canonical (s.stayEnd t c result) := by
  unfold State.stayEnd
  extract_lets k s1 s2 s3
  have h1 : Canonical s1 := by
    unfold s1
    split
    · exact .ite (.lockRelease hs) hs
    · exact hs
  have h3 : Canonical s3 := .traceEv (.setStayStat (.setStay h1))
  split
  · exact .finish h3
  · exact h3

theorem Canonical.stayLock {t c n : Nat} (hs : Canonical s) : Canonical (s.stayLock t c n) := by
  have h : Canonical (s.semRequest n { who := .stay t c, acquire := true }).2 := .semRequest hs
  refine .ite hs ?_
  split
  next heq => exact .setStay (.of_snd heq h)
  next heq => exact .of_snd heq h

theorem Canonical.kernel {t c id : Nat} {work : State → Kern → Work} (hs : Canonical s) :
    Canonical (s.kernel t c id work) := by
  unfold State.kernel
  extract_lets y s1 z k w
  have h1 : Canonical s1 := by
    unfold s1
    split
    · exact .ite hs (.stayLock hs)
    · exact hs
  refine .ite hs (.ite h1 ?_)
  split
  · exact .setStay h1
  · exact .stayEnd (.kernTags (.deckPut h1))

theorem CanonicalDid.doInvoke {x : Issue} (hs : Canonical s) : CanonicalDid (doInvoke x s) := by
  unfold State.doInvoke
  dsimp only
  split
  · exact .stop hs
  · exact .ite (.stop hs) (.ite (.wait hs) (.ok (.stayStart hs)))

theorem CanonicalDid.doJoin {x : Issue} (hs : Canonical s) : CanonicalDid (doJoin x s) :=
  .ite (.wait hs) (.ok (.deckPut hs))

theorem CanonicalNext.execStayCall {r : Fin 128} {tag : Fin 512} (hs : Canonical s) :
    CanonicalNext (execStayCall r tag s) :=
  .next (.begin hs (fun _ _ hs => .callStart hs) (fun _ _ hs => .callStart hs))

theorem CanonicalNext.execStayInvoke {t : Fin 16} (hs : Canonical s) : CanonicalNext (execStayInvoke t s) :=
  .next (.issue hs (fun _ _ hs => .doInvoke hs))

theorem CanonicalNext.execStayJoin {t : Fin 16} (hs : Canonical s) : CanonicalNext (execStayJoin t s) :=
  .next (.issue hs (fun _ _ hs => .doJoin hs))

theorem CanonicalNext.execPrepNorm {t : Fin 16} {c : Fin 2} (hs : Canonical s) : CanonicalNext (execPrepNorm t c s) :=
  .next (.kernel hs)

theorem CanonicalNext.execPrepUnpack {t : Fin 16} {c : Fin 2} (hs : Canonical s) :
    CanonicalNext (execPrepUnpack t c s) :=
  .next (.kernel hs)

theorem CanonicalNext.execPrepGrid {t : Fin 16} {c : Fin 2} (hs : Canonical s) : CanonicalNext (execPrepGrid t c s) :=
  .next (.kernel hs)

theorem CanonicalNext.execTidyTopk {t : Fin 16} {c : Fin 2} (hs : Canonical s) : CanonicalNext (execTidyTopk t c s) :=
  .next (.kernel hs)

theorem CanonicalNext.execTidyNms {t : Fin 16} {c : Fin 2} (hs : Canonical s) : CanonicalNext (execTidyNms t c s) :=
  .next (.kernel hs)

theorem CanonicalNext.execClPid {t : Fin 16} {c : Fin 2} (hs : Canonical s) : CanonicalNext (execClPid t c s) :=
  .next (.kernel hs)

theorem CanonicalNext.execClStatespace {t : Fin 16} {c : Fin 2} (hs : Canonical s) :
    CanonicalNext (execClStatespace t c s) :=
  .next (.kernel hs)

theorem CanonicalNext.execClLimit {t : Fin 16} {c : Fin 2} (hs : Canonical s) : CanonicalNext (execClLimit t c s) :=
  .next (.kernel hs)

theorem CanonicalNext.execQCalib {t : Fin 16} {c : Fin 2} (hs : Canonical s) : CanonicalNext (execQCalib t c s) :=
  .next (.kernel hs)

theorem CanonicalNext.execQRequant {t : Fin 16} {c : Fin 2} (hs : Canonical s) : CanonicalNext (execQRequant t c s) :=
  .next (.kernel hs)

theorem CanonicalNext.execQColsum {t : Fin 16} {c : Fin 2} (hs : Canonical s) : CanonicalNext (execQColsum t c s) :=
  .next (.kernel hs)

/-! The operations and commands of Machine/Recovery -/

theorem Canonical.tileRecord {t cause action attempt : Nat} (hs : Canonical s) :
    Canonical (s.tileRecord t cause action attempt) :=
  .fault hs

theorem Canonical.giveBack {taken : List (Nat × Nat)} {locks : List Nat} {t : Nat} (hs : Canonical s) :
    Canonical (s.giveBack taken locks t) :=
  .forEach (fun _ _ hs => .lockAbandon hs) (.forEach (fun _ _ hs => .semGiveBack hs) hs)

theorem Canonical.unland {t : Nat} (hs : Canonical s) : Canonical (s.unland t) := .keep hs

theorem Canonical.replaySpan {r : Run} {t cause : Nat} (hs : Canonical s) : Canonical (s.replaySpan r t cause) :=
  .traceEv (.count (.modRun (.fset (.setState (.setTile (.unland (.giveBack (.dropWaiters hs))))))))

theorem Canonical.pinSpare {h u : Nat} (hs : Canonical s) : Canonical (s.pinSpare h u) := .keep hs

theorem Canonical.emptyRegion {x g : Nat} (hs : Canonical s) : Canonical (s.emptyRegion x g) := .keep hs

theorem Canonical.roleAt {r : Run} {im : Image} {cut t role : Nat} (hs : Canonical s) :
    Canonical (s.roleAt r im cut t role) :=
  .fset (.fset (.fset (.rset (.setState (.setTile hs)))))

theorem Canonical.cutBack {r : Run} {im : Image} {cut t role : Nat} (hs : Canonical s) :
    Canonical (cutBack r im cut t role s) :=
  .ite (.roleAt (.forEach (fun _ _ hs => .emptyRegion hs) (.unland (.giveBack (.dropWaiters hs))))) hs

theorem Canonical.copyRoles {r : Run} {g : Prog} {xs : List (Nat × Nat)} (hs : Canonical s) :
    Canonical (copyRoles r g xs s).2 := by
  induction xs generalizing s with
  | nil => exact hs
  | cons x xs ih =>
    have h (len : Nat) : Canonical (s.copyRole r g x.2 len).2 := .copyRole hs
    refine .ite_snd (ih hs) ?_
    split
    next heq => exact ih (.pinSpare (.of_snd heq (h _)))
    next heq => exact .of_snd heq (h _)

theorem Canonical.moveRole {r : Run} {im : Image} {cut t u cause attempt : Nat} (hs : Canonical s) :
    Canonical (moveRole r im cut t u cause attempt s) :=
  .modRun (.roleAt (.feedStart (.giveBack (.dropWaiters (.fault hs)))))

theorem Canonical.rollBack {r : Run} {g : Prog} {xs : List (Nat × Nat × Nat × Nat)} (hs : Canonical s) :
    Canonical (s.rollBack r g xs) := by
  have h : Canonical (State.copyRoles r g (xs.map (fun x => (x.1, x.2.1))) s).2 := .copyRoles hs
  unfold State.rollBack
  dsimp only
  split
  next heq =>
    exact .modRun (.forEach (fun _ _ hs => .moveRole hs) (.forEach (fun _ _ hs => .ite hs (.cutBack hs))
      (.staysStop (.of_snd heq h))))
  next heq => exact .runStop (.of_snd heq h)

theorem Canonical.entriesMove {t : Nat} {spare : Option Nat} (hs : Canonical s) :
    Canonical (s.entriesMove t spare) := by
  cases spare with
  | none => exact .forEach (fun _ _ hs => .fset hs) hs
  | some u => exact .forEach (fun _ _ hs => .keep (.ite (.pinSpare hs) hs)) hs

theorem Canonical.queueMove {t : Nat} {spare : Option Nat} (hs : Canonical s) : Canonical (s.queueMove t spare) := by
  unfold State.queueMove
  dsimp only
  split
  · exact .setStartQ (.setStartQ (.forEach (fun _ _ hs => .modRun hs) hs))
  · exact .setStartQ (.forEach (fun _ _ hs => .runStop hs) hs)

theorem Canonical.deckLost {t : Nat} (hs : Canonical s) : Canonical (s.deckLost t) := by
  refine .clearDeck (.forEach (fun _ s hs => ?_) (.abandonWhere (.forEach (fun _ s hs => ?_) (.finishAll
    (.forEach (fun _ _ hs => .fault (.fset (.descQuiet hs))) hs)))))
  · split
    · exact .ite (.runStop hs) hs
    · exact hs
  · dsimp only
    split
    · exact .finish (.stayStop hs)
    · exact .stayStop hs

theorem Canonical.runRecover {sp : List (Nat × Option Nat)} {xs : List (Nat × Nat × Nat)} {id : Nat}
    (hs : Canonical s) :
    Canonical (runRecover sp xs id s) := by
  unfold State.runRecover
  split
  · exact hs
  · dsimp only
    split
    · exact .ite (.rollBack hs) (.runStop hs)
    · exact .runStop hs

theorem Canonical.tileGone {part prog : Nat} {spare named : Option Nat} {t : Nat} (hs : Canonical s) :
    Canonical (tileGone part prog spare named t s) :=
  .tdiError (.event (.rset (.setTile (.deckLost (.entriesMove (.queueMove hs))))))

theorem Canonical.retireTiles {xs : List (Nat × Nat × Nat)} (hs : Canonical s) : Canonical (s.retireTiles xs) :=
  .ite hs (.recompute (.forEach (fun _ _ hs => .tileGone hs) (.forEach (fun _ _ hs => .runRecover hs) (.forEach (fun _
    _ hs => .fset (.tileRecord hs)) hs))))

theorem Canonical.handleOne {t cause : Nat} {h : Handled} (hs : Canonical s) : Canonical (handleOne t cause h s) := by
  unfold State.handleOne
  dsimp only
  split
  · exact .runStop (.tileRecord hs)
  · exact .replaySpan (.tileRecord hs)
  · exact .tileRecord hs

theorem Canonical.handleFaults {xs : List (Nat × Nat × Bool)} (hs : Canonical s) : Canonical (s.handleFaults xs) := by
  refine .retireTiles (.forEach (fun x s hs => ?_) hs)
  obtain ⟨t, c, h, a⟩ := x
  cases h with
  | retired _ => exact hs
  | ended => exact .handleOne hs
  | replayed => exact .handleOne hs
  | logged => exact .handleOne hs

theorem Canonical.deckCorrect {t : Nat} (hs : Canonical s) : Canonical (deckCorrect t s) :=
  .ite hs (.ite_then (.count (.keep hs)) (fun h => .keep h))

theorem Canonical.ceRecheck {t : Nat} {bistPass : Bool} (hs : Canonical s) : Canonical (ceRecheck t bistPass s) :=
  .ite hs (.ite (.tileRecord (.keep hs)) (.handleFaults (.keep hs)))

theorem Canonical.restoreOne {r : Run} {t : Nat} {x : Restore} (hs : Canonical s) :
    Canonical (restoreOne r t x s).2 :=
  .ite_snd hs (.ite_snd (.hbmRead hs) (.ite_then (.charge (.deckPut (.hbmRead hs))) .setFulls))

theorem Canonical.restoreAll {r : Run} {xs : List (Nat × Restore)} (hs : Canonical s) :
    Canonical (restoreAll r xs s).2 := by
  induction xs generalizing s with
  | nil => exact hs
  | cons x xs ih =>
    have h : Canonical (State.restoreOne r x.1 x.2 s).2 := .restoreOne hs
    unfold State.restoreAll
    split
    next heq => exact ih (.of_snd heq h)
    next heq => exact .of_snd heq h

theorem CanonicalNext.execTileFault {t : Fin 16} {cause : TileCause} {bist : TileBist} (hs : Canonical s) :
    CanonicalNext (execTileFault t cause bist s) := by
  refine .next (.handleFaults (.forEach (fun x s hs => ?_) hs))
  obtain ⟨u, c, ok⟩ := x
  cases c with
  | deckCorrected => exact .deckCorrect hs
  | ceThreshold => exact .ceRecheck hs
  | _ => exact hs

theorem CanonicalNext.execWatchdogExpiry {t : Fin 16} {bistPass : Bool} (hs : Canonical s) :
    CanonicalNext (execWatchdogExpiry t bistPass s) :=
  .next (.ite (.handleFaults hs) hs)

theorem CanonicalNext.execRollbackRestoreEnd {run : Nat} (hs : Canonical s) :
    CanonicalNext (execRollbackRestoreEnd run s) := by
  refine .next ?_
  split
  · exact hs
  · exact .ite hs (.gated hs (.ite hs (.ite (.runStop (.restoreAll hs)) (.modRun (.restoreAll hs)))))

/-! The operations and commands of Machine/TimeAlarm -/

theorem Canonical.alarmNext {k : Nat} {catchUp back : Bool} (hs : Canonical s) :
    Canonical (s.alarmNext k catchUp back) :=
  .ite (.fset hs) (.ite (.keep (.fset hs)) (.ite (.fadd (.fset hs)) (.fset hs)))

theorem Canonical.alarmFire {past resync back : Bool} {k : Nat} (hs : Canonical s) :
    Canonical (alarmFire past resync back k s) :=
  .alarmNext (.traceEv (.windowEvent (.ite (.count (.fset (.ite_then (.count (.fadd (.fset hs))) (fun h => .count
    (.fset h))))) (.ite_then (.count (.fadd (.fset hs))) (fun h => .count (.fset h))))))

theorem Canonical.alarmAct {k : Nat} (hs : Canonical s) : Canonical (alarmAct k s) := by
  unfold State.alarmAct
  dsimp only
  split
  · exact .alarmStart hs
  · exact .captureLatch hs
  · exact .releaseGroup hs
  · exact .triggerPulse hs
  · exact .traceAlarm hs
  · exact .traceAlarm hs
  · exact .releaseQueue hs
  · exact hs

theorem Canonical.alarmsFire {past resync back : Bool} {ks : List Nat} (hs : Canonical s) :
    Canonical (s.alarmsFire past resync back ks) :=
  .ite_then (.forEach (fun _ _ hs => .alarmAct hs) (.forEach (fun _ _ hs => .alarmFire hs) hs)) .ssiStarts

theorem Canonical.fireDue (hs : Canonical s) : Canonical s.fireDue := .alarmsFire hs

theorem Canonical.fireFirst {k : Nat} (hs : Canonical s) : Canonical (s.fireFirst k) := .ite (.fireDue hs) hs

theorem Canonical.alarmArmed {k : Nat} (hs : Canonical s) : Canonical (s.alarmArmed k) :=
  .ite (.ite_else (.keep (.fset hs)) (fun h => .count (.fset h))) (.ite_then (.keep (.fset hs)) .alarmsFire)

theorem Canonical.alarmOff {k : Nat} (hs : Canonical s) : Canonical (s.alarmOff k) := .keep (.fset hs)

theorem Canonical.alarmArmBit {k : Nat} (hs : Canonical s) : Canonical (s.alarmArmBit k) :=
  .ite_else (.fireFirst hs) (fun h => .ite (.fset h) (.alarmArmed h))

theorem Canonical.alarmDisarmBit {k : Nat} (hs : Canonical s) : Canonical (s.alarmDisarmBit k) :=
  .ite_then (.fireFirst hs) .alarmOff

theorem Canonical.timeFault {cause step : Nat} (hs : Canonical s) : Canonical (s.timeFault cause step) := .fault hs

theorem Canonical.lockTrace (hs : Canonical s) : Canonical s.lockTrace := .traceEv hs

theorem Canonical.timeStep {delta : W32} (hs : Canonical s) : Canonical (s.timeStep delta) :=
  .alarmsFire (.traceEv (.timeFault (.fset (.keep hs))))

theorem Canonical.setInc {v : W32} (hs : Canonical s) : Canonical (s.setInc v) := .ite_else (.fset hs) .fset

theorem Canonical.incWrite {v : W32} (hs : Canonical s) : Canonical (s.incWrite v) :=
  .ite (.accessFault hs) (.setInc hs)

theorem Canonical.stepWrite {v : W32} (hs : Canonical s) : Canonical (s.stepWrite v) :=
  .ite (.accessFault hs) (.timeStep hs)

theorem Canonical.lockLost {sync : Bool} (hs : Canonical s) : Canonical (s.lockLost sync) :=
  .lockTrace (.timeFault (.keep (.ite_then (.fset (.fset hs)) .fset)))

theorem Canonical.servoAct {off : W32} (hs : Canonical s) : Canonical (s.servoAct off) :=
  .ite hs (.ite (.timeStep (.keep hs)) (.setInc hs))

theorem Canonical.servoSync {off : W32} (hs : Canonical s) : Canonical (s.servoSync off) :=
  .ite (.ite (.lockLost (.fset hs)) (.servoAct (.fset hs))) (.ite (.servoAct (.lockTrace (.keep (.fset (.fset (.keep
    (.fset hs))))))) (.servoAct (.keep (.fset hs))))

theorem Canonical.bearingTrace {c : Nat} (hs : Canonical s) : Canonical (s.bearingTrace c) := .traceEv hs

theorem Canonical.holdMove {m : Int} {k : Nat} (hs : Canonical s) : Canonical (holdMove m k s) := .ite hs (.keep hs)

theorem Canonical.phaseFire {c : Nat} {old new : W32} {reverse resync : Bool} (hs : Canonical s) :
    Canonical (s.phaseFire c old new reverse resync) :=
  .ite_else (.forEach (fun _ _ hs => .holdMove hs) hs) .alarmsFire

theorem Canonical.phaseUpdate {c : Nat} {src : W32} {reverse resync : Bool} (hs : Canonical s) :
    Canonical (s.phaseUpdate c src reverse resync) :=
  .ite (.phaseFire (.ite_then (.fset (.fset (.fset (.setBearing hs)))) (fun h => .bearingTrace (.fset h))))
    (.bearingTrace (.forEach (fun _ _ hs => .keep hs) (.ite_else (.fset (.fset (.fset (.fset (.setBearing hs)))))
    .fset)))

theorem Canonical.phaseForce {c : Nat} {src : W32} (hs : Canonical s) : Canonical (s.phaseForce c src) :=
  .phaseUpdate hs

theorem Canonical.channelInvalid {c : Nat} (hs : Canonical s) : Canonical (s.channelInvalid c) :=
  .ite hs (.forEach (fun _ _ hs => .count (.fset hs)) (.fset (.fset hs)))

theorem Canonical.sourceLost {cause c : Nat} (hs : Canonical s) : Canonical (sourceLost cause c s) :=
  .bearingTrace (.fault (.setBearing (.fset (.windowsLost (.channelInvalid hs)))))

theorem Canonical.channelCfg {c : Nat} {v : W32} (hs : Canonical s) : Canonical (s.channelCfg c v) :=
  .ite (.fset (.fset (.fset (.rset (.setBearing (.channelInvalid hs)))))) (.ite_else (.fset (.rset (.setBearing
    (.channelInvalid hs)))) .fset)

theorem Canonical.channelEdge {forward fast counted : Bool} {c : Nat} (hs : Canonical s) :
    Canonical (channelEdge forward fast counted c s) :=
  .ite_else (.ite (.fset hs) hs) (fun h => .ite_then (.setBearing h) .phaseUpdate)

theorem Canonical.channelLine {line c : Nat} (hs : Canonical s) : Canonical (channelLine line c s) :=
  .ite (.phaseUpdate hs) hs

theorem Canonical.channelSsi {pos : Option Nat} {c : Nat} (hs : Canonical s) : Canonical (channelSsi pos c s) := by
  unfold State.channelSsi
  split
  · exact .phaseForce hs
  · exact .ite (.sourceLost hs) (.setBearing hs)

theorem Canonical.channelMains {period : W32} {c : Nat} (hs : Canonical s) : Canonical (channelMains period c s) :=
  .ite (.ite (.sourceLost hs) hs) (.fset (.ite_else (.fset (.setBearing hs)) .phaseUpdate))

theorem Canonical.mainsFreq {m : Nat} (hs : Canonical s) : Canonical (s.mainsFreq m).2 := by
  unfold State.mainsFreq
  split
  · exact hs
  · exact .draw hs

theorem CanonicalNext.execTbNowRead {req : Fin 5} (hs : Canonical s) : CanonicalNext (execTbNowRead req s) :=
  .next (.fset (.fset (.fset hs)))

theorem CanonicalNext.execTbIncWrite {v : W32} (hs : Canonical s) : CanonicalNext (execTbIncWrite v s) :=
  .next (.bar hs (.incWrite hs))

theorem CanonicalNext.execTbStepWrite {v : W32} (hs : Canonical s) : CanonicalNext (execTbStepWrite v s) :=
  .next (.bar hs (.stepWrite hs))

theorem CanonicalNext.execPtpSync {port : Fin 4} {twoStep : Bool} {offset : W32} (hs : Canonical s) :
    CanonicalNext (execPtpSync port twoStep offset s) :=
  .next (.ite hs (.ite (.ite hs (.servoSync hs)) (.unmatched hs)))

theorem CanonicalNext.execSyncTimeout (hs : Canonical s) : CanonicalNext (execSyncTimeout s) :=
  .next (.ite (.lockLost hs) hs)

theorem CanonicalNext.execBrChCfgWrite {ch : Fin 16} {v : W32} (hs : Canonical s) :
    CanonicalNext (execBrChCfgWrite ch v s) :=
  .next (.bar hs (.channelCfg hs))

theorem CanonicalNext.execQuadratureEdge {enc : Fin 16} {forward fast : Bool} (hs : Canonical s) :
    CanonicalNext (execQuadratureEdge enc forward fast s) :=
  .next (.ite hs (.forEach (fun _ _ hs => .channelEdge hs) (.setPort (.keep hs))))

theorem Canonical.channelIndex {c : Nat} (hs : Canonical s) : Canonical (channelIndex c s) :=
  .setBearing (.phaseForce hs)

theorem CanonicalNext.execZPulse {enc : Fin 16} (hs : Canonical s) : CanonicalNext (execZPulse enc s) :=
  .next (.ite hs (.naturalSample (.ite_else (.setPort hs) (fun h => .forEach (fun _ _ hs => .channelIndex hs) h))))

theorem CanonicalNext.execSsiFrame {enc : Fin 16} {resp : Option W32} {parityErr : Bool} (hs : Canonical s) :
    CanonicalNext (execSsiFrame enc resp parityErr s) :=
  .next (.ite hs (.serialStart (.serialEnd (.forEach (fun _ _ hs => .channelSsi hs) (.ite_else (.fset hs)
    .portError)))))

theorem CanonicalNext.execSsiPoll {enc : Fin 16} (hs : Canonical s) : CanonicalNext (execSsiPoll enc s) :=
  .next (.ite hs (.serialStart (.pollAsk hs)))

theorem CanonicalNext.execZeroCrossing {m : Fin 3} {periodNs : W32} (hs : Canonical s) :
    CanonicalNext (execZeroCrossing m periodNs s) :=
  .next (.ite hs (.naturalSample (.fset (.setPort (.mainsFreq (.forEach (fun _ _ hs => .channelMains hs) hs))))))

theorem CanonicalNext.execMainsPllTick {m : Fin 3} (hs : Canonical s) : CanonicalNext (execMainsPllTick m s) :=
  .next (.forEach (fun _ _ hs => .phaseUpdate hs) hs)

theorem CanonicalNext.execLineBreak {enc : Fin 16} (hs : Canonical s) : CanonicalNext (execLineBreak enc s) :=
  .next (.ite hs (.forEach (fun _ _ hs => .sourceLost hs) (.portError (.fset (.setPort hs)))))

theorem CanonicalNext.execMainsTimeout {m : Fin 3} (hs : Canonical s) : CanonicalNext (execMainsTimeout m s) :=
  .next (.forEach (fun _ _ hs => .setBearing (.sourceLost hs)) (.fset hs))

theorem CanonicalNext.execFrameStartTimeout {port : Fin 8} (hs : Canonical s) :
    CanonicalNext (execFrameStartTimeout port s) :=
  .next (.forEach (fun _ _ hs => .sourceLost hs) hs)

theorem CanonicalNext.execTimeAlarmFire {k : Fin 256} (hs : Canonical s) : CanonicalNext (execTimeAlarmFire k s) :=
  .next (.fireFirst hs)

theorem CanonicalNext.execAlArm {k : Fin 256} (hs : Canonical s) : CanonicalNext (execAlArm k s) :=
  .next (.bar hs (.ite (.accessFault hs) (.alarmArmBit hs)))

theorem CanonicalNext.execAlDisarm {k : Fin 256} (hs : Canonical s) : CanonicalNext (execAlDisarm k s) :=
  .next (.bar hs (.ite (.accessFault hs) (.alarmDisarmBit hs)))

theorem CanonicalNext.execTriggerEdge {n : Fin 8} {rising : Bool} (hs : Canonical s) :
    CanonicalNext (execTriggerEdge n rising s) :=
  .next (.ite hs (.ite_then (.ite_then (.windowEvent (.setPort hs)) .traceInput) .naturalSample))

theorem CanonicalNext.execFrameStart {port : Fin 8} {vc : Fin 16} (hs : Canonical s) :
    CanonicalNext (execFrameStart port vc s) :=
  .next (.ite hs (.csiFrameStart (.forEach (fun _ _ hs => .phaseForce hs) hs)))

theorem CanonicalNext.execLinePacket {port : Fin 8} {vc : Fin 16} {dt : BitVec 6} {data : List Byte}
    {eccLost crcOk : Bool} (hs : Canonical s) :
    CanonicalNext (execLinePacket port vc dt data eccLost crcOk s) :=
  .next (.ite hs (.ite (.portError hs) (.csiLine (.ite (.forEach (fun _ _ hs => .channelLine hs) (.setPort hs)) hs))))

theorem Canonical.alarmMark {c : Cmd} (hs : Canonical s) : Canonical (s.alarmMark c) := by
  unfold State.alarmMark
  split
  · exact .ite (.fset hs) hs
  · exact hs

theorem Canonical.alarmArmGo {c : Cmd} (hs : Canonical s) : Canonical (alarmArmGo c s) := by
  unfold State.alarmArmGo
  split
  · exact .finish (.alarmArmed (.fset (.fset (.ite_then (.rset (.fireFirst hs)) (fun h => .keep (.fset h))))))
  · exact hs

theorem CanonicalNext.execAlarmArm {r : Fin 128} {tag : Fin 512} (hs : Canonical s) :
    CanonicalNext (execAlarmArm r tag s) :=
  .next (.withCmd hs (fun _ _ hs => .enter (.ite (.alarmMark hs) hs) (fun _ hs => .alarmArmGo hs)))

theorem CanonicalNext.execAlarmDisarm {r : Fin 128} {tag : Fin 512} (hs : Canonical s) :
    CanonicalNext (execAlarmDisarm r tag s) := by
  refine .next (.begin hs (fun _ _ hs => ?_) (fun _ _ hs => hs))
  split
  · exact .finish (.alarmOff (.fireFirst hs))
  · exact hs

/-! The operations and commands of Machine/Partition -/

theorem Canonical.rgnEmpty {t g : Nat} (hs : Canonical s) : Canonical (s.rgnEmpty t g) := .ite (.emptyRegion hs) hs

theorem Canonical.rgnWrite {t g : Nat} {w : W64} (hs : Canonical s) : Canonical (s.rgnWrite t g w) :=
  .ite hs (.ite (.accessFault hs) (.rgnEmpty (.rset (.rgnEmpty hs))))

theorem Canonical.semWrite {n : Nat} {w : W64} (hs : Canonical s) : Canonical (s.semWrite n w) :=
  .ite (.accessFault hs) (.ite (.accessFault hs) (.fset (.fset (.fset (.fset (.fset hs))))))

theorem Canonical.commitBegin {c : Cmd} (hs : Canonical s) : Canonical (commitBegin c s) := by
  unfold State.commitBegin
  split
  · split
    · exact .finish (.ite hs (.fset (.fset hs)))
    · exact .ite (.finish hs) (.keep hs)
  · exact hs

theorem Canonical.scrubFrames {p : Nat} {fs : List Nat} (hs : Canonical s) : Canonical (s.scrubFrames p fs).2.2 :=
  .count (.charge (.forEach (fun _ _ hs => .countBlocks hs) (.filterHbm hs)))

theorem Canonical.stayClear {t c : Nat} (hs : Canonical s) : Canonical (stayClear t c s) := by
  unfold State.stayClear
  dsimp only
  split
  · exact .finish (.setStay (.stayStop hs))
  · exact .setStay (.stayStop hs)

theorem Canonical.tileClear {t : Nat} (hs : Canonical s) : Canonical (tileClear t s) :=
  .forEach (fun _ _ hs => .rreset hs) (.clearDeck (.forEach (fun _ _ hs => .stayClear hs) hs))

theorem Canonical.cfgApply {c : PartCfg} (hs : Canonical s) : Canonical (cfgApply c s) :=
  .forEach (fun _ _ hs => .fset (.fset hs)) (.forEach (fun _ _ hs => .keep (.rset hs)) (.fset (.fset hs)))

theorem Canonical.commitStep {c : Commit} (hs : Canonical s) : Canonical (s.commitStep c) := by
  unfold State.commitStep
  refine .finish (.recompute (.fset (.keep ?_)))
  refine .forEach (fun _ _ hs => .cfgApply hs) ?_
  refine .forEach (fun _ _ hs => .tileClear hs) ?_
  refine .forEach (fun x s hs => ?_) hs
  exact .ite hs (.scrubFrames hs)

theorem Canonical.stopCmds {f : Nat → Nat → Bool} (hs : Canonical s) : Canonical (s.stopCmds f) := by
  have hOwner (t c : Nat) (s : State) (hs : Canonical s) : Canonical (match (s.stay t c).owner with
      | some (.cmd r g) => if f r g then s.stayStop t c else s
      | _ => s) := by
    split
    · exact .ite (.stayStop hs) hs
    · exact hs
  unfold State.stopCmds
  extract_lets s1 ids s2 s3 s4 s5 s6 s7
  have h2 : Canonical s2 := .forEach (fun _ _ hs => .runStop hs) (.dropWaiters hs)
  have h3 : Canonical s3 := .forEach (fun t _ hs => .forEach (fun c _ hs => hOwner t c _ hs) hs) h2
  have h5 : Canonical s5 := .jobsDrop (.forEach (fun _ _ hs => .forEach (fun _ _ hs => .undefBuf hs) hs) h3)
  have h6 : Canonical s6 := by
    refine .forEach (fun k s hs => ?_) h5
    split
    · split
      · exact .ite (.setHashCtx hs) hs
      · exact hs
    · exact hs
  refine .forEach (fun c s hs => ?_) (.keep h6)
  split
  · exact .setMr hs
  · exact hs

theorem Canonical.scrubsOrphan {f : Nat → Nat → Bool} (hs : Canonical s) : Canonical (s.scrubsOrphan f) := by
  refine .forEach (fun _ _ hs => ?_) hs
  split
  · exact .ite (.keep hs) hs
  · exact hs

theorem Canonical.pwmReset {o : Nat} (hs : Canonical s) : Canonical (pwmReset o s) := .ite (.pwmSet hs) hs

theorem Canonical.outputsReset {p : Nat} (hs : Canonical s) : Canonical (s.outputsReset p) :=
  .forEach (fun _ _ hs => .fset (.setAdvTag hs)) (.forEach (fun _ _ hs => .setTxFrames hs) (.forEach (fun _ _ hs =>
    .fset (.setQueue hs)) (.forEach (fun _ _ hs => .triggerEnd hs) (.forEach (fun _ _ hs => .forEach (fun _ _ hs =>
    .pwmReset hs) (.fset (.setGroup hs))) hs))))

theorem Canonical.quiesce {p : Nat} (hs : Canonical s) : Canonical (s.quiesce p) :=
  .outputsReset (.forEach (fun _ _ hs => .descQuiet hs) (.forEach (fun _ _ hs => .windowClose hs) (.forEach (fun _ _
    hs => .alarmOff hs) (.keep (.forEach (fun _ _ hs => .forEach (fun _ _ hs => .stayStop hs) hs) (.forEach (fun _ _
    hs => .runStop hs) (.scrubsOrphan (.stopCmds (.fset (.fset hs))))))))))

theorem Canonical.drain {p : Nat} (hs : Canonical s) : Canonical (s.drain p) :=
  .forEach (fun _ _ hs => .halt hs) (.forEach (fun _ _ hs => .post hs) (.forEach (fun _ _ hs => .keep hs) (.forEach
    (fun _ _ hs => .lockAbandon hs) (.dropHeld hs))))

theorem Canonical.resetEnd {p st result : Nat} {x : Scrub} (hs : Canonical s) :
    Canonical (s.resetEnd p st result x) := by
  unfold State.resetEnd
  dsimp only
  split
  · exact .finish (.fset (.fset (.keep hs)))
  · exact .fset (.fset (.keep hs))

theorem Canonical.switchBegin {c : Cmd} {p : Nat} {pol : Option (List Byte)} (hs : Canonical s) :
    Canonical (s.switchBegin c p pol) := by
  refine .forEach (fun _ _ hs => .excGateOff hs) (.forEach (fun _ _ hs => .ite (.ctxFree hs) hs) (.forEach (fun _ _ hs
    => ?_) (.quiesce (.tdiEnter (.keep hs)))))
  split
  · exact .ite (.setHashCtx hs) hs
  · exact hs

theorem Canonical.policyRead {c : Cmd} {p : Nat} {d : BufDesc} (hs : Canonical s) :
    Canonical (s.policyRead c p d).2.2 :=
  .ite_snd_snd (.charge hs) (.hbmRead hs)

theorem Canonical.switchTry {c : Cmd} (hs : Canonical s) : Canonical (switchTry c s) := by
  unfold State.switchTry
  split
  next p pol _ =>
    refine .ite hs ?_
    cases pol with
    | none => exact .ite hs (.ite (.finish hs) (.ite (.finish hs) (.ite (.finish hs) (.switchBegin hs))))
    | some d =>
      have h : Canonical (s.policyRead c p d).2.2 := .policyRead hs
      exact .ite hs (.ite (.finish h) (.ite (.finish h) (.ite (.finish h) (.switchBegin h))))
  · exact hs

theorem Canonical.ringsReset {keepOwner : Bool} {r : Nat} (hs : Canonical s) : Canonical (ringsReset keepOwner r s) :=
  .ite_then (.keep (.rreset (.rreset (.rreset (.rreset (.rreset (.rreset hs))))))) .fset

theorem Canonical.outputsClear {p : Nat} (hs : Canonical s) : Canonical (s.outputsClear p) :=
  .forEach (fun _ _ hs => .setQueue (.rreset (.rreset (.rreset (.rreset hs))))) (.forEach (fun _ _ hs => .rreset hs)
    (.forEach (fun _ _ hs => .setGroup (.rreset (.rreset (.forEach (fun _ _ hs => .setPwm (.rreset (.rreset (.rreset
    (.rreset hs))))) hs)))) hs))

theorem Canonical.descReset {n : Nat} (hs : Canonical s) : Canonical (descReset n s) :=
  .setDesc (.rreset (.rreset (.rreset (.rreset (.rreset (.rreset (.rreset (.rreset (.rreset hs)))))))))

theorem Canonical.excReset {c : Nat} (hs : Canonical s) : Canonical (excReset c s) :=
  .ite_then (.rreset (.rreset (.rreset (.rreset hs)))) .fset

theorem Canonical.semReset {n : Nat} (hs : Canonical s) : Canonical (semReset n s) :=
  .setSemWaiters (.rreset (.rreset (.rreset hs)))

theorem Canonical.scrubUnits {p : Nat} (hs : Canonical s) : Canonical (s.scrubUnits p) :=
  .traceTenant (.fset (.keep (.forEach (fun _ _ hs => .fset hs) (.forEach (fun _ _ hs => .excReset hs) (.outputsClear
    (.forEach (fun _ _ hs => .descReset hs) (.forEach (fun _ _ hs => .ringsReset hs) (.forEach (fun _ _ hs =>
    .semReset hs) (.vaultClear (.forEach (fun _ _ hs => .setTile (.rreset (.tileClear hs))) (.keep hs)))))))))))

theorem Canonical.switchEnd {p us : Nat} {x : Scrub} (hs : Canonical s) : Canonical (s.switchEnd p us x) :=
  .event (.resetEnd (.fset (.fset (.fset (.fset (.fset (.fadd (.keep (.scrubFrames (.scrubUnits hs))))))))))

theorem Canonical.flr {p : Nat} (hs : Canonical s) : Canonical (s.flr p) :=
  .tdiError (.abandonWhere (.forEach (fun _ _ hs => .ringsReset hs) (.ite_then (.keep (.scrubsOrphan (.stopCmds hs)))
    .streamStop)))

theorem CanonicalNext.execDkRgnCfgWrite {t g : Fin 16} {v : W32} (hs : Canonical s) :
    CanonicalNext (execDkRgnCfgWrite t g v s) :=
  .next (.bar hs (.rgnWrite hs))

theorem CanonicalNext.execSemCfgWrite {fn : Fn} {sem : Fin 8192} {v : W32} (hs : Canonical s) :
    CanonicalNext (execSemCfgWrite fn sem v s) := by
  refine .next ?_
  split
  · exact .bar hs (.semWrite hs)
  · exact hs

theorem CanonicalNext.execTgCommit {r : Fin 128} {tag : Fin 512} (hs : Canonical s) :
    CanonicalNext (execTgCommit r tag s) :=
  .next (.begin hs (fun _ _ hs => .commitBegin hs) (fun _ _ hs => hs))

theorem CanonicalNext.execCommitScrubEnd (hs : Canonical s) : CanonicalNext (execCommitScrubEnd s) := by
  refine .next ?_
  split
  · exact .gatedAll hs (.commitStep hs)
  · exact hs

theorem CanonicalNext.execPartReset {r : Fin 128} {tag : Fin 512} (hs : Canonical s) :
    CanonicalNext (execPartReset r tag s) := by
  refine .next (.begin hs (fun _ _ hs => ?_) (fun _ _ hs => hs))
  split
  · exact .quiesce (.keep hs)
  · exact hs

theorem CanonicalNext.execPartResetDrained {p : Fin 8} (hs : Canonical s) :
    CanonicalNext (execPartResetDrained p s) := by
  refine .next ?_
  split
  · exact .ite hs (.gated hs (.ite (.keep (.drain hs)) (.resetEnd (.drain hs))))
  · exact hs

theorem CanonicalNext.execTenantSwitch {r : Fin 128} {tag : Fin 512} (hs : Canonical s) :
    CanonicalNext (execTenantSwitch r tag s) :=
  .next (.gatedAll hs (.begin hs (fun _ _ hs => .switchTry hs) (fun _ _ hs => .switchTry hs)))

theorem CanonicalNext.execScrubEnd {p : Fin 8} {us : W32} (hs : Canonical s) :
    CanonicalNext (execScrubEnd p us s) := by
  refine .next ?_
  split
  · exact .ite (.gated hs (.switchEnd hs)) hs
  · exact hs

theorem CanonicalNext.execFunctionLevelReset {p : Fin 8} (hs : Canonical s) :
    CanonicalNext (execFunctionLevelReset p s) :=
  .next (.flr hs)

/-! The operations and commands of Machine/Fetch -/

theorem Canonical.afterCheck {c : Cmd} {status : Nat} (hs : Canonical s) : Canonical (s.afterCheck c status) :=
  .ite (.passed hs) (.descMark (.alarmMark hs))

theorem Canonical.fetchPacket {r : Nat} {b : List Byte} {len : Nat} (hs : Canonical s) :
    Canonical (s.fetchPacket r b len) :=
  .ite (.takePacket hs) (.afterCheck (.takePacket hs))

theorem Canonical.fetchRing {r : Nat} (hs : Canonical s) : Canonical (s.fetchRing r) :=
  .ite (.halt hs) (.fetchTurn (.ite (.takePacket hs) (.fetchPacket hs)))

theorem CanonicalNext.execFetch {r : Fin 128} (hs : Canonical s) : CanonicalNext (execFetch r s) :=
  .next (.ite (.gated hs (.fetchRing hs)) hs)

/-! The operations and commands of Machine/Girder -/

theorem CanonicalDid.escapeUnderrun {x : Issue} {n : Nat} (hs : Canonical s) : CanonicalDid (s.escapeUnderrun x n) :=
  .stop (.fault (.writeUndef hs))

theorem CanonicalDid.products {x : Issue} {w : Weights} {phase : Nat} {key : W128}
    {terms : Nat → Nat × List Machine.Term} (hs : Canonical s) :
    CanonicalDid (s.products x w phase key terms) :=
  .writeOut (.ite (.warnSurplus hs) hs)

theorem CanonicalDid.ringMatmul {x : Issue} (hs : Canonical s) : CanonicalDid (s.ringMatmul x) := .writeOut hs

theorem CanonicalDid.doMatmul {x : Issue} (hs : Canonical s) : CanonicalDid (doMatmul x s) :=
  .ite (.ringMatmul hs) (.ite (.stop hs) (.ite (.escapeUnderrun hs) (.products hs)))

theorem CanonicalDid.windowed {x : Issue} {terms : Win → Weights → View → Nat → Nat × List Machine.Term}
    (hs : Canonical s) :
    CanonicalDid (s.windowed x terms) :=
  .ite (.stop hs) (.ite (.escapeUnderrun hs) (.products hs))

theorem CanonicalDid.doWindow {x : Issue} (hs : Canonical s) : CanonicalDid (doWindow x s) := .windowed hs

theorem CanonicalDid.doDepthwise {x : Issue} (hs : Canonical s) : CanonicalDid (doDepthwise x s) := .windowed hs

theorem CanonicalDid.doPool {x : Issue} (hs : Canonical s) : CanonicalDid (doPool x s) :=
  .ite (.stop hs) (.writeOut (.ite (.warnRun hs) hs))

theorem CanonicalNext.execMatmul {t : Fin 16} (hs : Canonical s) : CanonicalNext (execMatmul t s) :=
  .next (.issue hs (fun _ _ hs => .doMatmul hs))

theorem CanonicalNext.execWindow {t : Fin 16} (hs : Canonical s) : CanonicalNext (execWindow t s) :=
  .next (.issue hs (fun _ _ hs => .doWindow hs))

theorem CanonicalNext.execDepthwise {t : Fin 16} (hs : Canonical s) : CanonicalNext (execDepthwise t s) :=
  .next (.issue hs (fun _ _ hs => .doDepthwise hs))

theorem CanonicalNext.execPool {t : Fin 16} (hs : Canonical s) : CanonicalNext (execPool t s) :=
  .next (.issue hs (fun _ _ hs => .doPool hs))

/-! The operations and commands of Machine/MemFaults -/

theorem Canonical.publishMask (hs : Canonical s) : Canonical s.publishMask := .forEach (fun _ _ hs => .toPool hs) hs

theorem Canonical.retirePc {pc cause : Nat} {a : W64} {frame : W32} (hs : Canonical s) :
    Canonical (s.retirePc pc cause a frame) :=
  .publishMask (.recompute (.event (.filterHbm (.fset (.fault hs)))))

theorem Canonical.ceEnd {pc : Nat} (hs : Canonical s) : Canonical (ceEnd pc s) :=
  .ite_then (.fset hs) (fun h => .retirePc (.draw (.draw h)))

theorem CanonicalNext.execHbmCorrectedError {pc : Fin 64} (hs : Canonical s) :
    CanonicalNext (execHbmCorrectedError pc s) :=
  .next (.count (.keep hs))

theorem CanonicalNext.execHbmCeIntervalEnd (hs : Canonical s) : CanonicalNext (execHbmCeIntervalEnd s) :=
  .next (.keep (.forEach (fun _ _ hs => .ceEnd hs) hs))

theorem CanonicalNext.execHbmUncorrectableError {addr : BitVec 36} (hs : Canonical s) :
    CanonicalNext (execHbmUncorrectableError addr s) :=
  .next (.ite hs (.ite (.retirePc hs) (.event (.fault (.keep (.fset hs))))))

theorem Canonical.evrCfgWrite {v : W32} (hs : Canonical s) : Canonical (s.evrCfgWrite v) := by
  unfold State.evrCfgWrite
  extract_lets w was old late log s1 s2 s3 s4 s5
  have h3 : Canonical s3 := .fset (.fset (.fset (.fset (.ite (.accessFault hs) hs))))
  have h5 : Canonical s5 := .eventsLost (.keep (.rset (.fset h3)))
  refine .ite (.fset h3) (.ite h3 ?_)
  split
  · exact .event (.keep h5)
  · exact h5

theorem CanonicalNext.execEventRingEnable {v : W32} (hs : Canonical s) : CanonicalNext (execEventRingEnable v s) :=
  .next (.bar hs (.evrCfgWrite hs))

/-! The operations and commands of Machine/Spdm -/

theorem Canonical.setSession {k : Nat} {handshake open_ : Bool} (hs : Canonical s) :
    Canonical (s.setSession k handshake open_) :=
  .keep hs

theorem Canonical.ansKeyExchange {slot : Nat} {exch : List Byte} (hs : Canonical s) :
    Canonical (ansKeyExchange slot exch s).2 := by
  unfold State.ansKeyExchange
  refine .ite_snd hs ?_
  refine .ite_snd hs ?_
  split
  · exact .setSession hs
  · exact hs

theorem Canonical.ansFinish {k : Nat} {verify : List Byte} (hs : Canonical s) : Canonical (ansFinish k verify s).2 :=
  .ite_snd hs (.ite_snd (.setSession hs) (.setSession hs))

theorem Canonical.ansEndSession {k : Nat} (hs : Canonical s) : Canonical (ansEndSession k s).2 := .setSession hs

theorem Canonical.ansChunkSend {handle : Byte} {last : Bool} {data : List Byte} (hs : Canonical s) :
    Canonical (ansChunkSend handle last data s).2 :=
  .keep hs

theorem Canonical.ansSetCertificate {ses : Session} {slot : Nat} {chain : List Byte} (hs : Canonical s) :
    Canonical (ansSetCertificate ses slot chain s).2 :=
  .ite_snd hs (.ite_snd hs (.keep hs))

theorem Canonical.ansKeyGo {ses : Session} {n : Nat} (hs : Canonical s) : Canonical (ansKeyGo ses n s).2 :=
  .ite_snd hs (.keep hs)

theorem Canonical.tdisp {ses : Session} {ans : State → Resp × State} (hans : ∀ s, Canonical s → Canonical (ans s).2)
    (hs : Canonical s) :
    Canonical (tdisp ses ans s).2 :=
  .ite_snd hs (hans _ hs)

theorem Canonical.ansLock {p : Nat} (hs : Canonical s) : Canonical (ansLock p s).2 := .ite_snd hs (.fset hs)

theorem Canonical.ansStart {p : Nat} (hs : Canonical s) : Canonical (ansStart p s).2 := .ite_snd (.fset hs) hs

theorem Canonical.ansStop {p : Nat} (hs : Canonical s) : Canonical (ansStop p s).2 := .fset hs

theorem Canonical.answerOf {i : Instr} (hs : Canonical s) : Canonical (answerOf i s).2 := by
  unfold State.answerOf
  split
  · exact hs
  · exact hs
  · exact hs
  · exact hs
  · exact hs
  · exact hs
  · exact hs
  · exact .ansKeyExchange hs
  · exact .ansFinish hs
  · exact hs
  · exact hs
  · exact .ansEndSession hs
  · exact .ansChunkSend hs
  · exact hs
  · exact hs
  · exact .ansSetCertificate hs
  · exact .ansKeyGo hs
  · exact .tdisp (fun _ hs => hs) hs
  · exact .tdisp (fun _ hs => hs) hs
  · exact .tdisp (fun _ hs => .ansLock hs) hs
  · exact .tdisp (fun _ hs => hs) hs
  · exact .tdisp (fun _ hs => hs) hs
  · exact .tdisp (fun _ hs => .ansStart hs) hs
  · exact .tdisp (fun _ hs => .ansStop hs) hs
  · exact hs

theorem Canonical.respond {r : Resp} (hs : Canonical s) : Canonical (s.respond r) := .count (.emit hs)

theorem Canonical.request {i : Instr} {ses : Session} {inRecovery : Bool} (hs : Canonical s) :
    Canonical (s.request i ses inRecovery) :=
  .ite hs (.ite (.emit hs) (.ite hs (.ite (.respond (.keep hs)) (.respond (.answerOf hs)))))

theorem Canonical.requestDeferred {token : Nat} {ses : Session} (hs : Canonical s) :
    Canonical (s.requestDeferred token ses) := by
  unfold State.requestDeferred
  refine .ite hs (.ite (.emit hs) (.ite hs (.ite (.respond hs) ?_)))
  split
  · exact .respond (.answerOf (.keep hs))
  · exact .respond hs

theorem CanonicalNext.execSpdmGetVersion {ses : Session} (hs : Canonical s) :
    CanonicalNext (execSpdmGetVersion ses s) :=
  .next (.request hs)

theorem CanonicalNext.execSpdmGetCapabilities {ses : Session} (hs : Canonical s) :
    CanonicalNext (execSpdmGetCapabilities ses s) :=
  .next (.request hs)

theorem CanonicalNext.execSpdmNegotiateAlgorithms {ses : Session} (hs : Canonical s) :
    CanonicalNext (execSpdmNegotiateAlgorithms ses s) :=
  .next (.request hs)

theorem CanonicalNext.execSpdmGetDigests {ses : Session} (hs : Canonical s) :
    CanonicalNext (execSpdmGetDigests ses s) :=
  .next (.request hs)

theorem CanonicalNext.execSpdmGetCertificate {ses : Session} {slot : Fin 8} (hs : Canonical s) :
    CanonicalNext (execSpdmGetCertificate ses slot s) :=
  .next (.request hs)

theorem CanonicalNext.execSpdmChallenge {ses : Session} {slot : Fin 8} {nonce : List Byte} (hs : Canonical s) :
    CanonicalNext (execSpdmChallenge ses slot nonce s) :=
  .next (.request hs)

theorem CanonicalNext.execSpdmGetMeasurements {ses : Session} {index : Fin 256} {nonce : List Byte} (hs : Canonical s) :
    CanonicalNext (execSpdmGetMeasurements ses index nonce s) :=
  .next (.request hs)

theorem CanonicalNext.execSpdmKeyExchange {ses : Session} {slot : Fin 8} {exch : List Byte} (hs : Canonical s) :
    CanonicalNext (execSpdmKeyExchange ses slot exch s) :=
  .next (.request hs)

theorem CanonicalNext.execSpdmFinish {ses : Fin 4} {verify : List Byte} (hs : Canonical s) :
    CanonicalNext (execSpdmFinish ses verify s) :=
  .next (.request hs)

theorem CanonicalNext.execSpdmHeartbeat {ses : Fin 4} (hs : Canonical s) : CanonicalNext (execSpdmHeartbeat ses s) :=
  .next (.request hs)

theorem CanonicalNext.execSpdmKeyUpdate {ses : Fin 4} (hs : Canonical s) : CanonicalNext (execSpdmKeyUpdate ses s) :=
  .next (.request hs)

theorem CanonicalNext.execSpdmEndSession {ses : Fin 4} (hs : Canonical s) :
    CanonicalNext (execSpdmEndSession ses s) :=
  .next (.request hs)

theorem CanonicalNext.execSpdmRespondIfReady {ses : Session} {token : Nat} (hs : Canonical s) :
    CanonicalNext (execSpdmRespondIfReady ses token s) :=
  .next (.requestDeferred hs)

theorem CanonicalNext.execSpdmChunkSend {ses : Session} {handle : Byte} {last : Bool} {data : List Byte}
    (hs : Canonical s) :
    CanonicalNext (execSpdmChunkSend ses handle last data s) :=
  .next (.request hs)

theorem CanonicalNext.execSpdmChunkGet {ses : Session} {handle : Byte} {seq : Nat} (hs : Canonical s) :
    CanonicalNext (execSpdmChunkGet ses handle seq s) :=
  .next (.request hs)

theorem CanonicalNext.execSpdmGetCsr {ses : Session} (hs : Canonical s) : CanonicalNext (execSpdmGetCsr ses s) :=
  .next (.request hs)

theorem CanonicalNext.execSpdmSetCertificate {ses : Session} {slot : Fin 8} {chain : List Byte} (hs : Canonical s) :
    CanonicalNext (execSpdmSetCertificate ses slot chain s) :=
  .next (.request hs)

theorem CanonicalNext.execIdeKSetGo {ses : Session} {stream : Fin 9} (hs : Canonical s) :
    CanonicalNext (execIdeKSetGo ses stream s) :=
  .next (.request hs)

theorem CanonicalNext.execTdispGetVersion {ses : Session} {p : Fin 8} (hs : Canonical s) :
    CanonicalNext (execTdispGetVersion ses p s) :=
  .next (.request hs)

theorem CanonicalNext.execTdispGetCapabilities {ses : Session} {p : Fin 8} (hs : Canonical s) :
    CanonicalNext (execTdispGetCapabilities ses p s) :=
  .next (.request hs)

theorem CanonicalNext.execTdispLock {ses : Session} {p : Fin 8} (hs : Canonical s) :
    CanonicalNext (execTdispLock ses p s) :=
  .next (.request hs)

theorem CanonicalNext.execTdispGetReport {ses : Session} {p : Fin 8} (hs : Canonical s) :
    CanonicalNext (execTdispGetReport ses p s) :=
  .next (.request hs)

theorem CanonicalNext.execTdispGetState {ses : Session} {p : Fin 8} (hs : Canonical s) :
    CanonicalNext (execTdispGetState ses p s) :=
  .next (.request hs)

theorem CanonicalNext.execTdispStart {ses : Session} {p : Fin 8} (hs : Canonical s) :
    CanonicalNext (execTdispStart ses p s) :=
  .next (.request hs)

theorem CanonicalNext.execTdispStop {ses : Session} {p : Fin 8} (hs : Canonical s) :
    CanonicalNext (execTdispStop ses p s) :=
  .next (.request hs)

/-! The operations and commands of Machine/PowerUp -/

theorem Canonical.deviceReset {cause : Nat} (hs : Canonical s) : Canonical (s.deviceReset cause) :=
  .fset (.fset ⟨rfl, rfl, hs.2.2.1, rfl, rfl⟩)

theorem Canonical.release (hs : Canonical s) : Canonical s.release := .ite (.fset (.keep hs)) hs

theorem Canonical.trip {cause : Nat} (hs : Canonical s) : Canonical (s.trip cause) := .fset (.deviceReset (.keep hs))

theorem Canonical.loadFuses (hs : Canonical s) : Canonical s.loadFuses :=
  .fset (.fset (.fset (.fset (.fset (.fset hs)))))

theorem Canonical.sealTag {k : Nat} {w : WlTag} (hs : Canonical s) : Canonical (sealTag k w s) :=
  .setAdvTag (.rset (.rset (.rset hs)))

theorem Canonical.sealWhitelist {w : Option WlImage} (hs : Canonical s) : Canonical (s.sealWhitelist w) := by
  unfold State.sealWhitelist
  split
  · exact hs
  · exact .fset (.fset (.forEach (fun _ _ hs => .sealTag hs) (.keep hs)))

theorem Canonical.loadPool {b : Bank} (hs : Canonical s) : Canonical (s.loadPool b) := by
  unfold State.loadPool
  extract_lets s1
  have h1 : Canonical s1 := by
    unfold s1
    split
    · exact .rset hs
    · exact hs
  split
  · exact .fset (.fset (.fset h1))
  · exact h1

theorem Canonical.bootBank {b : Nat} (hs : Canonical s) : Canonical (s.bootBank b) :=
  .loadPool (.sealWhitelist (.keep (.fset (.fset hs))))

theorem Canonical.boot (hs : Canonical s) : Canonical s.boot :=
  .ite (.bootBank (.keep (.loadFuses hs))) (.ite (.keep (.bootBank (.keep (.loadFuses hs)))) (.fset (.keep (.keep
    (.loadFuses hs)))))

theorem Canonical.trainFail {pc : Nat} (hs : Canonical s) : Canonical (trainFail pc s) := .retirePc hs

theorem Canonical.trainEnd {failed : W64} (hs : Canonical s) : Canonical (s.trainEnd failed) :=
  .keep (.fset (.fset (.forEach (fun _ _ hs => .trainFail hs) hs)))

theorem Canonical.perst (hs : Canonical s) : Canonical s.perst :=
  .abandonWhere (.forEach (fun _ _ hs => .tdiEnter hs) (.keep (.ite_then (.forEach (fun _ _ hs => .ringsReset hs)
    (.keep (.scrubsOrphan (.stopCmds (.fset hs))))) .fset)))

theorem Canonical.railLevel {r : Rail} {pct : Nat} (hs : Canonical s) : Canonical (s.railLevel r pct) :=
  .ite_then (.keep hs) (fun h => .fset (.keep h))

theorem CanonicalNext.execSupplyGood (hs : Canonical s) : CanonicalNext (execSupplyGood s) :=
  .next (.ite hs (.release (.deviceReset (.keep hs))))

theorem CanonicalNext.execPwrGoodFall (hs : Canonical s) : CanonicalNext (execPwrGoodFall s) :=
  .next (.ite (.deviceReset (.keep hs)) hs)

theorem CanonicalNext.execResetN {low : Bool} (hs : Canonical s) : CanonicalNext (execResetN low s) :=
  .next (.ite (.deviceReset (.keep hs)) (.ite (.release (.keep hs)) hs))

theorem CanonicalNext.execSupplyDrop (hs : Canonical s) : CanonicalNext (execSupplyDrop s) :=
  .next (.ite (.deviceReset (.keep hs)) hs)

theorem CanonicalNext.execPllLock (hs : Canonical s) : CanonicalNext (execPllLock s) := .next (.ite (.keep hs) hs)

theorem CanonicalNext.execBootComplete (hs : Canonical s) : CanonicalNext (execBootComplete s) :=
  .next (.ite (.boot hs) hs)

theorem CanonicalNext.execHubRelease (hs : Canonical s) : CanonicalNext (execHubRelease s) :=
  .next (.ite (.keep (.forEach (fun _ _ hs => .setAdvTag hs) hs)) hs)

theorem CanonicalNext.execHbmTrainingEnd {failed : W64} (hs : Canonical s) :
    CanonicalNext (execHbmTrainingEnd failed s) :=
  .next (.ite (.trainEnd hs) hs)

theorem CanonicalNext.execMemoryReady (hs : Canonical s) : CanonicalNext (execMemoryReady s) :=
  .next (.ite (.heldActive (.fset (.keep hs))) hs)

theorem CanonicalNext.execHostReady (hs : Canonical s) : CanonicalNext (execHostReady s) :=
  .next (.ite (.ite_else (.fset (.keep hs)) .fset) hs)

theorem CanonicalNext.execPtpServoStart (hs : Canonical s) : CanonicalNext (execPtpServoStart s) :=
  .next (.ite (.fset (.keep hs)) hs)

theorem CanonicalNext.execPerstAssert (hs : Canonical s) : CanonicalNext (execPerstAssert s) :=
  .next (.ite hs (.perst hs))

theorem CanonicalNext.execPerstDeassert (hs : Canonical s) : CanonicalNext (execPerstDeassert s) :=
  .next (.ite (.keep hs) hs)

theorem CanonicalNext.execConfigRequest (hs : Canonical s) : CanonicalNext (execConfigRequest s) :=
  .next (.ite hs (.emit hs))

theorem CanonicalNext.execPcieRetrain {gts width : Nat} (hs : Canonical s) :
    CanonicalNext (execPcieRetrain gts width s) :=
  .next (.ite hs (.recompute (.fset hs)))

theorem CanonicalNext.execSupplyRailChange {rail : Rail} {percent : Nat} (hs : Canonical s) :
    CanonicalNext (execSupplyRailChange rail percent s) :=
  .next (.railLevel hs)

/-! The operations and commands of Machine/RegWrite -/

theorem Canonical.fieldsWrite {r : Reg} {k : Nat} {v : W64} (hs : Canonical s) : Canonical (s.fieldsWrite r k v) :=
  .rset hs

theorem Canonical.idleWrite {r : Reg} {k : Nat} {v : W64} {busy : Bool} (hs : Canonical s) :
    Canonical (s.idleWrite r k v busy) :=
  .ite (.accessFault hs) (.fieldsWrite hs)

theorem Canonical.portOff {n off : Nat} (hs : Canonical s) : Canonical (s.portOff n off) :=
  .ite_else (.fset hs) (fun h => .ite (.portHeld h) (.setPort h))

theorem Canonical.portCfg {n : Nat} {v : W64} (hs : Canonical s) : Canonical (s.portCfg n v) :=
  .ite hs (.ite (.fset (.portOff hs)) (.fset (.portOff hs)))

theorem Canonical.alStatWrite {k : Nat} {v : W64} (hs : Canonical s) : Canonical (s.alStatWrite k v) :=
  .ite (.accessFault hs) (.ite_then (.ite_then (.fieldsWrite hs) .alarmArmBit) .alarmDisarmBit)

theorem Canonical.winStatWrite {w : Nat} {v : W64} (hs : Canonical s) : Canonical (s.winStatWrite w v) :=
  .ite_then (.ite_then (.fieldsWrite hs) .windowArm) .windowDisarm

theorem Canonical.dCtrlWrite {n : Nat} {v : W64} (hs : Canonical s) : Canonical (s.dCtrlWrite n v) :=
  .ite (.accessFault hs) (.ite_then (.ite_then (.fieldsWrite hs) .descArmBit) .descDisarm)

theorem Canonical.excCtrlWrite {c : Nat} {v : W64} (hs : Canonical s) : Canonical (s.excCtrlWrite c v) := by
  unfold State.excCtrlWrite
  split
  · exact .excTurnOn hs
  · exact .excTurnOff hs
  · exact .excClear hs
  · exact hs

theorem Canonical.trigWrite {t : Nat} {v : W64} (hs : Canonical s) : Canonical (s.trigWrite t v) :=
  .ite_else (.fieldsWrite hs) .triggerEnd

theorem Canonical.ringPfWrite {r : Reg} {k : Nat} {v : W64} {base : Bool} (hs : Canonical s) :
    Canonical (s.ringPfWrite r k v base) :=
  .ite hs (.idleWrite hs)

theorem Canonical.shareTags {p : Nat} {v : W64} (hs : Canonical s) : Canonical (s.shareTags p v) := .idleWrite hs

theorem Canonical.evrHeadWrite {v : W64} (hs : Canonical s) : Canonical (s.evrHeadWrite v) :=
  .ite (.eventsLost (.fset hs)) hs

theorem Canonical.linkCtrlWrite {l : Nat} {v : W64} (hs : Canonical s) : Canonical (s.linkCtrlWrite l v) :=
  .ite_then (.ite (.linkRestore hs) hs) .linkDisable

theorem Canonical.fwCtrlWrite {v : W64} (hs : Canonical s) : Canonical (s.fwCtrlWrite v) := by
  unfold State.fwCtrlWrite
  dsimp only
  split
  · exact .fwStage hs
  · exact .fwCtrl hs (fun _ hs => .fwLive hs)
  · exact .fwCtrl hs (fun _ hs => .fwAtReset hs)
  · exact .fwCtrl hs (fun _ hs => .fwCommit hs)
  · exact .fwCtrl hs (fun _ hs => .fwDrop hs)
  · exact .fieldsWrite hs

theorem Canonical.pfWrite {r : Reg} {k : Nat} {v : W64} (hs : Canonical s) : Canonical (s.pfWrite r k v) := by
  unfold State.pfWrite
  dsimp only
  split
  · exact .incWrite hs
  · exact .stepWrite hs
  · exact .channelCfg hs
  · exact .idleWrite hs
  · exact .idleWrite hs
  · exact .idleWrite hs
  · exact .alStatWrite hs
  · exact .idleWrite hs
  · exact .idleWrite hs
  · exact .winStatWrite hs
  · exact .portCfg hs
  · exact .idleWrite hs
  · exact .idleWrite hs
  · exact .idleWrite hs
  · exact .idleWrite hs
  · exact .dCtrlWrite hs
  · exact .idleWrite hs
  · exact .idleWrite hs
  · exact .excCtrlWrite hs
  · exact .pwmCfgWrite hs
  · exact .idleWrite hs
  · exact .idleWrite hs
  · exact .grpCfgWrite hs
  · exact .trigWrite hs
  · exact .dqCfgWrite hs
  · exact .idleWrite hs
  · exact .advSrcWrite hs
  · exact .ringCfgWrite hs
  · exact .ringPfWrite hs
  · exact .ringPfWrite hs
  · exact .ringPfWrite hs
  · exact .ringPfWrite hs
  · exact .shareTags hs
  · exact .doorbell hs (fun _ hs => .dbSq hs)
  · exact .doorbell hs (fun _ hs => .dbCq hs)
  · exact .rgnWrite hs
  · exact .semWrite hs
  · exact .evrCfgWrite hs
  · exact .idleWrite hs
  · exact .evrHeadWrite hs
  · exact .nodeWrite hs
  · exact .exportWrite hs
  · exact .grantWrite hs
  · exact .linkCtrlWrite hs
  · exact .evcCtrl hs
  · exact .evcCfg hs
  · exact .fwCtrlWrite hs
  · exact .debugWrite hs
  · exact .shareWrite hs
  · exact .idleWrite hs
  · exact .idleWrite hs
  · exact .fieldsWrite hs

theorem Canonical.vfWrite {p : Fin 8} {off : Nat} {r : Reg} {k : Nat} {v : W64} (hs : Canonical s) :
    Canonical (s.vfWrite p off r k v) := by
  unfold State.vfWrite
  split
  · exact .ringCfgWrite hs
  · exact .ite (.accessFault hs) (.fieldsWrite hs)
  · exact .ite (.accessFault hs) (.fieldsWrite hs)
  · exact .fieldsWrite hs
  · exact .fieldsWrite hs
  · exact .doorbell hs (fun _ hs => .dbSq hs)
  · exact .doorbell hs (fun _ hs => .dbCq hs)
  · exact hs

theorem Canonical.wholeWrite {fn : Fn} {a : Nat} {r : Reg} {k : Nat} {v : W64} (hs : Canonical s) :
    Canonical (s.wholeWrite fn a r k v) := by
  unfold State.wholeWrite
  split
  · exact .ite (.accessFault hs) (.pfWrite hs)
  · exact .vfWrite hs

theorem Canonical.busWrite {fn : Fn} {a width : Nat} {data : W64} (hs : Canonical s) :
    Canonical (s.busWrite fn a width data) := by
  unfold State.busWrite
  dsimp only
  split
  · exact .ite (.wholeWrite hs) (.accessFault hs)
  · exact .ite (.accessFault hs) hs

theorem Canonical.reach {fn : Fn} {a : Nat} {t : State} (hs : Canonical s) (ht : Canonical t) :
    Canonical (s.reach fn a t) :=
  .ite (.ite hs ht) (.bar hs ht)

theorem CanonicalNext.execPortCfgWrite {n : Fin 64} {v : W32} (hs : Canonical s) :
    CanonicalNext (execPortCfgWrite n v s) :=
  .next (.bar hs (.portCfg hs))

theorem CanonicalNext.execRegisterWrite {fn : Fn} {addr width : Nat} {data : W64} (hs : Canonical s) :
    CanonicalNext (execRegisterWrite fn addr width data s) :=
  .next (.reach hs (.busWrite hs))

/-! The operations and commands of Machine/Serving -/

theorem Canonical.joinOk {r : Run} {h : List Byte} {x : Row} (hs : Canonical s) : Canonical (s.joinOk r h x).2 := by
  have hr : Canonical (s.hbmRead r.part 1 (runRt r) (rowPt x) 8).2.2 := .hbmRead hs
  refine .ite_snd hs ?_
  split
  next heq => exact .of_snd_snd heq hr
  next heq => exact .of_snd_snd heq hr

theorem Canonical.overRows {f : Row → State → Row × Checked × State} {xs : List Row} (hs : Canonical s)
    (hf : ∀ x s, Canonical s → Canonical (f x s).2.2) :
    Canonical (overRows f xs s).2.2.2 := by
  induction xs generalizing s with
  | nil => exact hs
  | cons x xs ih =>
    unfold State.overRows
    split
    next heq => exact .of_snd_snd heq (hf x s hs)
    next heq => exact ih (.of_snd_snd heq (hf x s hs))

theorem Canonical.recheckRow {r : Run} {h : List Byte} {x : Row} (hs : Canonical s) :
    Canonical (recheckRow r h x s).2.2 := by
  have hj : Canonical (s.joinOk r h x).2 := .joinOk hs
  refine .ite_snd_snd hs (.ite_snd_snd ?_ hs)
  split
  next heq => exact .of_snd heq hj
  next heq => exact .of_snd heq hj

theorem Canonical.visitRow {r : Run} {h : List Byte} {x : Row} (hs : Canonical s) :
    Canonical (visitRow r h x s).2.2 := by
  have hj : Canonical (s.joinOk r h x).2 := .joinOk hs
  unfold State.visitRow
  split
  · split
    next heq => exact .of_snd heq hj
    next heq => exact .of_snd heq hj
  · exact hs
  · exact hs

theorem Canonical.visitRows {r : Run} {h : List Byte} {ab : Bool} {rows : List Row} (hs : Canonical s) :
    Canonical (s.visitRows r h ab rows).2.2.2 := by
  have hr : Canonical (if ab then State.overRows (State.recheckRow r h) rows s else (rows, false, 0, s)).2.2.2 :=
    .ite_snd_snd_snd (.overRows hs (fun _ _ hs => .recheckRow hs)) hs
  unfold State.visitRows
  split
  next heq => exact .overRows (.of_snd_snd_snd heq hr) (fun _ _ hs => .visitRow hs)
  · exact hr

theorem Canonical.advanceRow {r : Run} {i : Nat} {x : Row} (hs : Canonical s) :
    Canonical (advanceRow r i x s).2.2 := by
  have hw (a : Nat) (bs : List Byte) : Canonical (if bs.isEmpty then (0, s) else
      if s.hbmCheck r.part a bs.length = 0 then s.hbmWrite r.part (runRt r) a bs else (0x0201, s)).2 :=
    .ite_snd hs (.ite_snd (.hbmWrite hs) hs)
  refine .ite_snd_snd ?_ hs
  dsimp only
  split
  next heq => exact .ite_snd_snd (.of_snd heq (hw _ _)) (.of_snd heq (hw _ _))
  next heq => exact .ite_snd_snd (.of_snd heq (hw _ _)) (.of_snd heq (hw _ _))

theorem Canonical.advanceRows {r : Run} {i : Nat} {xs : List Row} (hs : Canonical s) :
    Canonical (advanceRows r i xs s).2.2.2 := by
  induction xs generalizing i s with
  | nil => exact hs
  | cons x xs ih =>
    have h : Canonical (State.advanceRow r i x s).2.2 := .advanceRow hs
    unfold State.advanceRows
    split
    next heq => exact .of_snd_snd heq h
    next heq => exact ih (.of_snd_snd heq h)

theorem Canonical.readRows {r : Run} {a : Nat} {h : List Byte} (hs : Canonical s) :
    Canonical (s.readRows r a h).2.2 :=
  .ite_snd_snd hs (.hbmRead hs)

theorem Canonical.writeRows {r : Run} {a : Nat} {rows : List Row} (hs : Canonical s) :
    Canonical (s.writeRows r a rows) :=
  .ite hs (.hbmWrite hs)

theorem Canonical.stepRows {r : Run} {a : Nat} {h : List Byte} (hs : Canonical s) :
    Canonical (s.stepRows r a h).2 := by
  have hr : Canonical (s.readRows r a h).2.2 := .readRows hs
  refine .ite_snd hs ?_
  split
  next rows s1 heq =>
    have ha : Canonical (State.advanceRows r 0 rows s1).2.2.2 := .advanceRows (.of_snd_snd heq hr)
    split
    next heq => exact .modRun (.writeRows (.of_snd_snd_snd heq ha))
    next heq => exact .of_snd_snd_snd heq ha
  next heq => exact .of_snd_snd heq hr

theorem Canonical.boundaryFail {r : Run} {st : Nat} {t : State} (hs : Canonical s) (ht : Canonical t) :
    Canonical (s.boundaryFail r st t) :=
  .ite hs (.runStop ht)

theorem Canonical.boundary {r : Run} {t a : Nat} {h : List Byte} (hs : Canonical s) :
    Canonical (s.boundary r t a h) := by
  have hr : Canonical (s.readRows r a h).2.2 := .readRows hs
  unfold State.boundary
  dsimp only
  split
  next rows s1 heq =>
    have hv (ab : Bool) : Canonical (s1.visitRows r h ab rows).2.2.2 := .visitRows (.of_snd_snd heq hr)
    split
    next heq =>
      have h1 := Canonical.of_snd_snd_snd heq (hv _)
      split
      · exact .ite (.endRun (.modRun (.modTile (.lockRelease (.writeRows h1))))) (.modRun (.modRun (.modTile
          (.lockRelease (.writeRows h1)))))
      · exact .modRun (.modTile (.lockRelease (.writeRows h1)))
    next heq => exact .boundaryFail hs (.of_snd_snd_snd heq (hv _))
  next heq => exact .boundaryFail hs (.of_snd_snd heq hr)

theorem Canonical.batchBoundary {r : Run} {t : Nat} {b : BufDesc} (hs : Canonical s) :
    Canonical (s.batchBoundary r t b) := by
  have hr : Canonical (s.hbmRead r.part 1 (runRt r) b.addr 64).2.2 := .hbmRead hs
  unfold State.batchBoundary
  split
  next h s1 heq =>
    have hw : Canonical (s1.stepRows r b.addr h).2 := .stepRows (.of_snd_snd heq hr)
    split
    next s2 heq =>
      have h2 : Canonical s2 := .of_snd heq hw
      have hq (w : Waiter) : Canonical (s2.semRequest (hdrLock h) w).2 := .semRequest h2
      refine .ite (.runStop h2) (.ite (.runStop h2) (.ite (.boundary h2) ?_))
      split
      next heq => exact .boundary (.modTile (.of_snd heq (hq _)))
      next heq => exact .waitSem (.of_snd heq (hq _))
    next heq => exact .boundaryFail hs (.of_snd heq hw)
  next heq => exact .boundaryFail hs (.of_snd_snd heq hr)

theorem CanonicalNext.execBatchBoundary {t : Fin 16} (hs : Canonical s) : CanonicalNext (execBatchBoundary t s) := by
  refine .next (.gated hs ?_)
  split
  · exact hs
  · split
    · exact .ite (.batchBoundary hs) hs
    · exact hs

/-! The operations and commands of Machine/TestAccess -/

theorem Canonical.scanLoad {code : Nat} (hs : Canonical s) : Canonical (s.scanLoad code) := .keep hs

theorem Canonical.plainLoad {code : Nat} (hs : Canonical s) : Canonical (s.plainLoad code) := .keep hs

theorem CanonicalNext.execJtagExtest (hs : Canonical s) : CanonicalNext (execJtagExtest s) := .next (.scanLoad hs)

theorem CanonicalNext.execJtagIdcode (hs : Canonical s) : CanonicalNext (execJtagIdcode s) :=
  .next (.emit (.plainLoad hs))

theorem CanonicalNext.execJtagSamplePreload (hs : Canonical s) : CanonicalNext (execJtagSamplePreload s) :=
  .next (.plainLoad hs)

theorem CanonicalNext.execJtagClamp (hs : Canonical s) : CanonicalNext (execJtagClamp s) := .next (.scanLoad hs)

theorem CanonicalNext.execJtagHighz (hs : Canonical s) : CanonicalNext (execJtagHighz s) := .next (.scanLoad hs)

theorem CanonicalNext.execJtagExtestPulse (hs : Canonical s) : CanonicalNext (execJtagExtestPulse s) :=
  .next (.scanLoad hs)

theorem CanonicalNext.execJtagExtestTrain (hs : Canonical s) : CanonicalNext (execJtagExtestTrain s) :=
  .next (.scanLoad hs)

theorem CanonicalNext.execJtagBypass (hs : Canonical s) : CanonicalNext (execJtagBypass s) := .next (.plainLoad hs)

theorem CanonicalNext.execTestLogicReset (hs : Canonical s) : CanonicalNext (execTestLogicReset s) :=
  .next (.release (.keep hs))

/-! The operations and commands of Machine/Thermal -/

theorem Canonical.setInlet (hs : Canonical s) : Canonical s.setInlet := .fset hs

theorem Canonical.thermalFault {unit cause : Nat} {temp : Int} (hs : Canonical s) :
    Canonical (s.thermalFault unit cause temp) :=
  .fault hs

theorem Canonical.throttle {st tl : List Int} (hs : Canonical s) : Canonical (s.throttle st tl) := by
  unfold State.throttle
  split
  · exact .ite hs (.event (.thermalFault (.fset hs)))
  · exact hs

theorem Canonical.shutdown {st tl : List Int} (hs : Canonical s) : Canonical (s.shutdown st tl) := by
  unfold State.shutdown
  split
  · exact .keep hs
  · exact .ite (.event (.thermalFault (.keep hs))) (.ite_then (.keep hs) .trip)

theorem Canonical.sample {st tl : List Int} {power : Int} (hs : Canonical s) : Canonical (s.sample st tl power) := by
  unfold State.sample
  extract_lets s1 s2 hot s3 tin w w' s4 s5 s6 s7
  have h2 : Canonical s2 := .forEach (fun _ _ hs => .fset hs) (.forEach (fun _ _ hs => .fset hs) hs)
  have h3 : Canonical s3 := by
    unfold s3
    clear_value hot
    split
    · exact .fset h2
    · exact h2
  exact .shutdown (.ite_then (.throttle (.fset (.keep h3))) .count)

theorem Canonical.setDerate {d : Nat} (hs : Canonical s) : Canonical (s.setDerate d) :=
  .ite hs (.recompute (.count (.traceEv (.fset hs))))

theorem Canonical.rthHigh {ests noms : List W32} {hot : Nat} (hs : Canonical s) :
    Canonical (s.rthHigh ests noms hot) :=
  .keep (.forEach (fun _ _ hs => .event hs) (.ite hs (.fset hs)))

theorem Canonical.evaluate (hs : Canonical s) : Canonical s.evaluate :=
  .setDerate (.fset (.ite_then (.setInlet hs) (fun h => .rthHigh (.keep (.fset (.fset (.forEach (fun _ _ hs => .fset
    hs) h)))))))

theorem Canonical.readInlet {r : Option W16} (hs : Canonical s) : Canonical (s.readInlet r) := by
  unfold State.readInlet
  split
  · exact .setInlet (.fset (.keep hs))
  · exact .ite_then (.keep hs) (fun h => .event (.thermalFault (.setInlet (.fset h))))

theorem CanonicalNext.execThermalSample {stackT : Vector W16 4} {tileT : Vector W16 16} {power : W16}
    (hs : Canonical s) :
    CanonicalNext (execThermalSample stackT tileT power s) :=
  .next (.ite (.sample hs) hs)

theorem CanonicalNext.execThrottleClear (hs : Canonical s) : CanonicalNext (execThrottleClear s) :=
  .next (.ite (.event (.fset hs)) hs)

theorem CanonicalNext.execInletRead {reading : Option W16} (hs : Canonical s) :
    CanonicalNext (execInletRead reading s) :=
  .next (.ite (.readInlet hs) hs)

theorem CanonicalNext.execThermalEvaluation (hs : Canonical s) : CanonicalNext (execThermalEvaluation s) :=
  .next (.ite (.evaluate hs) hs)

/-! The operations and commands of Machine/Vector -/

theorem CanonicalDid.doEltwise {x : Issue} (hs : Canonical s) : CanonicalDid (doEltwise x s) :=
  .ite (.stop hs) (.ite (.writeOut hs) (.ite (.stop hs) (.writeOut hs)))

theorem Canonical.nextRounding {sr : Bool} (hs : Canonical s) : Canonical (s.nextRounding sr).2 :=
  .ite_snd (.draw hs) hs

theorem Canonical.encodeAll {sr : Bool} {f : Rounding → Machine.Num → Nat × Bool} {vs : List Machine.Num}
    (hs : Canonical s) :
    Canonical (s.encodeAll sr f vs).2 := by
  induction vs generalizing s with
  | nil => exact hs
  | cons v vs ih => exact ih (.nextRounding hs)

theorem Canonical.encodeBlocks {sr sat : Bool} {fo n : Nat} {vs : List Machine.Num} (hs : Canonical s) :
    Canonical (s.encodeBlocks sr sat fo n vs).2.2 := by
  induction n generalizing vs s with
  | zero => exact hs
  | succ n ih => exact ih (.encodeAll hs)

theorem Canonical.convertAll {x : Issue} {sr : Bool} {a : View} {ns : List Nat} (hs : Canonical s) :
    Canonical (s.convertAll x sr a ns).2 := by
  induction ns generalizing s with
  | nil => exact hs
  | cons n ns ih => exact ih (.nextRounding hs)

theorem CanonicalDid.doConvert {sr : Bool} {x : Issue} (hs : Canonical s) : CanonicalDid (doConvert sr x s) :=
  .ite (.stop hs) (.ite (.writeOut (.deckPut (.encodeBlocks hs))) (.writeOut (.convertAll hs)))

theorem CanonicalDid.doReduceLocal {x : Issue} (hs : Canonical s) : CanonicalDid (doReduceLocal x s) := .writeOut hs

theorem CanonicalDid.doOptStep {sr : Bool} {x : Issue} (hs : Canonical s) : CanonicalDid (doOptStep sr x s) :=
  .ite (.stop hs) (.ite (.ok (.warnSkip (.deckPut hs))) (.ok (.deckPut (.deckPut (.deckPut (.deckPut (.deckPut
    (.encodeBlocks (.encodeBlocks hs)))))))))

theorem CanonicalNext.execEltwise {t : Fin 16} (hs : Canonical s) : CanonicalNext (execEltwise t s) :=
  .next (.issue hs (fun _ _ hs => .doEltwise hs))

theorem CanonicalNext.execConvert {t : Fin 16} (hs : Canonical s) : CanonicalNext (execConvert t s) :=
  .next (.issue hs (fun _ _ hs => .doConvert hs))

theorem CanonicalNext.execConvertSr {t : Fin 16} (hs : Canonical s) : CanonicalNext (execConvertSr t s) :=
  .next (.issue hs (fun _ _ hs => .doConvert hs))

theorem CanonicalNext.execReduceLocal {t : Fin 16} (hs : Canonical s) : CanonicalNext (execReduceLocal t s) :=
  .next (.issue hs (fun _ _ hs => .doReduceLocal hs))

theorem CanonicalNext.execOptStep {t : Fin 16} (hs : Canonical s) : CanonicalNext (execOptStep t s) :=
  .next (.issue hs (fun _ _ hs => .doOptStep hs))

theorem CanonicalNext.execOptStepSr {t : Fin 16} (hs : Canonical s) : CanonicalNext (execOptStepSr t s) :=
  .next (.issue hs (fun _ _ hs => .doOptStep hs))

/-! ## Every command, and every step -/

theorem CanonicalNext.exec {i : Instr} (hs : Canonical s) : CanonicalNext (exec i s) := by
  unfold Machine.exec
  split
  · exact .execNop hs
  · exact .execMrRegister hs
  · exact .execMrDeregister hs
  · exact .execDmaCopy hs
  · exact .execProgLoad hs
  · exact .execProgRun hs
  · exact .execProgUnload hs
  · exact .execStayCall hs
  · exact .execSemSignal hs
  · exact .execSemWait hs
  · exact .execSemTrywait hs
  · exact .execSemAcquire hs
  · exact .execSemTryacquire hs
  · exact .execSemRelease hs
  · exact .execSemRead hs
  · exact .execAlarmArm hs
  · exact .execAlarmDisarm hs
  · exact .execDescArm hs
  · exact .execDescDisarm hs
  · exact .execQciLoad hs
  · exact .execExcOn hs
  · exact .execExcOff hs
  · exact .execExcClearRetired hs
  · exact .execDqSafeLoad hs
  · exact .execTgCommit hs
  · exact .execPartReset hs
  · exact .execTenantSwitch hs
  · exact .execCsCtxOpen hs
  · exact .execCsLoad hs
  · exact .execCsStore hs
  · exact .execCsNtt hs
  · exact .execCsIntt hs
  · exact .execCsAdd hs
  · exact .execCsSub hs
  · exact .execCsMul hs
  · exact .execCsMac hs
  · exact .execCsMulc hs
  · exact .execCsAuto hs
  · exact .execCsBconv hs
  · exact .execCsCtxClose hs
  · exact .execHashOpen hs
  · exact .execHashUpdate hs
  · exact .execHashFinal hs
  · exact .execHashClose hs
  · exact .execDgRead hs
  · exact .execTraceConfigure hs
  · exact .execTraceReadout hs
  · exact .execTraceRelease hs
  · exact .execMatmul hs
  · exact .execWindow hs
  · exact .execDepthwise hs
  · exact .execPool hs
  · exact .execKvRetrieve hs
  · exact .execAttn hs
  · exact .execEltwise hs
  · exact .execConvert hs
  · exact .execConvertSr hs
  · exact .execReduceLocal hs
  · exact .execReduceXt hs
  · exact .execAtomicAdd hs
  · exact .execOptStep hs
  · exact .execOptStepSr hs
  · exact .execFill hs
  · exact .execDrain hs
  · exact .execXfer hs
  · exact .execScaleLoad hs
  · exact .execTileSemWait hs
  · exact .execTileSemSignal hs
  · exact .execLock hs
  · exact .execUnlock hs
  · exact .execStayInvoke hs
  · exact .execStayJoin hs
  · exact .execLoop hs
  · exact .execEndRole hs
  · exact .execPrepNorm hs
  · exact .execPrepUnpack hs
  · exact .execPrepGrid hs
  · exact .execTidyTopk hs
  · exact .execTidyNms hs
  · exact .execClPid hs
  · exact .execClStatespace hs
  · exact .execClLimit hs
  · exact .execQCalib hs
  · exact .execQRequant hs
  · exact .execQColsum hs
  · exact .execBatchBoundary hs
  · exact .execRunStart hs
  · exact .execTagWaitResume hs
  · exact .execSemaphoreGrant hs
  · exact .execCutBarrierRelease hs
  · exact .execWatchdogExpiry hs
  · exact .execTileFault hs
  · exact .execRollbackRestoreEnd hs
  · exact .execTbNowRead hs
  · exact .execTbIncWrite hs
  · exact .execTbStepWrite hs
  · exact .execPtpSync hs
  · exact .execSyncTimeout hs
  · exact .execBrChCfgWrite hs
  · exact .execQuadratureEdge hs
  · exact .execZPulse hs
  · exact .execSsiFrame hs
  · exact .execSsiPoll hs
  · exact .execZeroCrossing hs
  · exact .execLineBreak hs
  · exact .execMainsTimeout hs
  · exact .execFrameStartTimeout hs
  · exact .execTimeAlarmFire hs
  · exact .execAlArm hs
  · exact .execAlDisarm hs
  · exact .execWinArm hs
  · exact .execWinDisarm hs
  · exact .execTriggerEdge hs
  · exact .execPortCfgWrite hs
  · exact .execDArm hs
  · exact .execDDisarm hs
  · exact .execFrameStart hs
  · exact .execLinePacket hs
  · exact .execFrameEnd hs
  · exact .execEthFrame hs
  · exact .execTapFrame hs
  · exact .execPeriodicSample hs
  · exact .execSpiTransactionStart hs
  · exact .execSpiTransferEnd hs
  · exact .execLanding hs
  · exact .execStagingCopy hs
  · exact .execPwmEnable hs
  · exact .execGroupEnable hs
  · exact .execDqEnable hs
  · exact .execAdvSrcEnable hs
  · exact .execPwmPeriodStart hs
  · exact .execTriggerPulseEnd hs
  · exact .execDriveFrameTransmit hs
  · exact .execGateListEntry hs
  · exact .execPacerTick hs
  · exact .execAdvisoryLink hs
  · exact .execRampEnd hs
  · exact .execOverload hs
  · exact .execWaitEnd hs
  · exact .execRingEnable hs
  · exact .execRingDisable hs
  · exact .execRingDrained hs
  · exact .execTrhDbSq hs
  · exact .execTrhDbCq hs
  · exact .execFetch hs
  · exact .execCompletionPost hs
  · exact .execHostReadError hs
  · exact .execFunctionLevelReset hs
  · exact .execPerstAssert hs
  · exact .execPerstDeassert hs
  · exact .execConfigRequest hs
  · exact .execDkRgnCfgWrite hs
  · exact .execSemCfgWrite hs
  · exact .execCommitScrubEnd hs
  · exact .execDegradedClear hs
  · exact .execPartResetDrained hs
  · exact .execHbmCorrectedError hs
  · exact .execHbmCeIntervalEnd hs
  · exact .execHbmUncorrectableError hs
  · exact .execVaultUncorrectable hs
  · exact .execEventRingEnable hs
  · exact .execSignalDetect hs
  · exact .execTrainingEnd hs
  · exact .execLinkAlignmentLoss hs
  · exact .execRetrainAttempt hs
  · exact .execLinkRestore hs
  · exact .execLinkDisable hs
  · exact .execCwGrantWrite hs
  · exact .execInboundRequest hs
  · exact .execTracePostEnd hs
  · exact .execTraceLostRecord hs
  · exact .execStreamFlush hs
  · exact .execEvcSnap hs
  · exact .execEvcClear hs
  · exact .execEvcCfgWrite hs
  · exact .execFwStage hs
  · exact .execFwStageVerified hs
  · exact .execFwActivateLive hs
  · exact .execFwActivateAtReset hs
  · exact .execFwCommitSvn hs
  · exact .execFwDiscard hs
  · exact .execFirmwareReady hs
  · exact .execSwitchTimeout hs
  · exact .execKsDbgOpen hs
  · exact .execScrubEnd hs
  · exact .execVaultShareWrite hs
  · exact .execLimbStepEnd hs
  · exact .execSpdmGetVersion hs
  · exact .execSpdmGetCapabilities hs
  · exact .execSpdmNegotiateAlgorithms hs
  · exact .execSpdmGetDigests hs
  · exact .execSpdmGetCertificate hs
  · exact .execSpdmChallenge hs
  · exact .execSpdmGetMeasurements hs
  · exact .execSpdmKeyExchange hs
  · exact .execSpdmFinish hs
  · exact .execSpdmHeartbeat hs
  · exact .execSpdmKeyUpdate hs
  · exact .execSpdmEndSession hs
  · exact .execSpdmRespondIfReady hs
  · exact .execSpdmChunkSend hs
  · exact .execSpdmChunkGet hs
  · exact .execSpdmGetCsr hs
  · exact .execSpdmSetCertificate hs
  · exact .execIdeKSetGo hs
  · exact .execTdispGetVersion hs
  · exact .execTdispGetCapabilities hs
  · exact .execTdispLock hs
  · exact .execTdispGetReport hs
  · exact .execTdispGetState hs
  · exact .execTdispStart hs
  · exact .execTdispStop hs
  · exact .execThermalSample hs
  · exact .execThrottleClear hs
  · exact .execInletRead hs
  · exact .execThermalEvaluation hs
  · exact .execSupplyGood hs
  · exact .execPwrGoodFall hs
  · exact .execResetN hs
  · exact .execSupplyDrop hs
  · exact .execPllLock hs
  · exact .execBootComplete hs
  · exact .execHubRelease hs
  · exact .execHbmTrainingEnd hs
  · exact .execMemoryReady hs
  · exact .execHostReady hs
  · exact .execPtpServoStart hs
  · exact .execJtagExtest hs
  · exact .execJtagIdcode hs
  · exact .execJtagSamplePreload hs
  · exact .execJtagClamp hs
  · exact .execJtagHighz hs
  · exact .execJtagExtestPulse hs
  · exact .execJtagExtestTrain hs
  · exact .execJtagBypass hs
  · exact .execTestLogicReset hs
  · exact .execRegisterWrite hs
  · exact .execMainsPllTick hs
  · exact .execExcSenseSample hs
  · exact .execPortLinkChange hs
  · exact .execPcieRetrain hs
  · exact .execCoalescingTimeout hs
  · exact .execLinkCrcError hs
  · exact .execRetiredMaskUpdate hs
  · exact .execHostWriteError hs
  · exact .execSupplyRailChange hs

/-- An empty queue passes one tick; else the first command acts on the state without it. -/
theorem CanonicalNext.step (hs : Canonical s) : CanonicalNext (step s) := by
  unfold Machine.step
  split
  · exact .next (.tick hs)
  · exact .exec (.keep hs)

end Sys2Proof.Safety

namespace Sys2Proof

open Sys2Proof.Safety

/-- Settles O6: the canonical form survives each of the model's operations, so it survives every command and every tick. -/
theorem memoriesStayCanonical : Obligations.MemoriesStayCanonical := by
  unfold Obligations.MemoriesStayCanonical
  intro s t hs h
  exact CanonicalNext.step hs t h

end Sys2Proof

/-! PROOF of O3. Reset lists no register and no byte, so everything reads its reset value. -/

namespace Sys2Proof.Safety

open Sys2Proof.Machine State

/-- No register is listed at reset, so each reads its reset value (R11). -/
theorem rget_reset (r : Reg) (k : Nat) : State.reset.rget r k = regReset r k := rfl

theorem fget_reset (f : Fld) (k : Nat) : State.reset.fget f k = getBits (regReset f.r k) f.lo f.w := by
  unfold State.fget
  rw [rget_reset]

/-- Every excitation channel is OFF at reset, whatever its number (R94). -/
theorem excState_reset (c : Nat) : State.reset.fget F.EXC_CH_STAT_STATE c = 0 := by
  rw [fget_reset]
  rfl

/-- Every partition has the same share of the 512 tags at reset (R117). -/
theorem tagShare_reset (p : Nat) : State.reset.fget F.TRH_PART_CFG_TAG_SHARE p = 0x40 := by
  rw [fget_reset]
  rfl

/-- The servo is on at reset (R36). -/
theorem servo_reset : State.reset.fget F.TB_CTRL_SERVO 0 = 1 := by
  rw [fget_reset]
  rfl

theorem canonical_reset : Canonical State.reset := ⟨rfl, rfl, rfl, rfl, rfl⟩

theorem wfQueue_reset : WfQueue State.reset := ⟨List.forall_mem_nil _, List.forall_mem_nil _⟩

end Sys2Proof.Safety

namespace Sys2Proof

open Sys2Proof.Safety

/-- Settles O3: the state's tables and lists are empty at reset, and what an empty register table reads is the reset value. -/
theorem resetState : Obligations.ResetState := by
  unfold Obligations.ResetState
  exact ⟨rfl, rget_reset, rfl, rfl, rfl, rfl, rfl, fun c _ => excState_reset c, fun p _ => tagShare_reset p, servo_reset,
    canonical_reset, wfQueue_reset⟩

end Sys2Proof

/-! PROOF of O53. First what the shared operations leave: fault records, then states that differ in registers alone; then the
event counters' two registers and the writes on the bus. -/

/-! The newest fault record, and what a discarded access leaves (R261, R262). -/

namespace Sys2Proof.Machine.State

open Sys2Proof.Safety

variable (s : State)

/-! Counting, charging, tracing and posting keep the fault records. -/

theorem foldl_faults {α : Type} (f : State → α → State) (hf : ∀ s a, (f s a).faults = s.faults) (l : List α) :
    (l.foldl f s).faults = s.faults := by
  induction l generalizing s with
  | nil => rfl
  | cons a l ih => exact (ih (f s a)).trans (hf s a)

@[simp] theorem countOne_faults (m : Bool) (n k : Nat) : (countOne m n k s).faults = s.faults := by
  unfold countOne
  dsimp only
  split
  · rfl
  · split <;> rfl

@[simp] theorem count_faults (code : Nat) (qual part : Option Nat) (n : Nat) :
    (s.count code qual part n).faults = s.faults := by
  unfold count
  split
  · exact foldl_faults s _ (fun s k => countOne_faults s _ _ k) _
  · rfl

@[simp] theorem charge_faults (p r n : Nat) : (s.charge p r n).faults = s.faults := by
  unfold charge
  simp

@[simp] theorem streamDrain_faults : s.streamDrain.faults = s.faults := by
  unfold streamDrain
  dsimp only
  rw [charge_faults]
  refine foldl_faults s _ ?_ _
  exact fun _ _ => rfl

@[simp] theorem tracePut_faults (r : TraceRec) : (s.tracePut r).faults = s.faults := by
  unfold tracePut
  dsimp only
  split
  · split
    · simp
    · rfl
  · split <;> rfl

@[simp] theorem traceTake_faults (src ty : Nat) (part : Option Nat) (fs : List (Nat × Nat)) :
    (s.traceTake src ty part fs).faults = s.faults := by
  unfold traceTake
  dsimp only
  split
  · simp [traceLost]
  · simp

@[simp] theorem traceEv_faults (src ty : Nat) (part : Option Nat) (fs : List (Nat × Nat)) :
    (s.traceEv src ty part fs).faults = s.faults := by
  have h := traceTake_faults s src ty part fs
  have ite (c : Prop) [Decidable c] (a b : State) (ha : a.faults = s.faults) (hb : b.faults = s.faults) :
      (if c then a else b).faults = s.faults := by
    split
    · exact ha
    · exact hb
  unfold traceEv
  exact ite _ _ _ rfl (ite _ _ _ rfl (ite _ _ _ h (ite _ _ _ (ite _ _ _ h h) rfl)))

@[simp] theorem unsignalled_faults (fn vec : Nat) (en : Bool) (n : Nat) : (s.unsignalled fn vec en n).faults = s.faults := by
  unfold unsignalled
  dsimp only
  split <;> rfl

@[simp] theorem eventWrite_faults (e : EvRec) : (s.eventWrite e).faults = s.faults := by
  unfold eventWrite
  dsimp only
  rw [unsignalled_faults, charge_faults]
  rfl

@[simp] theorem eventsLost_faults : s.eventsLost.faults = s.faults := by
  unfold eventsLost
  split
  · rfl
  · simp

@[simp] theorem event_faults (ty part arg0 arg1 arg2 : Nat) : (s.event ty part arg0 arg1 arg2).faults = s.faults := by
  unfold event eventPost eventPut
  split
  · rfl
  · split
    · rfl
    · split
      · simp
      · split <;> simp

/-! The newest record -/

theorem faultNew_newest (f : FaultRec) : Newest (s.faultNew f) f.cls f.cause := by
  unfold Newest faultNew
  simp

/-- A fault recorded is the newest one, also where it only adds to the count of a record like it (R262, R263). -/
theorem fault_newest (f : FaultRec) : Newest (s.fault f) f.cls f.cause := by
  unfold fault
  split
  next n rest hs =>
    split
    next h =>
      simp only [faultRepeats, Bool.and_eq_true, beq_iff_eq] at h
      exact ⟨_, rfl, h.1.1.1.1.1, h.1.1.1.2⟩
    · exact faultNew_newest s f
  · exact faultNew_newest s f

/-- A discarded access is recorded with its cause and changes nothing else (R262). -/
theorem accessFault_recorded (fn : Fn) (cause off : Nat) (data : W64) : Recorded s (s.accessFault fn cause off data) cause :=
  ⟨fault_newest s _, (accessFault_logs s fn cause off data).frame⟩

end Sys2Proof.Machine.State

/-! States that differ in registers alone, and the bits and fields that a register write leaves. -/

namespace Sys2Proof.Machine

theorem getLsbD_eq_getBits (v : W64) (i : Nat) : v.getLsbD i = (getBits v i 1 != 0) := by
  unfold getBits
  simp only [BitVec.extractLsb'_toNat, BitVec.getLsbD, Nat.testBit, Nat.and_comm 1, Nat.and_one_is_mod]

theorem getLsbD_setBits_outside (v : W64) (lo w x i : Nat) (h : ¬ (lo ≤ i ∧ i < lo + w)) :
    (setBits v lo w x).getLsbD i = v.getLsbD i := by
  rw [getLsbD_eq_getBits, getLsbD_eq_getBits, getBits_setBits_other _ _ _ _ _ _ (by omega)]

end Sys2Proof.Machine

namespace Sys2Proof.Safety

open Sys2Proof.Machine State

variable {s t : State} {P : Reg → Nat → Prop}

/-- `t` is `s` with nothing changed but the registers that `P` names. -/
def OnlyRegs (P : Reg → Nat → Prop) (s t : State) : Prop :=
  t = { s with regs := t.regs } ∧ ∀ q k, ¬ P q k → t.rget q k = s.rget q k

namespace OnlyRegs

theorem refl : OnlyRegs P s s := ⟨rfl, fun _ _ _ => rfl⟩

theorem rset (h : OnlyRegs P s t) {r : Reg} {k : Nat} {v : W64} (hr : P r k) : OnlyRegs P s (t.rset r k v) := by
  refine ⟨?_, fun q j hq => ?_⟩
  · rw [h.1]
    rfl
  · rw [rget_rset_other t r q j k v (by grind), h.2 q j hq]

theorem fset (h : OnlyRegs P s t) {f : Fld} {k v : Nat} (hf : P f.r k) : OnlyRegs P s (t.fset f k v) := h.rset hf

theorem forEach {f : Nat → State → State} {l : List Nat} (hf : ∀ k ∈ l, ∀ t, OnlyRegs P s t → OnlyRegs P s (f k t))
    (h : OnlyRegs P s t) : OnlyRegs P s (forEach l f t) := by
  unfold Machine.forEach
  induction l generalizing t with
  | nil => exact h
  | cons k l ih => exact ih (fun j hj => hf j (List.mem_cons_of_mem _ hj)) (hf k List.mem_cons_self t h)

theorem ite {c : Prop} [Decidable c] {u : State} (ht : OnlyRegs P s t) (hu : OnlyRegs P s u) :
    OnlyRegs P s (if c then t else u) := by
  split
  · exact ht
  · exact hu

/-- A frame lists the registers that are named and are no ledger. -/
theorem frame (h : OnlyRegs P s t) {R : Reg → Nat → Prop} (hR : ∀ q k, ledger q = false → P q k → R q k) :
    Frame R [] s t := by
  obtain ⟨hs, hr⟩ := h
  refine ⟨by rw [hs], fun q k hl hq => hr q k fun hp => hq (hR q k hl hp), fun p _ => ?_⟩
  rw [hs]
  cases p <;> simp [Same]

end OnlyRegs

theorem OnlyBits.refl {r : Reg} {k : Nat} {fs : List Fld} : OnlyBits s s r k fs := fun _ _ => rfl

/-- A field that is set changes no bit but its own, of any register at any index. -/
theorem OnlyBits.fset {r : Reg} {j : Nat} {fs : List Fld} (h : OnlyBits s t r j fs) {f : Fld} {k v : Nat} (hf : f ∈ fs) :
    OnlyBits s (t.fset f k v) r j fs := by
  intro i hi
  rw [← h i hi]
  unfold State.fset
  by_cases e : r = f.r ∧ j = k
  · obtain ⟨rfl, rfl⟩ := e
    rw [rget_rset_same, getLsbD_setBits_outside _ _ _ _ _ (hi f hf)]
  · rw [rget_rset_other _ _ _ _ _ _ (Decidable.not_and_iff_or_not.1 e)]

theorem OnlyBits.forEach {r : Reg} {j : Nat} {fs : List Fld} {f : Nat → State → State} {l : List Nat}
    (hf : ∀ k t, OnlyBits s t r j fs → OnlyBits s (f k t) r j fs) (h : OnlyBits s t r j fs) :
    OnlyBits s (forEach l f t) r j fs := by
  unfold Machine.forEach
  induction l generalizing t with
  | nil => exact h
  | cons k l ih => exact ih (hf k t h)

end Sys2Proof.Safety

namespace Sys2Proof.Machine.State

open Sys2Proof.Safety

variable (s : State)

theorem bar_live (t : State) (h : Live s) : s.bar t = t := if_pos (.inl h)

theorem fget_congr {t : State} {f : Fld} {k : Nat} (h : t.rget f.r k = s.rget f.r k) : t.fget f k = s.fget f k := by
  unfold fget
  rw [h]

/-- A flag written as a bit reads that bit. -/
theorem flag_fset_bit (f : Fld) (k : Nat) (b : Bool) (hw : f.w = 1) (hlo : f.lo + f.w ≤ 64) :
    (s.fset f k (if b then 1 else 0)).flag f k = b := by
  unfold flag
  rw [fget_fset_same s f k _ hlo, hw]
  cases b <;> rfl

theorem flag_fset_field (f g : Fld) (k v : Nat) (hr : g.r = f.r) (h : f.lo + f.w ≤ g.lo ∨ g.lo + g.w ≤ f.lo) :
    (s.fset f k v).flag g k = s.flag g k := by
  unfold flag
  rw [fget_fset_field s f g k v hr h]

theorem rget_forEach {f : Nat → State → State} {q : Reg} {j : Nat} (hf : ∀ k s, (f k s).rget q j = s.rget q j)
    (l : List Nat) : (forEach l f s).rget q j = s.rget q j := by
  unfold forEach
  induction l generalizing s with
  | nil => rfl
  | cons k l ih => rw [List.foldl_cons, ih, hf]

/-- What the steps of a fold do not change, the fold does not. -/
theorem forEach_fset_keeps (f : Fld) (g : State → Nat → Nat) (hg : ∀ s j v k, g (s.fset f j v) k = g s k) (l : List Nat)
    (k : Nat) : g (forEach l (fun k s => s.fset f k (g s k)) s) k = g s k := by
  unfold forEach
  induction l generalizing s with
  | nil => rfl
  | cons j l ih => rw [List.foldl_cons, ih, hg]

/-- A fold that sets one field at each index, to a value that it does not itself change, sets it at every index it visits. -/
theorem fget_forEach_fset (f : Fld) (g : State → Nat → Nat) (hw : f.lo + f.w ≤ 64)
    (hg : ∀ s j v k, g (s.fset f j v) k = g s k) (l : List Nat) (k : Nat) (hk : k ∈ l) :
    (forEach l (fun k s => s.fset f k (g s k)) s).fget f k = g s k % 2 ^ f.w := by
  induction l using List.reverseRecOn with
  | nil => cases hk
  | append_singleton l j ih =>
    have hlast : forEach (l ++ [j]) (fun k s => s.fset f k (g s k)) s =
        (forEach l (fun k s => s.fset f k (g s k)) s).fset f j (g (forEach l (fun k s => s.fset f k (g s k)) s) j) := by
      unfold forEach
      rw [List.foldl_append]
      rfl
    rw [hlast]
    by_cases e : k = j
    · subst e
      rw [fget_fset_same _ f k _ hw, forEach_fset_keeps s f g hg]
    · rw [fget_fset_reg _ f f k j _ (.inr e)]
      exact ih (by simpa [e] using hk)

/-! Event counter control (R320) -/

/-- The bits of a write of EVC_CTRL that are kept. -/
def evcBits (v : W32) : State :=
  (s.fset F.EVC_CTRL_RUN 0 (if v.getLsbD 31 then 1 else 0)).fset F.EVC_CTRL_SNAP_ON_TRC 0 (if v.getLsbD 28 then 1 else 0)

/-- CLEAR: every count is 0. -/
def evcZero : State := forEach (List.range 64) (fun k s => s.fset F.EVC_VAL_COUNT k 0) s

/-- A write of EVC_CTRL keeps RUN and SNAP_ON_TRC, then takes the snapshot, then clears. -/
theorem evcCtrl_eq (v : W32) : s.evcCtrl v =
    let u := if v.getLsbD 30 then (s.evcBits v).snapshot else s.evcBits v
    if v.getLsbD 29 then u.evcZero else u := rfl

theorem evcBits_rget (v : W32) (q : Reg) (k : Nat) (hq : q ≠ .EVC_CTRL) : (s.evcBits v).rget q k = s.rget q k :=
  (rget_rset_other _ _ _ _ _ _ (.inl hq)).trans (rget_rset_other _ _ _ _ _ _ (.inl hq))

theorem evcBits_run (v : W32) : (s.evcBits v).flag F.EVC_CTRL_RUN 0 = v.getLsbD 31 := by
  unfold evcBits
  rw [flag_fset_field _ F.EVC_CTRL_SNAP_ON_TRC F.EVC_CTRL_RUN 0 _ rfl (.inl (by decide)),
    flag_fset_bit s F.EVC_CTRL_RUN 0 _ rfl (by decide)]

theorem evcBits_snapOnTrc (v : W32) : (s.evcBits v).flag F.EVC_CTRL_SNAP_ON_TRC 0 = v.getLsbD 28 :=
  flag_fset_bit _ F.EVC_CTRL_SNAP_ON_TRC 0 _ rfl (by decide)

theorem snapshot_rget (q : Reg) (k : Nat) (hq : q ≠ .EVC_SNAP) (ht : q ≠ .EVC_SNAPTIME) :
    s.snapshot.rget q k = s.rget q k :=
  (rget_forEach _ (fun _ _ => rget_rset_other _ _ _ _ _ _ (.inl hq)) _).trans (rget_rset_other _ _ _ _ _ _ (.inl ht))

theorem snapshot_time : s.snapshot.fget F.EVC_SNAPTIME_NS 0 = s.now.toNat := by
  have h : s.snapshot.fget F.EVC_SNAPTIME_NS 0 = (s.fset F.EVC_SNAPTIME_NS 0 s.now.toNat).fget F.EVC_SNAPTIME_NS 0 :=
    fget_congr _ (rget_forEach _ (fun _ _ => rget_rset_other _ _ _ _ _ _ (.inl (by decide))) _)
  rw [h, fget_fset_same _ _ _ _ (by decide)]
  exact Nat.mod_eq_of_lt s.now.isLt

theorem snapshot_count (k : Nat) (hk : k < 64) : s.snapshot.fget F.EVC_SNAP_COUNT k = s.fget F.EVC_VAL_COUNT k := by
  unfold snapshot
  rw [fget_forEach_fset _ F.EVC_SNAP_COUNT (fun s k => s.fget F.EVC_VAL_COUNT k) (by decide)
    (fun s j v k => fget_fset_reg s _ _ _ _ _ (.inl (by decide))) _ k (List.mem_range.2 hk),
    fget_fset_reg _ _ _ _ _ _ (.inl (by decide))]
  exact Nat.mod_eq_of_lt (fget_lt s F.EVC_VAL_COUNT k)

theorem evcZero_rget (q : Reg) (k : Nat) (hq : q ≠ .EVC_VAL) : s.evcZero.rget q k = s.rget q k :=
  rget_forEach _ (fun _ _ => rget_rset_other _ _ _ _ _ _ (.inl hq)) _

theorem evcZero_count (k : Nat) (hk : k < 64) : s.evcZero.fget F.EVC_VAL_COUNT k = 0 :=
  fget_forEach_fset s F.EVC_VAL_COUNT (fun _ _ => 0) (by decide) (fun _ _ _ _ => rfl) _ k (List.mem_range.2 hk)

/-- The registers of the event counters that a write of EVC_CTRL reaches. -/
def evcRegs : Reg → Nat → Prop :=
  orRegs (theRegs [.EVC_CTRL, .EVC_SNAPTIME] 0) (regsAt [.EVC_SNAP, .EVC_VAL] (List.range 64))

theorem evcCtrl_onlyRegs (v : W32) : OnlyRegs evcRegs s (s.evcCtrl v) := by
  have hctrl : evcRegs .EVC_CTRL 0 := .inl ⟨by decide, rfl⟩
  have htime : evcRegs .EVC_SNAPTIME 0 := .inl ⟨by decide, rfl⟩
  have hsnap (k : Nat) (hk : k ∈ List.range 64) : evcRegs .EVC_SNAP k := .inr ⟨by decide, hk⟩
  have hval (k : Nat) (hk : k ∈ List.range 64) : evcRegs .EVC_VAL k := .inr ⟨by decide, hk⟩
  have h0 : OnlyRegs evcRegs s (s.evcBits v) := (OnlyRegs.refl.fset hctrl).fset hctrl
  have h1 : OnlyRegs evcRegs s (s.evcBits v).snapshot := .forEach (fun k hk _ h => h.fset (hsnap k hk)) (h0.fset htime)
  have h2 := OnlyRegs.ite (c := v.getLsbD 30 = true) h1 h0
  exact .ite (.forEach (fun k hk _ h => h.fset (hval k hk)) h2) h2

/-- EVC_CTRL itself holds the bits that are kept, whether or not a snapshot is taken or the counts are cleared. -/
theorem evcCtrl_rget_ctrl (v : W32) : (s.evcCtrl v).rget .EVC_CTRL 0 = (s.evcBits v).rget .EVC_CTRL 0 := by
  rw [evcCtrl_eq]
  dsimp only
  split <;> split <;> simp [evcZero_rget, snapshot_rget]

/-- Without SNAP, a register that is neither EVC_CTRL nor a count keeps its value. -/
theorem evcCtrl_rget_of_noSnap (v : W32) (h : v.getLsbD 30 = false) (q : Reg) (k : Nat) (hq : q ≠ .EVC_CTRL)
    (hv : q ≠ .EVC_VAL) : (s.evcCtrl v).rget q k = s.rget q k := by
  rw [evcCtrl_eq, h]
  dsimp only
  split
  · rw [evcZero_rget _ q k hv]
    exact evcBits_rget s v q k hq
  · exact evcBits_rget s v q k hq

/-- SNAP: EVC_SNAP and EVC_SNAPTIME are those of the snapshot, which is taken before CLEAR. -/
theorem evcCtrl_rget_of_snap (v : W32) (h : v.getLsbD 30 = true) (q : Reg) (k : Nat) (hv : q ≠ .EVC_VAL) :
    (s.evcCtrl v).rget q k = (s.evcBits v).snapshot.rget q k := by
  rw [evcCtrl_eq, h]
  dsimp only
  split
  · exact evcZero_rget _ q k hv
  · rfl

/-- The counts before CLEAR are those of before the write. -/
theorem evcBits_snapshot_rget_val (v : W32) (k : Nat) :
    (if v.getLsbD 30 then (s.evcBits v).snapshot else s.evcBits v).rget .EVC_VAL k = s.rget .EVC_VAL k := by
  split
  · rw [snapshot_rget _ _ _ (by decide) (by decide), evcBits_rget s v _ _ (by decide)]
  · exact evcBits_rget s v _ _ (by decide)

theorem evcCtrl_count (v : W32) (k : Nat) (hk : k < 64) :
    (s.evcCtrl v).fget F.EVC_VAL_COUNT k = if v.getLsbD 29 then 0 else s.fget F.EVC_VAL_COUNT k := by
  rw [evcCtrl_eq]
  dsimp only
  split
  · exact evcZero_count _ k hk
  · exact fget_congr s (evcBits_snapshot_rget_val s v k)

theorem evcCtrl_onlyBits (v : W32) (k : Nat) : OnlyBits s (s.evcCtrl v) .EVC_VAL k [F.EVC_VAL_COUNT] := by
  have h0 : OnlyBits s (if v.getLsbD 30 then (s.evcBits v).snapshot else s.evcBits v) .EVC_VAL k [F.EVC_VAL_COUNT] :=
    fun _ _ => by rw [evcBits_snapshot_rget_val]
  rw [evcCtrl_eq]
  dsimp only
  split
  · exact .forEach (fun _ _ h => h.fset List.mem_cons_self) h0
  · exact h0

theorem evcCtrl_run (v : W32) : (s.evcCtrl v).flag F.EVC_CTRL_RUN 0 = v.getLsbD 31 := by
  rw [flag, fget_congr _ (evcCtrl_rget_ctrl s v)]
  exact evcBits_run s v

theorem evcCtrl_snapOnTrc (v : W32) : (s.evcCtrl v).flag F.EVC_CTRL_SNAP_ON_TRC 0 = v.getLsbD 28 := by
  rw [flag, fget_congr _ (evcCtrl_rget_ctrl s v)]
  exact evcBits_snapOnTrc s v

theorem evcCtrl_time (v : W32) (h : v.getLsbD 30 = true) : (s.evcCtrl v).fget F.EVC_SNAPTIME_NS 0 = s.now.toNat := by
  rw [fget_congr _ (evcCtrl_rget_of_snap s v h _ 0 (by decide)), snapshot_time]
  rfl

theorem evcCtrl_snap (v : W32) (h : v.getLsbD 30 = true) (k : Nat) (hk : k < 64) :
    (s.evcCtrl v).fget F.EVC_SNAP_COUNT k = s.fget F.EVC_VAL_COUNT k := by
  rw [fget_congr _ (evcCtrl_rget_of_snap s v h _ k (by decide)), snapshot_count _ k hk,
    fget_congr _ (evcBits_rget s v _ k (by decide))]

/-- Of those registers, the counts are a ledger. -/
theorem evcRegs_of_not_ledger (q : Reg) (k : Nat) (hl : ledger q = false) (h : evcRegs q k) :
    orRegs (theRegs [.EVC_CTRL, .EVC_SNAPTIME] 0) (regsAt [.EVC_SNAP] (List.range 64)) q k := by
  rcases h with h | ⟨hq, hk⟩
  · exact .inl h
  · rcases List.mem_pair.1 hq with rfl | rfl
    · exact .inr ⟨List.mem_cons_self, hk⟩
    · cases hl

end Sys2Proof.Machine.State

/-! A write of EVC_CFG (R9, R320, R321) -/

namespace Sys2Proof.Machine.State

open Sys2Proof.Safety

variable (s : State)

/-- A field of a 32-bit write, as a number. -/
theorem getBits_setWidth (v : W32) (lo w : Nat) : getBits (v.setWidth 64) lo w = v.toNat / 2 ^ lo % 2 ^ w := by
  have hv : v.toNat < 2 ^ 64 := lt_of_lt_of_le v.isLt (by decide)
  unfold getBits
  rw [BitVec.extractLsb'_toNat, BitVec.toNat_setWidth, Nat.mod_eq_of_lt hv, Nat.shiftRight_eq_div_pow]

/-- A bit of a 32-bit write, as a number. -/
theorem getBits_setWidth_bit (v : W32) (i : Nat) : getBits (v.setWidth 64) i 1 = (v.getLsbD i).toNat := by
  rw [getBits_setWidth, BitVec.getLsbD, Nat.toNat_testBit, pow_one]

theorem fget_eq_toNat_flag (f : Fld) (k : Nat) (hw : f.w = 1) : s.fget f k = (s.flag f k).toNat := by
  have h := fget_lt s f k
  rw [hw] at h
  unfold flag
  generalize s.fget f k = n at h
  interval_cases n <;> rfl

/-- A write of EVC_CFG stops the counter: EN clears and no other field would change. -/
def evcStops (k : Nat) (v : W32) : Prop :=
  (v.toNat / 2 ^ 20 % 2 ^ 9 = s.fget F.EVC_CFG_EVENT k ∧ v.toNat % 2 ^ 13 = s.fget F.EVC_CFG_QUAL k ∧
    v.getLsbD 30 = s.flag F.EVC_CFG_ANY k) ∧
  v.getLsbD 31 = false ∧ ¬ (v.getLsbD 29 = true ∧ s.flag F.EVC_CFG_CFG_ERR k = true)

/-- A write of EVC_CFG names an event that is not reserved, with ANY or QUAL in its range. -/
def evcOk (v : W32) : Prop :=
  ∃ n, evcRange (v.toNat / 2 ^ 20 % 2 ^ 9) = some n ∧ (v.getLsbD 30 = true ∨ v.toNat % 2 ^ 13 < n)

/-- EVC_CFG written while the counter is off: its fields, and CFG_ERR cleared where the write asks for it. -/
def evcTaken (k : Nat) (v : W32) : State :=
  let u := (s.fset F.EVC_CFG_EVENT k (getBits (v.setWidth 64) 20 9)).fset F.EVC_CFG_QUAL k (getBits (v.setWidth 64) 0 13)
  let u := u.fset F.EVC_CFG_ANY k (getBits (v.setWidth 64) 30 1)
  if v.getLsbD 29 then u.fset F.EVC_CFG_CFG_ERR k 0 else u

/-- The test by which EVC_CFG's write finds that it stops the counter. -/
theorem evcStops_iff (k : Nat) (v : W32) : s.evcStops k v ↔
    (getBits (v.setWidth 64) 20 9 == s.fget F.EVC_CFG_EVENT k && getBits (v.setWidth 64) 0 13 == s.fget F.EVC_CFG_QUAL k &&
      getBits (v.setWidth 64) 30 1 == s.fget F.EVC_CFG_ANY k && !(v.getLsbD 31) &&
      !(v.getLsbD 29 && s.flag F.EVC_CFG_CFG_ERR k)) = true := by
  rw [getBits_setWidth_bit, getBits_setWidth, getBits_setWidth, fget_eq_toNat_flag s F.EVC_CFG_ANY k rfl]
  have hany : (v.getLsbD 30).toNat = (s.flag F.EVC_CFG_ANY k).toNat ↔ v.getLsbD 30 = s.flag F.EVC_CFG_ANY k := by
    cases v.getLsbD 30 <;> cases s.flag F.EVC_CFG_ANY k <;> decide
  unfold evcStops
  simp only [Bool.and_eq_true, beq_iff_eq, hany, Bool.not_eq_true', Bool.and_eq_false_iff, not_and, Bool.not_eq_true]
  grind

theorem evcCfg_of_stops (k : Nat) (v : W32) (he : s.flag F.EVC_CFG_EN k = true) (h : s.evcStops k v) :
    s.evcCfg k v = s.fset F.EVC_CFG_EN k 0 := by
  unfold evcCfg
  rw [if_pos he]
  exact if_pos ((evcStops_iff s k v).1 h)

theorem evcCfg_of_not_stops (k : Nat) (v : W32) (he : s.flag F.EVC_CFG_EN k = true) (h : ¬ s.evcStops k v) :
    s.evcCfg k v = s.accessFault .pf 3 (0xB00100 + k * 0x10) (v.setWidth 64) := by
  unfold evcCfg
  rw [if_pos he]
  exact if_neg (fun hb => h ((evcStops_iff s k v).2 hb))

/-- While the counter is off, a write that does not set EN is taken as it is. -/
theorem evcCfg_off (k : Nat) (v : W32) (he : s.flag F.EVC_CFG_EN k = false) (hv : v.getLsbD 31 = false) :
    s.evcCfg k v = s.evcTaken k v := by
  unfold evcCfg
  simp only [he, hv]
  rfl

/-- While the counter is off, a write that sets EN to count a good event starts it. -/
theorem evcCfg_starts (k : Nat) (v : W32) (he : s.flag F.EVC_CFG_EN k = false) (hv : v.getLsbD 31 = true) (h : evcOk v) :
    s.evcCfg k v = (s.evcTaken k v).fset F.EVC_CFG_EN k 1 := by
  obtain ⟨n, hn, hq⟩ := h
  have hev : evcRange (getBits (v.setWidth 64) 20 9) = some n := by rw [getBits_setWidth, hn]
  have hb : (v.getLsbD 30 || decide (getBits (v.setWidth 64) 0 13 < n)) = true := by
    rw [getBits_setWidth]
    simpa using hq
  unfold evcCfg
  simp only [he, hv, hev, hb]
  rfl

/-- While the counter is off, a write that sets EN to count a reserved event, or of a QUAL out of range, sets CFG_ERR. -/
theorem evcCfg_errs (k : Nat) (v : W32) (he : s.flag F.EVC_CFG_EN k = false) (hv : v.getLsbD 31 = true) (h : ¬ evcOk v) :
    s.evcCfg k v = (s.evcTaken k v).fset F.EVC_CFG_CFG_ERR k 1 := by
  unfold evcCfg
  simp only [he, hv]
  cases hev : evcRange (getBits (v.setWidth 64) 20 9) with
  | none => rfl
  | some n =>
    have hb : (v.getLsbD 30 || decide (getBits (v.setWidth 64) 0 13 < n)) = false := by
      rw [getBits_setWidth] at hev ⊢
      exact Bool.eq_false_iff.2 fun hc => h ⟨n, hev, by simpa using hc⟩
    simp only [hb]
    rfl

/-! What EVC_CFG holds after such a write -/

theorem flag_fset_same (f : Fld) (k v : Nat) (h : f.lo + f.w ≤ 64) : (s.fset f k v).flag f k = (v % 2 ^ f.w != 0) := by
  unfold flag
  rw [fget_fset_same s f k v h]

theorem evcTaken_event (k : Nat) (v : W32) : (s.evcTaken k v).fget F.EVC_CFG_EVENT k = v.toNat / 2 ^ 20 % 2 ^ 9 := by
  unfold evcTaken
  dsimp only
  split <;> simp (disch := decide) only [fget_fset_field, fget_fset_same, getBits_setWidth, Nat.mod_mod]

theorem evcTaken_qual (k : Nat) (v : W32) : (s.evcTaken k v).fget F.EVC_CFG_QUAL k = v.toNat % 2 ^ 13 := by
  unfold evcTaken
  dsimp only
  split <;> simp (disch := decide) only [fget_fset_field, fget_fset_same, getBits_setWidth, Nat.mod_mod, Nat.pow_zero,
    Nat.div_one]

theorem evcTaken_any (k : Nat) (v : W32) : (s.evcTaken k v).flag F.EVC_CFG_ANY k = v.getLsbD 30 := by
  have hb : ((v.getLsbD 30).toNat % 2 ^ 1 != 0) = v.getLsbD 30 := by cases v.getLsbD 30 <;> rfl
  unfold evcTaken
  dsimp only
  split <;> simp (disch := decide) only [flag_fset_field, flag_fset_same, getBits_setWidth_bit, hb]

theorem evcTaken_en (k : Nat) (v : W32) : (s.evcTaken k v).flag F.EVC_CFG_EN k = s.flag F.EVC_CFG_EN k := by
  unfold evcTaken
  dsimp only
  split <;> simp (disch := decide) only [flag_fset_field]

theorem evcTaken_err (k : Nat) (v : W32) :
    (s.evcTaken k v).flag F.EVC_CFG_CFG_ERR k = (s.flag F.EVC_CFG_CFG_ERR k && !(v.getLsbD 29)) := by
  unfold evcTaken
  dsimp only
  split
  next h =>
    rw [flag_fset_same _ _ _ _ (by decide), h, Bool.not_true, Bool.and_false]
    rfl
  next h =>
    simp (disch := decide) only [flag_fset_field]
    rw [Bool.eq_false_iff.2 h, Bool.not_false, Bool.and_true]

theorem evcTaken_onlyRegs (k : Nat) (v : W32) : OnlyRegs (oneReg .EVC_CFG k) s (s.evcTaken k v) := by
  have h : oneReg .EVC_CFG k .EVC_CFG k := ⟨rfl, rfl⟩
  have hu := ((OnlyRegs.refl (s := s)).fset (f := F.EVC_CFG_EVENT) (v := getBits (v.setWidth 64) 20 9) h).fset
    (f := F.EVC_CFG_QUAL) (v := getBits (v.setWidth 64) 0 13) h
  exact .ite ((hu.fset h).fset h) (hu.fset h)

/-- While the counter is off, a write is taken; then EN or CFG_ERR sets, or neither does. -/
theorem evcCfg_off_cases (k : Nat) (v : W32) (he : s.flag F.EVC_CFG_EN k = false) :
    (v.getLsbD 31 = false ∧ s.evcCfg k v = s.evcTaken k v) ∨
    (v.getLsbD 31 = true ∧ evcOk v ∧ s.evcCfg k v = (s.evcTaken k v).fset F.EVC_CFG_EN k 1) ∨
    (v.getLsbD 31 = true ∧ ¬ evcOk v ∧ s.evcCfg k v = (s.evcTaken k v).fset F.EVC_CFG_CFG_ERR k 1) := by
  by_cases hv : v.getLsbD 31 = true
  · by_cases h : evcOk v
    · exact .inr (.inl ⟨hv, h, evcCfg_starts s k v he hv h⟩)
    · exact .inr (.inr ⟨hv, h, evcCfg_errs s k v he hv h⟩)
  · have hv' := Bool.eq_false_iff.2 hv
    exact .inl ⟨hv', evcCfg_off s k v he hv'⟩

/-- A field of EVC_CFG beside EN and CFG_ERR is as it was taken. -/
theorem evcCfg_off_fget (k : Nat) (v : W32) (he : s.flag F.EVC_CFG_EN k = false) (g : Fld) (hr : g.r = .EVC_CFG)
    (hen : 32 ≤ g.lo ∨ g.lo + g.w ≤ 31) (herr : 30 ≤ g.lo ∨ g.lo + g.w ≤ 29) :
    (s.evcCfg k v).fget g k = (s.evcTaken k v).fget g k := by
  rcases evcCfg_off_cases s k v he with ⟨-, h⟩ | ⟨-, -, h⟩ | ⟨-, -, h⟩
  · rw [h]
  · rw [h, fget_fset_field _ F.EVC_CFG_EN g k 1 hr hen]
  · rw [h, fget_fset_field _ F.EVC_CFG_CFG_ERR g k 1 hr herr]

theorem evcCfg_off_event (k : Nat) (v : W32) (he : s.flag F.EVC_CFG_EN k = false) :
    (s.evcCfg k v).fget F.EVC_CFG_EVENT k = v.toNat / 2 ^ 20 % 2 ^ 9 := by
  rw [evcCfg_off_fget s k v he F.EVC_CFG_EVENT rfl (by decide) (by decide), evcTaken_event]

theorem evcCfg_off_qual (k : Nat) (v : W32) (he : s.flag F.EVC_CFG_EN k = false) :
    (s.evcCfg k v).fget F.EVC_CFG_QUAL k = v.toNat % 2 ^ 13 := by
  rw [evcCfg_off_fget s k v he F.EVC_CFG_QUAL rfl (by decide) (by decide), evcTaken_qual]

theorem evcCfg_off_any (k : Nat) (v : W32) (he : s.flag F.EVC_CFG_EN k = false) :
    (s.evcCfg k v).flag F.EVC_CFG_ANY k = v.getLsbD 30 := by
  rw [flag, evcCfg_off_fget s k v he F.EVC_CFG_ANY rfl (by decide) (by decide)]
  exact evcTaken_any s k v

theorem evcCfg_off_en (k : Nat) (v : W32) (he : s.flag F.EVC_CFG_EN k = false) :
    (s.evcCfg k v).flag F.EVC_CFG_EN k = true ↔ v.getLsbD 31 = true ∧ evcOk v := by
  rcases evcCfg_off_cases s k v he with ⟨hv, h⟩ | ⟨hv, hok, h⟩ | ⟨hv, hok, h⟩
  · rw [h, evcTaken_en, he]
    exact iff_of_false Bool.false_ne_true fun e => Bool.false_ne_true (hv.symm.trans e.1)
  · rw [h, flag_fset_same _ _ _ _ (by decide)]
    exact iff_of_true rfl ⟨hv, hok⟩
  · rw [h, flag_fset_field _ F.EVC_CFG_CFG_ERR F.EVC_CFG_EN k 1 rfl (by decide), evcTaken_en, he]
    exact iff_of_false Bool.false_ne_true fun e => hok e.2

theorem evcCfg_off_err (k : Nat) (v : W32) (he : s.flag F.EVC_CFG_EN k = false) :
    (s.evcCfg k v).flag F.EVC_CFG_CFG_ERR k = true ↔
      (v.getLsbD 31 = true ∧ ¬ evcOk v) ∨ (s.flag F.EVC_CFG_CFG_ERR k = true ∧ v.getLsbD 29 = false) := by
  have hkept : (s.evcTaken k v).flag F.EVC_CFG_CFG_ERR k = true ↔
      s.flag F.EVC_CFG_CFG_ERR k = true ∧ v.getLsbD 29 = false := by
    rw [evcTaken_err, Bool.and_eq_true, Bool.not_eq_true']
  rcases evcCfg_off_cases s k v he with ⟨hv, h⟩ | ⟨hv, hok, h⟩ | ⟨hv, hok, h⟩
  · rw [h, hkept, or_iff_right]
    exact fun e => Bool.false_ne_true (hv.symm.trans e.1)
  · rw [h, flag_fset_field _ F.EVC_CFG_EN F.EVC_CFG_CFG_ERR k 1 rfl (by decide), hkept, or_iff_right]
    exact fun e => e.2 hok
  · rw [h, flag_fset_same _ _ _ _ (by decide)]
    exact iff_of_true rfl (.inl ⟨hv, hok⟩)

theorem evcCfg_off_onlyRegs (k : Nat) (v : W32) (he : s.flag F.EVC_CFG_EN k = false) :
    OnlyRegs (oneReg .EVC_CFG k) s (s.evcCfg k v) := by
  have h0 := evcTaken_onlyRegs s k v
  rcases evcCfg_off_cases s k v he with ⟨-, h⟩ | ⟨-, -, h⟩ | ⟨-, -, h⟩
  · rw [h]
    exact h0
  · rw [h]
    exact h0.fset ⟨rfl, rfl⟩
  · rw [h]
    exact h0.fset ⟨rfl, rfl⟩

end Sys2Proof.Machine.State

/-! Register writes on the bus (R8, R9, R13) -/

namespace Sys2Proof.Machine.State

open Sys2Proof.Safety

variable (s : State)

theorem reach_live (fn : Fn) (a : Nat) (t : State) (h : Live s) : s.reach fn a t = t := by
  unfold reach
  split
  · exact if_neg (by rw [h]; decide)
  · exact bar_live s t h

theorem reach_self (fn : Fn) (a : Nat) : s.reach fn a s = s := by
  unfold reach bar
  split <;> exact ite_self s

/-- Before the end of boot no write reaches the device. -/
theorem reach_boot (fn : Fn) (a : Nat) (t : State) (h : s.fget F.KS_STAT_STATE 0 = 0) : s.reach fn a t = s := by
  unfold reach bar switching
  rw [h]
  split
  · rfl
  · exact if_neg (by decide)

/-- A register byte is touched by `width` bits at `a`. -/
theorem reaches_iff (fn : Fn) (a width : Nat) :
    (List.range (ceilDiv width 8)).any (fun i => (s.regByte fn (a + i)).isSome) = true ↔
      ∃ i, i < (width + 7) / 8 ∧ (s.regByte fn (a + i)).isSome = true := by
  simp [ceilDiv, List.any_eq_true]

/-- A write that touches no register is ignored. -/
theorem busWrite_untouched (fn : Fn) (a width : Nat) (data : W64) (hw : 0 < width)
    (h : ¬ ∃ i, i < (width + 7) / 8 ∧ (s.regByte fn (a + i)).isSome = true) : s.busWrite fn a width data = s := by
  have h0 : s.regByte fn a = none := by
    by_contra hc
    exact h ⟨0, by omega, Option.isSome_iff_ne_none.2 hc⟩
  unfold busWrite
  rw [h0]
  exact if_neg (fun hr => h ((reaches_iff s fn a width).1 hr))

/-- A write that touches a register in another way than whole, at its offset, is discarded and recorded with CAUSE 1. -/
theorem busWrite_discarded (fn : Fn) (a width : Nat) (data : W64)
    (h : ∃ i, i < (width + 7) / 8 ∧ (s.regByte fn (a + i)).isSome = true)
    (hw : ∀ r k, s.regByte fn a = some (r, k, 0) → (regPlace r).width ≠ width) :
    s.busWrite fn a width data = s.accessFault fn 1 a (BitVec.ofNat 64 (data.toNat % 2 ^ width)) := by
  unfold busWrite
  dsimp only
  split
  next r k hr => exact if_neg (hw r k hr)
  next => exact if_pos ((reaches_iff s fn a width).2 h)

/-- A write of a register's own width at its offset is the write of the whole register. -/
theorem busWrite_whole (fn : Fn) (a : Nat) (r : Reg) (k : Nat) (data : W64) (h : s.regByte fn a = some (r, k, 0)) :
    s.busWrite fn a (regPlace r).width data =
      s.wholeWrite fn a r k (BitVec.ofNat 64 (data.toNat % 2 ^ (regPlace r).width)) := by
  unfold busWrite
  rw [h]
  exact if_pos rfl

/-! A write by field type -/

theorem fieldsWrite_onlyRegs (r : Reg) (k : Nat) (v : W64) : OnlyRegs (oneReg r k) s (s.fieldsWrite r k v) :=
  OnlyRegs.refl.rset ⟨rfl, rfl⟩

/-- Each bit by its field type: RW takes the data, RW1C clears where the data is 1, every other bit keeps (R9). -/
theorem fieldsWrite_getLsbD (r : Reg) (k : Nat) (v : W64) (i : Nat) (hi : i < 64) :
    ((s.fieldsWrite r k v).rget r k).getLsbD i =
      (if (regMask r .rw).getLsbD i then v.getLsbD i
       else (s.rget r k).getLsbD i && !((regMask r .rw1c).getLsbD i && v.getLsbD i)) := by
  unfold fieldsWrite
  rw [rget_rset_same]
  simp only [BitVec.getLsbD_or, BitVec.getLsbD_and, BitVec.getLsbD_not, hi, decide_true, Bool.true_and]
  cases (regMask r .rw).getLsbD i <;> simp

/-- Data cut to a width keeps the bits below it. -/
theorem getLsbD_cut (data : W64) (w i : Nat) (h : i < 64) (hi : i < w) :
    (BitVec.ofNat 64 (data.toNat % 2 ^ w)).getLsbD i = data.getLsbD i := by
  rw [BitVec.getLsbD_ofNat, Nat.testBit_mod_two_pow, BitVec.getLsbD]
  simp only [h, hi, decide_true, Bool.true_and]

/-- A mask below 2 ^ w has no bit beyond w. -/
theorem lt_of_mask (m : W64) (w i : Nat) (hm : m.toNat < 2 ^ w) (h : m.getLsbD i = true) : i < w := by
  by_contra hc
  have := Nat.testBit_lt_two_pow (lt_of_lt_of_le hm (Nat.pow_le_pow_right (by decide) (not_lt.1 hc)))
  rw [BitVec.getLsbD, this] at h
  cases h

/-- The (register, index) pairs of the statement that are written by field type alone. -/
def plainRegs : List (Reg × Nat) :=
  [(.TB_CTRL, 0), (.TB_STATUS, 0), (.BR_CH_OFFSET, 0), (.BR_CH_OFFSET, 15), (.BR_CH_STAT, 0), (.BR_CH_STAT, 15),
    (.ING_PORT_STAT, 0), (.FLT_EVR_STAT, 0), (.KS_FW_SRC, 0), (.TH_STAT, 0)]

theorem plainRegs_decode : ∀ x ∈ plainRegs, decodeAddr (regOffset x.1 x.2) = some (x.1, x.2, 0) := by decide

theorem plainRegs_masks : ∀ x ∈ plainRegs, (regMask x.1 .rw).toNat < 2 ^ (regPlace x.1).width ∧
    (regMask x.1 .rw1c).toNat < 2 ^ (regPlace x.1).width := by decide

theorem plainRegs_there (x : Reg × Nat) (hx : x ∈ plainRegs) : s.regThere x.1 x.2 = true := by
  fin_cases hx <;> rfl

theorem plainRegs_pfWrite (x : Reg × Nat) (hx : x ∈ plainRegs) (v : W64) :
    s.pfWrite x.1 x.2 v = s.fieldsWrite x.1 x.2 v := by
  fin_cases hx <;> rfl

theorem plainRegs_lockPart (x : Reg × Nat) (hx : x ∈ plainRegs) : s.lockPart x.1 x.2 = none := by
  fin_cases hx <;> rfl

/-- A write of such a register, whole and at its offset, is the write by field type of its data. -/
theorem execRegisterWrite_plain (r : Reg) (k : Nat) (hx : (r, k) ∈ plainRegs) (data : W64) (h : Live s) :
    execRegisterWrite .pf (regOffset r k) (regPlace r).width data s =
      .next (s.fieldsWrite r k (BitVec.ofNat 64 (data.toNat % 2 ^ (regPlace r).width))) := by
  have hb : s.regByte .pf (regOffset r k) = some (r, k, 0) := by
    unfold regByte
    simp only [Option.bind_some, plainRegs_decode (r, k) hx]
    exact if_pos (plainRegs_there s (r, k) hx)
  unfold execRegisterWrite
  rw [reach_live s _ _ _ h, busWrite_whole s _ _ r k data hb]
  unfold wholeWrite
  rw [plainRegs_lockPart s (r, k) hx]
  exact congrArg _ (plainRegs_pfWrite s (r, k) hx _)

/-- The data's bits beyond the register's width touch none of its fields. -/
theorem fieldsWrite_cut_getLsbD (r : Reg) (k : Nat) (hx : (r, k) ∈ plainRegs) (data : W64) (i : Nat) (hi : i < 64) :
    ((s.fieldsWrite r k (BitVec.ofNat 64 (data.toNat % 2 ^ (regPlace r).width))).rget r k).getLsbD i =
      (if (regMask r .rw).getLsbD i then data.getLsbD i
       else (s.rget r k).getLsbD i && !((regMask r .rw1c).getLsbD i && data.getLsbD i)) := by
  obtain ⟨hrw, hrw1c⟩ := plainRegs_masks (r, k) hx
  rw [fieldsWrite_getLsbD s r k _ i hi]
  by_cases h : i < (regPlace r).width
  · rw [getLsbD_cut data _ i hi h]
  · have h1 : (regMask r .rw).getLsbD i = false := Bool.eq_false_iff.2 fun e => h (lt_of_mask _ _ _ hrw e)
    have h2 : (regMask r .rw1c).getLsbD i = false := Bool.eq_false_iff.2 fun e => h (lt_of_mask _ _ _ hrw1c e)
    rw [h1, h2, Bool.false_and, Bool.false_and]
    rfl

end Sys2Proof.Machine.State

namespace Sys2Proof

open Sys2Proof.Machine Sys2Proof.Machine.State Sys2Proof.Safety

/-- Settles O53: a write of EVC_CTRL keeps its bits, copies, then clears; one of EVC_CFG is taken, stops the counter or is
recorded; one of a plain register is the write by field type of its data; and any other write that touches a register is recorded. -/
theorem countersAndRegisterWrites : Obligations.CountersAndRegisterWrites := by
  unfold Obligations.CountersAndRegisterWrites
  refine ⟨fun v s hl i w hi => ?_, fun k v s hl => ?_, fun r k data s hl hx => ?_, fun fn a width data s => ?_⟩
  · have he : exec i s = .next (s.evcCtrl w) ∧ w.getLsbD 31 = v.getLsbD 31 ∧ w.getLsbD 28 = v.getLsbD 28 := by
      rcases hi with ⟨rfl, rfl⟩ | ⟨rfl, rfl⟩ <;> exact ⟨congrArg _ (bar_live s _ hl), by simp, by simp⟩
    obtain ⟨he, h31, h28⟩ := he
    refine ⟨s.evcCtrl w, he, ?_, ?_, fun h => ⟨evcCtrl_time s w h, evcCtrl_snap s w h⟩, fun h => ⟨?_, fun k => ?_⟩,
      evcCtrl_count s w, evcCtrl_onlyBits s w, (evcCtrl_onlyRegs s w).frame ?_⟩
    · rw [evcCtrl_run, h31]
    · rw [evcCtrl_snapOnTrc, h28]
    · exact evcCtrl_rget_of_noSnap s w h _ _ (by decide) (by decide)
    · exact evcCtrl_rget_of_noSnap s w h _ _ (by decide) (by decide)
    · exact evcRegs_of_not_ledger
  · have hx : exec (.evcCfgWrite k v) s = .next (s.evcCfg k v) := congrArg _ (bar_live s _ hl)
    refine ⟨fun he hs => ⟨_, hx, ?_⟩, fun he hs => ⟨_, hx, ?_⟩, fun he => ⟨_, hx, ?_⟩⟩
    · rw [evcCfg_of_stops s k v he hs]
      exact ⟨flag_fset_bit s F.EVC_CFG_EN k false rfl (by decide), OnlyBits.refl.fset List.mem_cons_self,
        (OnlyRegs.refl.fset ⟨rfl, rfl⟩).frame fun _ _ _ h => h⟩
    · rw [evcCfg_of_not_stops s k v he hs]
      exact accessFault_recorded s .pf 3 _ _
    · exact ⟨evcCfg_off_event s k v he, evcCfg_off_qual s k v he, evcCfg_off_any s k v he, evcCfg_off_en s k v he,
        evcCfg_off_err s k v he, (evcCfg_off_onlyRegs s k v he).frame fun _ _ _ h => h⟩
  · refine ⟨_, execRegisterWrite_plain s r k hx data hl, fieldsWrite_cut_getLsbD s r k hx data, fun q j hq => ?_, ?_⟩
    · exact (fieldsWrite_onlyRegs s r k _).2 q j fun e => hq (Prod.ext e.1 e.2)
    · exact (fieldsWrite_onlyRegs s r k _).frame fun _ _ _ h => h
  · refine ⟨fun hw h => ?_, fun h => congrArg _ (reach_boot s fn a _ h), fun hl h hw => ?_⟩
    · exact congrArg _ ((congrArg _ (busWrite_untouched s fn a width data hw h)).trans (reach_self s fn a))
    · refine ⟨_, congrArg Host.Outcome.next (reach_live s fn a _ hl), ?_⟩
      rw [busWrite_discarded s fn a width data h hw]
      exact accessFault_recorded s fn 1 a _

end Sys2Proof

section
/-! What an operation may change, named cell by cell: a relation that composes, and its rule for each update of the state. -/

namespace Sys2Proof.Proofs

open Sys2Proof Sys2Proof.Machine Sys2Proof.Machine.State Sys2Proof.Safety

/-! ## Cells -/

/-- A piece of the state that a bound on an operation can name: a register, a Bearing channel's phase source, a capture window's
held stamps, or what a port has measured. -/
inductive Cell where
  | reg (r : Reg) (k : Nat)
  | bearing (c : Nat)
  | win (w : Nat)
  | port (p : Nat)

/-- What a port has counted and measured, beside its transactions (R70). -/
def measured (p : Port) : W32 × W16 × Bool × Bool × W32 := (p.count, p.zCount, p.broken, p.level, p.period)

/-- The registers of a list, at one index. -/
def regCells (rs : List Reg) (k : Nat) : Set Cell := {x | ∃ r ∈ rs, x = .reg r k}

/-- The registers of a list, at every index. -/
def regCellsAll (rs : List Reg) : Set Cell := {x | ∃ r ∈ rs, ∃ k, x = .reg r k}

@[simp] theorem reg_mem_regCells (rs : List Reg) (k j : Nat) (q : Reg) : Cell.reg q j ∈ regCells rs k ↔ q ∈ rs ∧ j = k := by
  simp [regCells]

@[simp] theorem bearing_mem_regCells (rs : List Reg) (k c : Nat) : Cell.bearing c ∉ regCells rs k := by simp [regCells]

@[simp] theorem win_mem_regCells (rs : List Reg) (k w : Nat) : Cell.win w ∉ regCells rs k := by simp [regCells]

@[simp] theorem port_mem_regCells (rs : List Reg) (k p : Nat) : Cell.port p ∉ regCells rs k := by simp [regCells]

@[simp] theorem reg_mem_regCellsAll (rs : List Reg) (j : Nat) (q : Reg) : Cell.reg q j ∈ regCellsAll rs ↔ q ∈ rs := by
  simp [regCellsAll]

@[simp] theorem bearing_mem_regCellsAll (rs : List Reg) (c : Nat) : Cell.bearing c ∉ regCellsAll rs := by simp [regCellsAll]

@[simp] theorem win_mem_regCellsAll (rs : List Reg) (w : Nat) : Cell.win w ∉ regCellsAll rs := by simp [regCellsAll]

@[simp] theorem port_mem_regCellsAll (rs : List Reg) (p : Nat) : Cell.port p ∉ regCellsAll rs := by simp [regCellsAll]

theorem regCells_subset_all (rs : List Reg) (k : Nat) : regCells rs k ⊆ regCellsAll rs := by
  rintro _ ⟨r, hr, rfl⟩; exact ⟨r, hr, k, rfl⟩

theorem regCells_mono {rs ts : List Reg} (h : rs ⊆ ts) (k : Nat) : regCells rs k ⊆ regCells ts k := by
  rintro _ ⟨r, hr, rfl⟩; exact ⟨r, h hr, rfl⟩

/-! ## The bound -/

/-- Nothing changes from `s` to `t` but the cells in `S`, the kinds of state in `ps`, ledgers and logs; the bytes that the device
may log into stay the same, so that such bounds compose. -/
structure Within (S : Set Cell) (ps : List Part) (s t : State) : Prop where
  pending : t.pending = s.pending
  reg : ∀ q k, ledger q = false → .reg q k ∉ S → t.rget q k = s.rget q k
  same : ∀ p, p ∉ ps → Same s t p
  log : ∀ a, LogByte t a ↔ LogByte s a
  bearing : ∀ c, .bearing c ∉ S → t.bearing c = s.bearing c
  win : ∀ w, .win w ∉ S → t.win w = s.win w
  port : ∀ p, .port p ∉ S → measured (t.port p) = measured (s.port p)

/-- A state agrees with itself. -/
theorem same_refl (s : State) (p : Part) : Same s s p := by cases p <;> simp [Same]

/-- Agreement composes; of host memory, where the log bytes are the same. -/
theorem same_trans {s t u : State} {p : Part} (h : Same s t p) (g : Same t u p) (hl : ∀ a, LogByte t a ↔ LogByte s a) :
    Same s u p := by
  cases p
  case host => exact fun a ha => (g a (fun e => ha ((hl a).1 e))).trans (h a ha)
  all_goals simp_all [Same]

namespace Within

variable {S S' : Set Cell} {ps ps' : List Part} {s t u : State}

theorem refl (s : State) : Within S ps s s :=
  ⟨rfl, fun _ _ _ _ => rfl, fun p _ => same_refl s p, fun _ => Iff.rfl, fun _ _ => rfl, fun _ _ => rfl, fun _ _ => rfl⟩

theorem trans (h : Within S ps s t) (g : Within S ps t u) : Within S ps s u where
  pending := g.pending.trans h.pending
  reg q k hq hS := (g.reg q k hq hS).trans (h.reg q k hq hS)
  same p hp := same_trans (h.same p hp) (g.same p hp) h.log
  log a := (g.log a).trans (h.log a)
  bearing c hc := (g.bearing c hc).trans (h.bearing c hc)
  win w hw := (g.win w hw).trans (h.win w hw)
  port p hp := (g.port p hp).trans (h.port p hp)

theorem mono (h : Within S ps s t) (hS : S ⊆ S') (hp : ps ⊆ ps') : Within S' ps' s t where
  pending := h.pending
  reg q k hq hk := h.reg q k hq (fun e => hk (hS e))
  same p hk := h.same p (fun e => hk (hp e))
  log := h.log
  bearing c hc := h.bearing c (fun e => hc (hS e))
  win w hw := h.win w (fun e => hw (hS e))
  port p hk := h.port p (fun e => hk (hS e))

/-- A bound followed by a narrower one. -/
theorem next (h : Within S ps s t) (g : Within S' ps' t u) (hS : S' ⊆ S) (hp : ps' ⊆ ps) : Within S ps s u :=
  h.trans (g.mono hS hp)

/-- A field of a register that the bound does not name. -/
theorem fget (h : Within S ps s t) (f : Fld) (k : Nat) (hf : ledger f.r = false) (hS : .reg f.r k ∉ S) :
    t.fget f k = s.fget f k := by
  unfold State.fget; rw [h.reg _ _ hf hS]

theorem flag (h : Within S ps s t) (f : Fld) (k : Nat) (hf : ledger f.r = false) (hS : .reg f.r k ∉ S) :
    t.flag f k = s.flag f k := by
  unfold State.flag; rw [h.fget f k hf hS]

theorem time (h : Within S ps s t) (hp : Part.time ∉ ps) : t.now = s.now ∧ t.ticks = s.ticks := by
  obtain ⟨htb, -, hticks, -, -⟩ := h.same .time hp
  exact ⟨by unfold State.now; rw [htb], hticks⟩

/-- The bound as the frame of a claim. -/
theorem frame (h : Within S ps s t) {regs : Reg → Nat → Prop} (hr : ∀ q k, .reg q k ∈ S → regs q k) (hp : ps ⊆ ps') :
    Frame regs ps' s t :=
  ⟨h.pending, fun q k hq hk => h.reg q k hq (fun e => hk (hr q k e)), fun p hk => h.same p (fun e => hk (hp e))⟩

end Within

/-! ## The rule of each update -/

/-- The log bytes depend on the event ring's place, the trace's mode and stream, and the host regions. -/
theorem logByte_congr {s t : State} (hcfg : t.rget .FLT_EVR_CFG 0 = s.rget .FLT_EVR_CFG 0)
    (hbase : t.rget .FLT_EVR_BASE 0 = s.rget .FLT_EVR_BASE 0) (hmode : t.fget F.TRC_STAT_MODE 0 = s.fget F.TRC_STAT_MODE 0)
    (hstream : t.trace.stream = s.trace.stream) (hpart : t.trace.part = s.trace.part) (hmrs : t.mrs = s.mrs) (a : Nat) :
    LogByte t a ↔ LogByte s a := by
  have hb : t.fget F.FLT_EVR_BASE_ADDR 0 = s.fget F.FLT_EVR_BASE_ADDR 0 := by simp only [fget, hbase]
  have hc : t.flag F.FLT_EVR_CFG_EN 0 = s.flag F.FLT_EVR_CFG_EN 0 := by simp only [flag, fget, hcfg]
  have hm : t.flag F.TRC_STAT_MODE 0 = s.flag F.TRC_STAT_MODE 0 := by simp only [flag, hmode]
  have ha : ∀ o, t.streamAddr o = s.streamAddr o := fun o => by unfold streamAddr mr; rw [hstream, hpart, hmrs]
  have hr : t.streamRecs = s.streamRecs := by unfold streamRecs; rw [hstream]
  unfold LogByte
  simp only [hb, hc, hm, ha, hr]

/-- An update that leaves the registers, the queue and host memory alone. -/
theorem within_of_regs {S : Set Cell} {ps : List Part} {s t : State} (hr : t.regs = s.regs) (hpend : t.pending = s.pending)
    (hmrs : t.mrs = s.mrs) (hstream : t.trace.stream = s.trace.stream) (hpart : t.trace.part = s.trace.part)
    (same : ∀ p, p ∉ ps → Same s t p) (bearing : ∀ c, .bearing c ∉ S → t.bearing c = s.bearing c)
    (win : ∀ w, .win w ∉ S → t.win w = s.win w) (port : ∀ p, .port p ∉ S → measured (t.port p) = measured (s.port p)) :
    Within S ps s t := by
  have hg : ∀ q k, t.rget q k = s.rget q k := fun q k => by unfold rget; rw [hr]
  exact ⟨hpend, fun q k _ _ => hg q k, same, logByte_congr (hg _ _) (hg _ _) (by simp only [fget, hg]) hstream hpart hmrs,
    bearing, win, port⟩

/-- Registers on which the log bytes depend. -/
def logReg : Reg → Bool
  | .TRC_STAT | .FLT_EVR_CFG | .FLT_EVR_BASE => true
  | _ => false

variable (s : State)

theorem rset_within (r : Reg) (k : Nat) (v : W64) (hr : logReg r = false := by rfl) :
    Within (regCells [r] k) [] s (s.rset r k v) where
  pending := rfl
  reg q j _ hS := rget_rset_other s r q j k v (by simpa [imp_iff_not_or] using hS)
  same p _ := by cases p <;> simp [Same]
  log := logByte_congr (rget_rset_other _ _ _ _ _ _ (.inl (by rintro rfl; cases hr)))
    (rget_rset_other _ _ _ _ _ _ (.inl (by rintro rfl; cases hr)))
    (by unfold fget; rw [rget_rset_other _ _ _ _ _ _ (.inl (by rintro rfl; cases hr))]) rfl rfl rfl
  bearing _ _ := rfl
  win _ _ := rfl
  port _ _ := rfl

theorem fset_within (f : Fld) (k v : Nat) (hr : logReg f.r = false := by rfl) : Within (regCells [f.r] k) [] s (s.fset f k v) :=
  rset_within s f.r k _ hr

theorem fadd_within (f : Fld) (k n : Nat) (hr : logReg f.r = false := by rfl) : Within (regCells [f.r] k) [] s (s.fadd f k n) :=
  rset_within s f.r k _ hr

/-- Fields of TRC_STAT beside MODE are ledger. -/
theorem fset_traceStat_within (f : Fld) (v : Nat) (hr : f.r = .TRC_STAT := by rfl)
    (hm : f.lo + f.w ≤ 5 ∨ 6 ≤ f.lo := by decide) : Within ∅ [] s (s.fset f 0 v) where
  pending := rfl
  reg q j hq _ := rget_rset_other s f.r q j 0 _ (.inl (by rw [hr]; rintro rfl; cases hq))
  same p _ := by cases p <;> simp [Same]
  log := logByte_congr (rget_rset_other _ _ _ _ _ _ (.inl (by rw [hr]; decide)))
    (rget_rset_other _ _ _ _ _ _ (.inl (by rw [hr]; decide))) (fget_fset_field s f F.TRC_STAT_MODE 0 v hr.symm hm) rfl rfl rfl
  bearing _ _ := rfl
  win _ _ := rfl
  port _ _ := rfl

/-- What changes logs only changes no cell. -/
theorem within_of_logs {s t : State} (h : Logs s t) : Within ∅ [] s t where
  pending := by rw [h.shape]
  reg q k hq _ := h.reg q k hq
  same p _ := h.frame.2.2 p List.not_mem_nil
  log := h.logByte
  bearing _ _ := by unfold State.bearing; rw [h.shape]
  win _ _ := by unfold State.win; rw [h.shape]
  port _ _ := by unfold State.port; rw [h.shape]

theorem setDesc_within (n : Nat) (v : Desc) : Within ∅ [.ingress] s (s.setDesc n v) :=
  within_of_regs rfl rfl rfl rfl rfl (fun p hp => by cases p <;> simp_all [Same, setDesc]) (fun _ _ => rfl) (fun _ _ => rfl)
    (fun _ _ => rfl)

theorem port_setPort_other (p q : Nat) (v : Port) (h : q ≠ p) : (s.setPort p v).port q = s.port q := tabGet_tabSet_other _ _ _ _ _ h
theorem win_setWin_other (w x : Nat) (v : Window) (h : x ≠ w) : (s.setWin w v).win x = s.win x := tabGet_tabSet_other _ _ _ _ _ h
theorem bearing_setBearing_other (c d : Nat) (v : Bearing) (h : d ≠ c) : (s.setBearing c v).bearing d = s.bearing d :=
  tabGet_tabSet_other _ _ _ _ _ h

theorem setPort_within (p : Nat) (v : Port) : Within {.port p} [.ingress] s (s.setPort p v) :=
  within_of_regs rfl rfl rfl rfl rfl (fun p hp => by cases p <;> simp_all [Same, setPort]) (fun _ _ => rfl) (fun _ _ => rfl)
    (fun q hq => by rw [port_setPort_other s p q v (fun e => hq (e ▸ rfl))])

/-- A port whose transactions move on keeps what it has measured. -/
theorem setPort_within_measured (p : Nat) (v : Port) (h : measured v = measured (s.port p)) :
    Within ∅ [.ingress] s (s.setPort p v) := by
  have hw := setPort_within s p v
  refine ⟨hw.pending, fun q k hq _ => hw.reg q k hq (by simp), hw.same, hw.log, fun _ _ => rfl, fun _ _ => rfl, fun q _ => ?_⟩
  by_cases e : q = p
  · rw [e, port_setPort, h]
  · rw [port_setPort_other s p q v e]

theorem setBearing_within (c : Nat) (v : Bearing) : Within {.bearing c} [.phase] s (s.setBearing c v) :=
  within_of_regs rfl rfl rfl rfl rfl (fun p hp => by cases p <;> simp_all [Same, setBearing])
    (fun d hd => bearing_setBearing_other s c d v (fun e => hd (e ▸ rfl))) (fun _ _ => rfl) (fun _ _ => rfl)

theorem setWin_within (w : Nat) (v : Window) : Within {.win w} [.phase] s (s.setWin w v) :=
  within_of_regs rfl rfl rfl rfl rfl (fun p hp => by cases p <;> simp_all [Same, setWin]) (fun _ _ => rfl)
    (fun x hx => win_setWin_other s w x v (fun e => hx (e ▸ rfl))) (fun _ _ => rfl)

/-- Holds of periodic phase alarms (R49) and program entries (R136) are no cells. -/
theorem holds_within (hs : Tab Hold) : Within ∅ [.phase] s { s with holds := hs } :=
  within_of_regs rfl rfl rfl rfl rfl (fun p hp => by cases p <;> simp_all [Same]) (fun _ _ => rfl) (fun _ _ => rfl) (fun _ _ => rfl)

theorem entries_within (es : Tab RunParams) : Within ∅ [.phase] s { s with entries := es } :=
  within_of_regs rfl rfl rfl rfl rfl (fun p hp => by cases p <;> simp_all [Same]) (fun _ _ => rfl) (fun _ _ => rfl) (fun _ _ => rfl)

/-- Outputs of the egress hub are no cells. -/
theorem egress_within (pw : Tab Pwm) (pu : Nat) (gr : Tab OutBuf) (qu : Tab OutBuf) (tx : Tab (List TxFrame)) :
    Within ∅ [.egress] s { s with pwms := pw, pulses := pu, groups := gr, queues := qu, txq := tx } :=
  within_of_regs rfl rfl rfl rfl rfl (fun p hp => by cases p <;> simp_all [Same]) (fun _ _ => rfl) (fun _ _ => rfl) (fun _ _ => rfl)

/-- Tiles' sequencers and queued runs are no cells. -/
theorem tiles_within (ts : Tab Tile) (rs : List Run) (n : Nat) :
    Within ∅ [.tiles, .programs] s { s with tiles := ts, runs := rs, nextRun := n } :=
  within_of_regs rfl rfl rfl rfl rfl (fun p hp => by cases p <;> simp_all [Same]) (fun _ _ => rfl) (fun _ _ => rfl) (fun _ _ => rfl)

/-- The trace's own state, its stream kept, is a log. -/
theorem trace_within (x : Trace) (h : x.stream = s.trace.stream ∧ x.part = s.trace.part) : Within ∅ [] s { s with trace := x } :=
  within_of_logs (logs_trace s x h)

/-- The timebase counter and the servo's state are no cells. -/
theorem time_within (tb : BitVec 56) (wr : Byte) (n g : Nat) (b : Bool) :
    Within ∅ [.time] s { s with tb := tb, wrap := wr, ticks := n, goodSyncs := g, servoStepped := b } :=
  within_of_regs rfl rfl rfl rfl rfl (fun p hp => by cases p <;> simp_all [Same]) (fun _ _ => rfl) (fun _ _ => rfl) (fun _ _ => rfl)

/-- The commands in flight are no cells. -/
theorem cmds_within (cs : List Cmd) : Within ∅ [.cmds] s { s with cmds := cs } :=
  within_of_regs rfl rfl rfl rfl rfl (fun p hp => by cases p <;> simp_all [Same]) (fun _ _ => rfl) (fun _ _ => rfl) (fun _ _ => rfl)

/-! ## Steps of a chain -/

namespace Within

variable {S : Set Cell} {ps : List Part} {s t u : State}

theorem thenLogs (h : Within S ps s t) (g : Logs t u) : Within S ps s u :=
  h.next (within_of_logs g) (Set.empty_subset _) (List.nil_subset _)

theorem thenFset (h : Within S ps s t) (f : Fld) (k v : Nat) (hS : .reg f.r k ∈ S) (hr : logReg f.r = false := by rfl) :
    Within S ps s (t.fset f k v) :=
  h.next (fset_within t f k v hr) (by rintro _ ⟨r, hr, rfl⟩; rwa [List.mem_singleton.1 hr]) (List.nil_subset _)

theorem thenFadd (h : Within S ps s t) (f : Fld) (k n : Nat) (hS : .reg f.r k ∈ S) (hr : logReg f.r = false := by rfl) :
    Within S ps s (t.fadd f k n) := h.thenFset f k _ hS hr

/-- A step that changes no cell. -/
theorem thenParts {ps' : List Part} (h : Within S ps s t) (g : Within ∅ ps' t u) (hp : ps' ⊆ ps) : Within S ps s u :=
  h.next g (Set.empty_subset _) hp

theorem thenDesc (h : Within S ps s t) (n : Nat) (v : Desc) (hp : Part.ingress ∈ ps := by simp) :
    Within S ps s (t.setDesc n v) := h.thenParts (setDesc_within t n v) (by simpa using hp)

/-- A port whose transactions move on. -/
theorem thenPort (h : Within S ps s t) (p : Nat) (v : Port) (hp : Part.ingress ∈ ps := by simp)
    (hm : measured v = measured (t.port p) := by rfl) : Within S ps s (t.setPort p v) :=
  h.thenParts (setPort_within_measured t p v hm) (by simpa using hp)

theorem ite (c : Prop) [Decidable c] (ht : Within S ps s t) (hu : Within S ps s u) : Within S ps s (if c then t else u) := by
  split <;> assumption

end Within

/-! ## Loops -/

theorem forEach_append {α : Type} (f : α → State → State) (l m : List α) : forEach (l ++ m) f s = forEach m f (forEach l f s) :=
  List.foldl_append

variable {s}

/-- A loop changes what its passes change; a pass may rely on the bound so far. -/
theorem forEach_within {α : Type} {U : Set Cell} {ps : List Part} (f : α → State → State) (l : List α)
    (hf : ∀ a ∈ l, ∀ u, Within U ps s u → Within U ps u (f a u)) : Within U ps s (forEach l f s) := by
  induction l using List.reverseRecOn with
  | nil => exact .refl s
  | append_singleton l a ih =>
    rw [forEach_append]
    have h := ih (fun b hb => hf b (List.mem_append_left _ hb))
    exact h.trans (hf a (by simp) _ h)

/-- The pass of one element of a loop over distinct elements: what comes before it and after it are the other passes. -/
theorem forEach_pass {α : Type} {S : α → Set Cell} {ps : List Part} (f : α → State → State) (l : List α) (hn : l.Nodup) (a : α)
    (ha : a ∈ l) (hf : ∀ b ∈ l, ∀ u, Within {x | ∃ b ∈ l, x ∈ S b} ps s u → Within (S b) ps u (f b u)) :
    ∃ u, Within {x | ∃ b ∈ l, b ≠ a ∧ x ∈ S b} ps s u ∧ Within {x | ∃ b ∈ l, b ≠ a ∧ x ∈ S b} ps (f a u) (forEach l f s) := by
  obtain ⟨l₁, l₂, rfl⟩ := List.append_of_mem ha
  rw [List.nodup_middle, List.nodup_cons, List.mem_append, not_or] at hn
  obtain ⟨⟨ha₁, ha₂⟩, -⟩ := hn
  set R := {x | ∃ b ∈ l₁ ++ a :: l₂, b ≠ a ∧ x ∈ S b} with hR
  have hRU : R ⊆ {x | ∃ b ∈ l₁ ++ a :: l₂, x ∈ S b} := fun x ⟨b, hb, _, hx⟩ => ⟨b, hb, hx⟩
  have sub : ∀ b ∈ l₁ ++ a :: l₂, b ≠ a → S b ⊆ R := fun b hb hne x hx => ⟨b, hb, hne, hx⟩
  have subU : ∀ b ∈ l₁ ++ a :: l₂, S b ⊆ {x | ∃ b ∈ l₁ ++ a :: l₂, x ∈ S b} := fun b hb x hx => ⟨b, hb, hx⟩
  have h₁ : Within R ps s (forEach l₁ f s) := forEach_within f l₁ (fun b hb u hu =>
    have hb' : b ∈ l₁ ++ a :: l₂ := by simp [hb]
    (hf b hb' u (hu.mono hRU (List.Subset.refl _))).mono (sub b hb' (fun e => ha₁ (e ▸ hb))) (List.Subset.refl _))
  have hm : a ∈ l₁ ++ a :: l₂ := ha
  have h₂ := (h₁.mono hRU (List.Subset.refl _)).next (hf a hm _ (h₁.mono hRU (List.Subset.refl _))) (subU a hm) (List.Subset.refl _)
  refine ⟨forEach l₁ f s, h₁, ?_⟩
  rw [forEach_append]
  exact forEach_within (s := f a (forEach l₁ f s)) f l₂ (fun b hb u hu =>
    have hb' : b ∈ l₁ ++ a :: l₂ := by simp [hb]
    (hf b hb' u (h₂.trans (hu.mono hRU (List.Subset.refl _)))).mono (sub b hb' (fun e => ha₂ (e ▸ hb))) (List.Subset.refl _))

end Sys2Proof.Proofs
end

section
/-! Fields read after writes, and fault records: what a reader of one field needs of the shared operations. -/

namespace Sys2Proof.Proofs

open Sys2Proof Sys2Proof.Machine Sys2Proof.Machine.State Sys2Proof.Safety

variable (s : State)

/-! ## Fields -/

theorem fget_fset_ne (f g : Fld) (j k v : Nat) (h : g.r ≠ f.r) : (s.fset f k v).fget g j = s.fget g j :=
  fget_fset_reg s f g j k v (.inl h)

theorem flag_fset_ne (f g : Fld) (j k v : Nat) (h : g.r ≠ f.r) : (s.fset f k v).flag g j = s.flag g j := by
  unfold flag; rw [fget_fset_ne s f g j k v h]

theorem flag_fset_one (f : Fld) (k : Nat) (hw : f.w = 1) (h : f.lo + f.w ≤ 64) : (s.fset f k 1).flag f k = true :=
  flag_fset_bit s f k true hw h

theorem flag_fset_zero (f : Fld) (k : Nat) (hw : f.w = 1) (h : f.lo + f.w ≤ 64) : (s.fset f k 0).flag f k = false :=
  flag_fset_bit s f k false hw h

/-! A table set leaves the registers alone. -/
@[simp] theorem setWin_fget (w : Nat) (v : Window) (f : Fld) (k : Nat) : (s.setWin w v).fget f k = s.fget f k := rfl
@[simp] theorem setWin_flag (w : Nat) (v : Window) (f : Fld) (k : Nat) : (s.setWin w v).flag f k = s.flag f k := rfl
@[simp] theorem setBearing_fget (c : Nat) (v : Bearing) (f : Fld) (k : Nat) : (s.setBearing c v).fget f k = s.fget f k := rfl
@[simp] theorem setBearing_flag (c : Nat) (v : Bearing) (f : Fld) (k : Nat) : (s.setBearing c v).flag f k = s.flag f k := rfl
@[simp] theorem setPort_fget (p : Nat) (v : Port) (f : Fld) (k : Nat) : (s.setPort p v).fget f k = s.fget f k := rfl
@[simp] theorem setPort_flag (p : Nat) (v : Port) (f : Fld) (k : Nat) : (s.setPort p v).flag f k = s.flag f k := rfl
@[simp] theorem setDesc_fget (n : Nat) (v : Desc) (f : Fld) (k : Nat) : (s.setDesc n v).fget f k = s.fget f k := rfl
@[simp] theorem setDesc_flag (n : Nat) (v : Desc) (f : Fld) (k : Nat) : (s.setDesc n v).flag f k = s.flag f k := rfl

theorem fadd_eq (f : Fld) (k n : Nat) : s.fadd f k n = s.fset f k (s.fget f k + n) := rfl

/-! ## Bits that stay -/

section OnlyBits

variable {s} {t u : State} {r : Reg} {k : Nat} {fs : List Fld}

theorem onlyBits_of_eq (h : t.rget r k = s.rget r k) : OnlyBits s t r k fs := fun i _ => by rw [h]

theorem onlyBits_trans (h : OnlyBits s t r k fs) (g : OnlyBits t u r k fs) : OnlyBits s u r k fs :=
  fun i hi => (g i hi).trans (h i hi)

/-- A bound that does not name the register. -/
theorem onlyBits_of_within {S : Set Cell} {ps : List Part} (h : Within S ps s t) (hr : ledger r = false) (hS : .reg r k ∉ S) :
    OnlyBits s t r k fs := onlyBits_of_eq (h.reg r k hr hS)

end OnlyBits

/-! ## Fault records -/

/-- The newest record after a fault has its class, cause and place: it is new, or the one it repeats (R261-R263). -/
theorem fault_head (f : FaultRec) :
    ∃ g, (s.fault f).faults.head? = some g ∧ g.cls = f.cls ∧ g.cause = f.cause ∧ g.info0 = f.info0 := by
  have new : ∃ g, (s.faultNew f).faults.head? = some g ∧ g.cls = f.cls ∧ g.cause = f.cause ∧ g.info0 = f.info0 := by
    unfold faultNew
    dsimp only
    rw [traceEv_faults, event_faults]
    exact ⟨_, rfl, rfl, rfl, rfl⟩
  unfold fault
  split
  next n rest _ =>
    split
    next h =>
      simp only [faultRepeats, Bool.and_eq_true, beq_iff_eq] at h
      obtain ⟨⟨⟨⟨⟨hcls, -⟩, hcause⟩, hinfo⟩, -⟩, -⟩ := h
      exact ⟨_, rfl, hcls, hcause, hinfo⟩
    · exact new
  · exact new

/-- A discarded access is recorded with its place (R262). -/
theorem accessFault_head (fn : Fn) (cause off : Nat) (data : W64) :
    ∃ g, (s.accessFault fn cause off data).faults.head? = some g ∧ g.cls = 1 ∧ g.info0 = BitVec.ofNat 64 off := by
  obtain ⟨g, hg, hcls, -, hinfo⟩ := fault_head s _
  exact ⟨g, hg, hcls, hinfo⟩

theorem newest_of_faults {t u : State} {cls cause : Nat} (h : Newest t cls cause) (e : u.faults = t.faults) : Newest u cls cause := by
  obtain ⟨g, hg, hc⟩ := h
  exact ⟨g, e ▸ hg, hc⟩

end Sys2Proof.Proofs
end

section
/-! Capture windows: what a completion writes and leaves alone, and what the windows hold after an event (R53-R60). -/

namespace Sys2Proof.Proofs

open Sys2Proof Sys2Proof.Machine Sys2Proof.Machine.State Sys2Proof.Safety

variable (s : State)

/-- The registers in which a window shows its result (R53). -/
def winRegs : List Reg := [.BR_WIN_STAT, .BR_WIN_START, .BR_WIN_STOP, .BR_WIN_LEN]

/-- What the completion of window `w` may change, `n` being the descriptor it gates (R53-R56). -/
def doneCells (w n : Nat) : Set Cell := regCells winRegs w ∪ {.win w} ∪ regCells [.ING_D_CNT1] n

/-- What events may change in the windows (R53-R60). -/
def windowCells : Set Cell := regCellsAll (.ING_D_CNT1 :: winRegs) ∪ Set.range Cell.win

theorem doneCells_subset (w n : Nat) : doneCells w n ⊆ windowCells := by
  rintro x ((⟨r, hr, rfl⟩ | rfl) | ⟨r, hr, rfl⟩)
  · exact .inl (by simp [hr])
  · exact .inr ⟨w, rfl⟩
  · exact .inl (by simp_all)

/-! ## Completion -/

theorem windowVoid_within (n : Nat) (k : Nat × Nat) : Within (regCells [.ING_D_CNT1] n) [.ingress] s (s.windowVoid n k) := by
  unfold windowVoid
  dsimp only
  split
  · exact (setDesc_within _ _ _).mono (Set.empty_subset _) (List.Subset.refl _)
  · exact (((setDesc_within _ _ _).mono (Set.empty_subset _) (List.Subset.refl _)).next (fadd_within _ F.ING_D_CNT1_GATED n _) subset_rfl (by simp)).next
      (within_of_logs (count_logs _ _ _ _ _)) (Set.empty_subset _) (by simp)

/-- A window record waits in the hub of the gated descriptor (R56, R80). -/
theorem windowRecord_within (w : Nat) (a b len : W32) (inv sub inc : Bool) :
    Within (regCells [.ING_D_CNT1] (s.fget F.BR_WIN_CFG_GATE_DESC w)) [.ingress] s (s.windowRecord w a b len inv sub inc) := by
  unfold windowRecord
  dsimp only
  split
  · exact .refl s
  · refine Within.next ?_ (setDesc_within _ _ _) (Set.empty_subset _) (List.Subset.refl _)
    cases (inv || sub || inc)
    · exact .refl s
    · exact windowVoid_within s _ _

/-- The registers of window `w` as a completion leaves them (R53, R55, R58, R59). -/
def showWindow (w : Nat) (a b len : W32) (inc sub inv : Bool) (u : State) : State :=
  let u := (u.fset F.BR_WIN_START_STAMP w a.toNat).fset F.BR_WIN_STOP_STAMP w b.toNat
  let u := (u.fset F.BR_WIN_LEN_LEN w len.toNat).fadd F.BR_WIN_STAT_COUNT w 1
  let u := (u.fset F.BR_WIN_STAT_INCOMPLETE w (if inc then 1 else 0)).fset F.BR_WIN_STAT_SUB_RESOLUTION w (if sub then 1 else 0)
  (u.fset F.BR_WIN_STAT_ORDER_INVERTED w (if inv then 1 else 0)).fset F.BR_WIN_STAT_DONE w 1

theorem showWindow_within (w : Nat) (a b len : W32) (inc sub inv : Bool) :
    Within (regCells winRegs w) [] s (showWindow w a b len inc sub inv s) := by
  have set : ∀ (u : State) (f : Fld) (v : Nat), f.r ∈ winRegs → Within (regCells winRegs w) [] u (u.fset f w v) := by
    intro u f v hf
    refine (fset_within u f w v ?_).mono ?_ (List.Subset.refl _)
    · simp only [winRegs, List.mem_cons, List.not_mem_nil, or_false] at hf
      rcases hf with h | h | h | h <;> rw [h] <;> rfl
    · rintro _ ⟨r, hr, rfl⟩
      exact ⟨r, by simp_all, rfl⟩
  unfold showWindow
  refine Within.trans (Within.trans (Within.trans (Within.trans (Within.trans (Within.trans (Within.trans (set _ _ _ ?_) (set _ _ _ ?_))
    (set _ _ _ ?_)) (set _ _ _ ?_)) (set _ _ _ ?_)) (set _ _ _ ?_)) (set _ _ _ ?_)) (set _ _ _ ?_) <;> decide

section show_values
variable (w : Nat) (a b len : W32) (inc sub inv : Bool)

@[simp] theorem showWindow_start : (showWindow w a b len inc sub inv s).fget F.BR_WIN_START_STAMP w = a.toNat := by
  simp (disch := decide) only [showWindow, fadd_eq, fget_fset_ne, fget_fset_same]
  exact Nat.mod_eq_of_lt a.isLt

@[simp] theorem showWindow_stop : (showWindow w a b len inc sub inv s).fget F.BR_WIN_STOP_STAMP w = b.toNat := by
  simp (disch := decide) only [showWindow, fadd_eq, fget_fset_ne, fget_fset_same]
  exact Nat.mod_eq_of_lt b.isLt

@[simp] theorem showWindow_len : (showWindow w a b len inc sub inv s).fget F.BR_WIN_LEN_LEN w = len.toNat := by
  simp (disch := decide) only [showWindow, fadd_eq, fget_fset_ne, fget_fset_same]
  exact Nat.mod_eq_of_lt len.isLt

@[simp] theorem showWindow_count : (showWindow w a b len inc sub inv s).fget F.BR_WIN_STAT_COUNT w =
    (s.fget F.BR_WIN_STAT_COUNT w + 1) % 2 ^ F.BR_WIN_STAT_COUNT.w := by
  simp (disch := decide) only [showWindow, fadd_eq, fget_fset_ne, fget_fset_field, fget_fset_same]

@[simp] theorem showWindow_incomplete : (showWindow w a b len inc sub inv s).flag F.BR_WIN_STAT_INCOMPLETE w = inc := by
  simp (disch := decide) only [showWindow, fadd_eq, flag_fset_field, flag_fset_bit]

@[simp] theorem showWindow_subResolution : (showWindow w a b len inc sub inv s).flag F.BR_WIN_STAT_SUB_RESOLUTION w = sub := by
  simp (disch := decide) only [showWindow, fadd_eq, flag_fset_field, flag_fset_bit]

@[simp] theorem showWindow_orderInverted : (showWindow w a b len inc sub inv s).flag F.BR_WIN_STAT_ORDER_INVERTED w = inv := by
  simp (disch := decide) only [showWindow, fadd_eq, flag_fset_field, flag_fset_bit]

@[simp] theorem showWindow_done : (showWindow w a b len inc sub inv s).flag F.BR_WIN_STAT_DONE w = true := by
  simp (disch := decide) only [showWindow, fadd_eq, flag_fset_one]

@[simp] theorem showWindow_armed :
    (showWindow w a b len inc sub inv s).flag F.BR_WIN_STAT_ARMED w = s.flag F.BR_WIN_STAT_ARMED w := by
  simp (disch := decide) only [showWindow, fadd_eq, flag_fset_ne, flag_fset_field]

end show_values

/-- How a completion that holds the stamps of `v` reads them (R55, R58, R59). -/
structure Reading where
  a : W32
  b : W32
  len : W32
  inc : Bool
  sub : Bool
  inv : Bool

/-- The reading of window `w` from the stamps it holds. -/
def reading (w : Nat) : Reading :=
  let v := s.win w
  let inc := v.start.isNone || v.stop.isNone
  let a := (v.start.getD (0, 0)).1
  let b := (v.stop.getD (0, 0)).1
  let d := sdiff b a
  let sub := !inc && (if s.flag F.BR_WIN_CFG_DOMAIN w then
      decide (d.natAbs < s.fget F.BR_CH_QUANT_QUANT (s.fget F.BR_WIN_CFG_CHANNEL w)) else
      (v.start.getD (0, 0)).2 == (v.stop.getD (0, 0)).2)
  let inv := !inc && !sub && decide (d < 0)
  { a := a, b := b, len := if inc || sub || inv then 0 else b - a, inc := inc, sub := sub, inv := inv }

/-- The completed window before its end or its next arm. -/
def shown (w : Nat) : State :=
  let x := reading s w
  showWindow w x.a x.b x.len x.inc x.sub x.inv (s.windowRecord w x.a x.b x.len x.inv x.sub x.inc)

/-- A completion shows the window's reading, then the window is armed again or not (R53-R59). -/
theorem windowDone_eq (w : Nat) (byStart again : Bool) : s.windowDone w byStart again =
    if again && (shown s w).flag F.BR_WIN_CFG_REPEAT w then
      (shown s w).setWin w (if (reading s w).inv && byStart then { s.win w with stop := none } else {})
    else ((shown s w).fset F.BR_WIN_STAT_ARMED w 0).setWin w {} := rfl

theorem shown_within (w : Nat) : Within (doneCells w (s.fget F.BR_WIN_CFG_GATE_DESC w)) [.phase, .ingress] s (shown s w) :=
  ((windowRecord_within s w _ _ _ _ _ _).mono (fun _ h => .inr h) (by simp)).next (showWindow_within _ w _ _ _ _ _ _)
    (fun _ h => .inl (.inl h)) (by simp)

/-- A completion changes its window, its registers and the gated descriptor (R53-R56). -/
theorem windowDone_within (w : Nat) (byStart again : Bool) :
    Within (doneCells w (s.fget F.BR_WIN_CFG_GATE_DESC w)) [.phase, .ingress] s (s.windowDone w byStart again) := by
  rw [windowDone_eq]
  split
  · exact (shown_within s w).next (setWin_within _ _ _) (by rintro _ rfl; exact .inl (.inr rfl)) (by simp)
  · refine ((shown_within s w).next (fset_within _ _ _ _) ?_ (by simp)).next (setWin_within _ _ _) ?_ (by simp)
    · rintro _ ⟨r, hr, rfl⟩
      exact .inl (.inl ⟨r, by simp_all [winRegs], rfl⟩)
    · rintro _ rfl; exact .inl (.inr rfl)

/-- What a completed window shows (R53, R55, R58, R59). -/
structure Shows (t : State) (w : Nat) (x : Reading) (count : Nat) : Prop where
  start : t.fget F.BR_WIN_START_STAMP w = x.a.toNat
  stop : t.fget F.BR_WIN_STOP_STAMP w = x.b.toNat
  len : t.fget F.BR_WIN_LEN_LEN w = x.len.toNat
  count : t.fget F.BR_WIN_STAT_COUNT w = (count + 1) % 2 ^ F.BR_WIN_STAT_COUNT.w
  incomplete : t.flag F.BR_WIN_STAT_INCOMPLETE w = x.inc
  subResolution : t.flag F.BR_WIN_STAT_SUB_RESOLUTION w = x.sub
  orderInverted : t.flag F.BR_WIN_STAT_ORDER_INVERTED w = x.inv
  done : t.flag F.BR_WIN_STAT_DONE w = true

theorem Shows.setWin {t : State} {w : Nat} {x : Reading} {n : Nat} (h : Shows t w x n) (v : Window) : Shows (t.setWin w v) w x n :=
  ⟨h.start, h.stop, h.len, h.count, h.incomplete, h.subResolution, h.orderInverted, h.done⟩

/-- ARMED is none of what a completed window shows. -/
theorem Shows.disarm {t : State} {w : Nat} {x : Reading} {n : Nat} (h : Shows t w x n) :
    Shows (t.fset F.BR_WIN_STAT_ARMED w 0) w x n := by
  obtain ⟨ha, hb, hl, hc, hi, hs, ho, hd⟩ := h
  constructor <;> simp (disch := decide) only [fget_fset_ne, fget_fset_field, flag_fset_field, *]

theorem showWindow_shows (w : Nat) (x : Reading) :
    Shows (showWindow w x.a x.b x.len x.inc x.sub x.inv s) w x (s.fget F.BR_WIN_STAT_COUNT w) :=
  ⟨showWindow_start .., showWindow_stop .., showWindow_len .., showWindow_count .., showWindow_incomplete ..,
    showWindow_subResolution .., showWindow_orderInverted .., showWindow_done ..⟩

theorem windowDone_shows (w : Nat) (byStart again : Bool) :
    Shows (s.windowDone w byStart again) w (reading s w) (s.fget F.BR_WIN_STAT_COUNT w) := by
  have hshown : Shows (shown s w) w (reading s w) (s.fget F.BR_WIN_STAT_COUNT w) := by
    have h := showWindow_shows (s.windowRecord w (reading s w).a (reading s w).b (reading s w).len (reading s w).inv
      (reading s w).sub (reading s w).inc) w (reading s w)
    rwa [(windowRecord_within s w _ _ _ _ _ _).fget _ _ rfl (by simp)] at h
  rw [windowDone_eq]
  split
  · exact hshown.setWin _
  · exact hshown.disarm.setWin _

/-- A completed window stays armed where REPEAT may arm it again (R53, R59). -/
theorem windowDone_armed (w : Nat) (byStart again : Bool) (h : s.flag F.BR_WIN_STAT_ARMED w = true) :
    (s.windowDone w byStart again).flag F.BR_WIN_STAT_ARMED w = (again && s.flag F.BR_WIN_CFG_REPEAT w) := by
  have hr : (shown s w).flag F.BR_WIN_CFG_REPEAT w = s.flag F.BR_WIN_CFG_REPEAT w :=
    (shown_within s w).flag _ _ rfl (by simp [doneCells, winRegs])
  have ha : (shown s w).flag F.BR_WIN_STAT_ARMED w = true := by
    rw [shown, showWindow_armed, (windowRecord_within s w _ _ _ _ _ _).flag _ _ rfl (by simp), h]
  rw [windowDone_eq, hr]
  split
  next e => rw [e, setWin_flag, ha]
  next e => rw [Bool.not_eq_true] at e; rw [e, setWin_flag, flag_fset_zero _ _ _ (by decide) (by decide)]

/-- A window that is not armed again holds no stamp. -/
theorem windowDone_win (w : Nat) (byStart : Bool) : (s.windowDone w byStart false).win w = {} := by
  rw [windowDone_eq, Bool.false_and, if_neg Bool.false_ne_true, win_setWin]

end Sys2Proof.Proofs
end

section
/-! Window events: one window's view, the loop over the windows, and the windows of a channel that loses its source
(R53-R60). -/

namespace Sys2Proof.Proofs

open Sys2Proof Sys2Proof.Machine Sys2Proof.Machine.State Sys2Proof.Safety

variable (s : State)

/-- A loop each of whose passes leaves the state alone. -/
theorem forEach_id {α : Type} (f : α → State → State) (l : List α) (h : ∀ a ∈ l, f a s = s) : forEach l f s = s := by
  unfold forEach
  induction l with
  | nil => rfl
  | cons a l ih =>
    rw [List.foldl_cons, h a List.mem_cons_self]
    exact ih (fun b hb => h b (List.mem_cons_of_mem _ hb))

/-! ## One event -/

/-- The stamp that an event gives window `w`: the phase of its channel, if valid, or the time (R55). -/
def stampOf (w : Nat) : Option W32 :=
  if s.flag F.BR_WIN_CFG_DOMAIN w then s.phaseOf (s.fget F.BR_WIN_CFG_CHANNEL w) else some s.now

/-- The stamps that window `w` holds after an event of source `src` with stamp `x` (R55). -/
def stamped (src w : Nat) (x : W32) : Window :=
  let v := s.win w
  let opens := s.fget F.BR_WIN_CFG_START_SRC w == src && v.start.isNone
  { start := if opens then some (x, s.ticks) else v.start
    stop := if s.fget F.BR_WIN_CFG_STOP_SRC w == src && v.stop.isNone then some (x, s.ticks) else v.stop
    wrap := if opens then s.wrap else v.wrap
    unlocked := if opens then !(s.flag F.TB_STATUS_TB_LOCKED 0) else v.unlocked }

/-- Whether window `w` is armed on source `src` (R53). -/
def watches (src w : Nat) : Bool :=
  s.flag F.BR_WIN_STAT_ARMED w && (s.fget F.BR_WIN_CFG_START_SRC w == src || s.fget F.BR_WIN_CFG_STOP_SRC w == src)

theorem windowOne_unwatched (src w : Nat) (h : watches s src w = false) : windowOne src w s = s := by
  rw [watches, Bool.and_eq_false_iff] at h
  unfold windowOne
  dsimp only
  rw [if_pos (by rcases h with h | h <;> simp [h])]

/-- An event on a window that has no phase to take (R59). -/
theorem windowOne_invalid (src w : Nat) (h : watches s src w = true) (hx : stampOf s w = none) :
    windowOne src w s = s.windowDone w false true := by
  rw [watches, Bool.and_eq_true] at h
  unfold stampOf at hx
  unfold windowOne
  dsimp only
  simp only [h, hx, Bool.not_true, Bool.or_self, Bool.false_eq_true, if_false]

/-- An event on a window that takes its stamp (R55). -/
theorem windowOne_stamped (src w : Nat) (x : W32) (h : watches s src w = true) (hx : stampOf s w = some x) :
    windowOne src w s =
      if (stamped s src w x).start.isSome && (stamped s src w x).stop.isSome then
        (s.setWin w (stamped s src w x)).windowDone w (s.fget F.BR_WIN_CFG_START_SRC w == src && (s.win w).start.isNone) true
      else s.setWin w (stamped s src w x) := by
  rw [watches, Bool.and_eq_true] at h
  unfold stampOf at hx
  unfold windowOne
  dsimp only
  simp only [h, hx, Bool.not_true, Bool.or_self, Bool.false_eq_true, if_false]
  rfl

theorem windowOne_within (src w : Nat) :
    Within (doneCells w (s.fget F.BR_WIN_CFG_GATE_DESC w)) [.phase, .ingress] s (windowOne src w s) := by
  have set : ∀ v, Within (doneCells w (s.fget F.BR_WIN_CFG_GATE_DESC w)) [.phase, .ingress] s (s.setWin w v) := fun v =>
    (setWin_within s w v).mono (by rintro _ rfl; exact .inl (.inr rfl)) (by simp)
  have done : ∀ v b, Within (doneCells w (s.fget F.BR_WIN_CFG_GATE_DESC w)) [.phase, .ingress] (s.setWin w v)
      ((s.setWin w v).windowDone w b true) := fun v b => windowDone_within (s.setWin w v) w b true
  cases h : watches s src w with
  | false => rw [windowOne_unwatched s src w h]; exact .refl s
  | true =>
    cases hx : stampOf s w with
    | none => rw [windowOne_invalid s src w h hx]; exact windowDone_within s w _ _
    | some x =>
      rw [windowOne_stamped s src w x h hx]
      split
      · exact (set _).trans (done _ _)
      · exact set _

theorem reg_mem_doneCells (q : Reg) (k w n : Nat) :
    Cell.reg q k ∈ doneCells w n ↔ (q ∈ winRegs ∧ k = w) ∨ (q = .ING_D_CNT1 ∧ k = n) := by simp [doneCells]

theorem win_mem_doneCells (x w n : Nat) : Cell.win x ∈ doneCells w n ↔ x = w := by simp [doneCells]

/-- The pass of window `w` in a loop over windows whose passes change no more than a completion does. -/
theorem windows_pass (f : Nat → State → State)
    (hf : ∀ w u, Within (doneCells w (u.fget F.BR_WIN_CFG_GATE_DESC w)) [.phase, .ingress] u (f w u))
    (l : List Nat) (hn : l.Nodup) (w : Nat) (hw : w ∈ l) :
    ∃ u, Within (windowCells \ (regCells winRegs w ∪ {.win w})) [.phase, .ingress] s u ∧
      Within (windowCells \ (regCells winRegs w ∪ {.win w})) [.phase, .ingress] (f w u) (forEach l f s) := by
  have hcfg : ∀ (S : Set Cell), (∀ x ∈ S, ∃ b n, x ∈ doneCells b n) → ∀ k, Cell.reg .BR_WIN_CFG k ∉ S := by
    intro S hS k hk
    obtain ⟨b, n, hx⟩ := hS _ hk
    rw [reg_mem_doneCells] at hx
    simp [winRegs] at hx
  obtain ⟨u, hu, ht⟩ := forEach_pass (s := s) (ps := [.phase, .ingress])
    (S := fun b => doneCells b (s.fget F.BR_WIN_CFG_GATE_DESC b)) f l hn w hw
    (fun b _ u hu => by
      have h := hf b u
      have hg : Cell.reg .BR_WIN_CFG b ∉ {x | ∃ b ∈ l, x ∈ doneCells b (s.fget F.BR_WIN_CFG_GATE_DESC b)} :=
        hcfg _ (by rintro x ⟨b, _, hx⟩; exact ⟨b, _, hx⟩) b
      rwa [hu.fget F.BR_WIN_CFG_GATE_DESC b rfl hg] at h)
  have sub : {x | ∃ b ∈ l, b ≠ w ∧ x ∈ doneCells b (s.fget F.BR_WIN_CFG_GATE_DESC b)} ⊆
      windowCells \ (regCells winRegs w ∪ {.win w}) := by
    rintro x ⟨b, _, hne, hx⟩
    refine ⟨doneCells_subset _ _ hx, ?_⟩
    rintro (⟨r, hr, rfl⟩ | rfl)
    · rw [reg_mem_doneCells] at hx
      rcases hx with ⟨_, rfl⟩ | ⟨rfl, _⟩
      · exact hne rfl
      · simp [winRegs] at hr
    · rw [win_mem_doneCells] at hx
      exact hne hx.symm
  exact ⟨u, hu.mono sub (List.Subset.refl _), ht.mono sub (List.Subset.refl _)⟩

/-- The pass of window `w` in an event. -/
theorem windowEvent_pass (src w : Nat) (hw : w < 32) :
    ∃ u, Within (windowCells \ (regCells winRegs w ∪ {.win w})) [.phase, .ingress] s u ∧
      Within (windowCells \ (regCells winRegs w ∪ {.win w})) [.phase, .ingress] (windowOne src w u) (s.windowEvent src) :=
  windows_pass s (windowOne src) (fun w u => windowOne_within u src w) (List.range 32) List.nodup_range w (List.mem_range.2 hw)

theorem windowEvent_within (src : Nat) : Within windowCells [.phase, .ingress] s (s.windowEvent src) :=
  forEach_within _ _ (fun _ _ u _ => (windowOne_within u src _).mono (doneCells_subset _ _) (List.Subset.refl _))

/-- An event on which no window is armed. -/
theorem windowEvent_unwatched (src : Nat) (h : ∀ w, w < 32 → watches s src w = false) : s.windowEvent src = s :=
  forEach_id s _ _ (fun w hw => windowOne_unwatched s src w (h w (List.mem_range.1 hw)))

/-! ## A lost source -/

/-- What the loss of channel `c`'s source may change in the windows (R60). -/
def channelWindows (c : Nat) : Set Cell :=
  {x | ∃ w, s.fget F.BR_WIN_CFG_CHANNEL w = c ∧ x ∈ doneCells w (s.fget F.BR_WIN_CFG_GATE_DESC w)}

theorem channelWindows_subset (c : Nat) : channelWindows s c ⊆ windowCells := fun _ ⟨_, _, hx⟩ => doneCells_subset _ _ hx

theorem windowsLost_within (c : Nat) : Within (channelWindows s c) [.phase, .ingress] s (s.windowsLost c) := by
  refine forEach_within _ _ (fun w hw u hu => ?_)
  simp only [List.mem_filter, Bool.and_eq_true, beq_iff_eq] at hw
  obtain ⟨-, -, hc⟩ := hw
  have hg : u.fget F.BR_WIN_CFG_GATE_DESC w = s.fget F.BR_WIN_CFG_GATE_DESC w := by
    refine hu.fget _ _ rfl ?_
    rintro ⟨b, -, hx⟩
    rw [reg_mem_doneCells] at hx
    simp [winRegs] at hx
  refine (windowDone_within u w false true).mono (fun x hx => ⟨w, hc, ?_⟩) (List.Subset.refl _)
  rwa [hg] at hx

/-- Channel `c` has no armed phase window: nothing closes. -/
theorem windowsLost_none (c : Nat) (h : ∀ w, w < 32 → s.flag F.BR_WIN_STAT_ARMED w = true → s.flag F.BR_WIN_CFG_DOMAIN w = true →
    s.fget F.BR_WIN_CFG_CHANNEL w ≠ c) : s.windowsLost c = s := by
  unfold windowsLost
  rw [List.filter_eq_nil_iff.2]
  · rfl
  · intro w hw
    simp only [Bool.and_eq_true, beq_iff_eq, not_and]
    rintro ⟨ha, hd⟩
    exact h w (List.mem_range.1 hw) ha hd

/-- Window `w` has closed INCOMPLETE, and is armed again only with REPEAT (R59, R60). -/
def ClosedAs (s t : State) (w : Nat) : Prop :=
  t.flag F.BR_WIN_STAT_INCOMPLETE w = true ∧ t.flag F.BR_WIN_STAT_DONE w = true ∧
    t.fget F.BR_WIN_STAT_COUNT w = (s.fget F.BR_WIN_STAT_COUNT w + 1) % 2 ^ F.BR_WIN_STAT_COUNT.w ∧
    t.flag F.BR_WIN_STAT_ARMED w = s.flag F.BR_WIN_CFG_REPEAT w

/-- The state and the result of a window are seen through what leaves its cells alone. -/
theorem ClosedAs.congr {s s' t t' : State} {S : Set Cell} {ps : List Part} {w : Nat} (h : ClosedAs s' t' w) (hs : Within S ps s s')
    (ht : Within S ps t' t) (hw : ∀ q ∈ [Reg.BR_WIN_STAT, .BR_WIN_CFG], Cell.reg q w ∉ S) : ClosedAs s t w := by
  obtain ⟨hi, hd, hc, ha⟩ := h
  have hstat : Cell.reg .BR_WIN_STAT w ∉ S := hw _ (by simp)
  have hcfg : Cell.reg .BR_WIN_CFG w ∉ S := hw _ (by simp)
  exact ⟨by rw [ht.flag _ _ rfl hstat, hi], by rw [ht.flag _ _ rfl hstat, hd],
    by rw [ht.fget _ _ rfl hstat, hc, hs.fget _ _ rfl hstat], by rw [ht.flag _ _ rfl hstat, ha, hs.flag _ _ rfl hcfg]⟩

theorem windowDone_closes (w : Nat) (ha : s.flag F.BR_WIN_STAT_ARMED w = true)
    (hv : (s.win w).start = none ∨ (s.win w).stop = none) : ClosedAs s (s.windowDone w false true) w := by
  have hinc : (reading s w).inc = true := by
    unfold reading
    rcases hv with h | h <;> simp [h]
  have hs := windowDone_shows s w false true
  exact ⟨hs.incomplete.trans hinc, hs.done, hs.count, by rw [windowDone_armed s w false true ha, Bool.true_and]⟩

/-- An armed phase window of the channel that lacks a stamp closes (R60). -/
theorem windowsLost_closes (c w : Nat) (hw : w < 32) (ha : s.flag F.BR_WIN_STAT_ARMED w = true)
    (hd : s.flag F.BR_WIN_CFG_DOMAIN w = true) (hc : s.fget F.BR_WIN_CFG_CHANNEL w = c)
    (hv : (s.win w).start = none ∨ (s.win w).stop = none) : ClosedAs s (s.windowsLost c) w := by
  obtain ⟨u, hu, ht⟩ := windows_pass s (fun w s => s.windowDone w false true) (fun w u => windowDone_within u w _ _)
    ((List.range 32).filter (fun w =>
      s.flag F.BR_WIN_STAT_ARMED w && s.flag F.BR_WIN_CFG_DOMAIN w && s.fget F.BR_WIN_CFG_CHANNEL w == c))
    (List.nodup_range.filter _) w (by simp [hw, ha, hd, hc])
  have hout : ∀ q ∈ [Reg.BR_WIN_STAT, .BR_WIN_CFG], Cell.reg q w ∉ windowCells \ (regCells winRegs w ∪ {.win w}) := by
    simp [windowCells, winRegs]
  refine (windowDone_closes u w ?_ ?_).congr hu ht hout
  · rw [hu.flag _ _ rfl (hout _ (by simp)), ha]
  · rwa [hu.win w (by simp)]

end Sys2Proof.Proofs
end

section
/-! The ingress hub: what taking a sample or a transaction changes (R62-R83). -/

namespace Sys2Proof.Proofs

open Sys2Proof Sys2Proof.Machine Sys2Proof.Machine.State Sys2Proof.Safety

variable (s : State)

/-- The registers of descriptors that units in the hub change (R71). -/
def hubCells : Set Cell := regCellsAll [.ING_D_CTRL, .ING_D_CNT0, .ING_D_CNT1]

@[simp] theorem reg_mem_hubCells (q : Reg) (k : Nat) : Cell.reg q k ∈ hubCells ↔ q ∈ [Reg.ING_D_CTRL, .ING_D_CNT0, .ING_D_CNT1] := by
  simp [hubCells]

@[simp] theorem bearing_mem_hubCells (c : Nat) : Cell.bearing c ∉ hubCells := by simp [hubCells]

@[simp] theorem win_mem_hubCells (w : Nat) : Cell.win w ∉ hubCells := by simp [hubCells]

@[simp] theorem port_mem_hubCells (p : Nat) : Cell.port p ∉ hubCells := by simp [hubCells]

theorem portError_within (n : Nat) : Within (regCells [.ING_PORT_STAT, .ING_PORT_CNT] n) [] s (s.portError n) :=
  ((Within.refl s).thenFadd F.ING_PORT_CNT_ERRORS n 1 (by simp)).thenFset F.ING_PORT_STAT_ERR n 1 (by simp)

theorem unmatched_within (n : Nat) : Within (regCells [.ING_PORT_CNT] n) [] s (s.unmatched n) :=
  fadd_within s F.ING_PORT_CNT_UNMATCHED n 1

/-! ## Units -/

theorem dropUnit_within (n cause : Nat) : Within hubCells [.ingress] s (s.dropUnit n cause) := by
  unfold dropUnit
  refine Within.thenLogs ?_ (traceEv_logs _ _ _ _ _)
  have h := (((Within.refl (S := hubCells) (ps := [.ingress]) s).thenDesc n { s.desc n with dropped := min ((s.desc n).dropped + 1) 0xFFFF }).thenFadd
    F.ING_D_CNT0_DROPS n 1 (by simp)).thenLogs (count_logs _ 0x121 (some n) (some (s.fget F.ING_D_CFG_PART n)) 1)
  exact .ite _ h (h.thenFset F.ING_D_CTRL_LAST_DROP n cause (by simp))

theorem unitQuiet_within (n : Nat) : Within hubCells [.ingress] s (s.unitQuiet n) :=
  ((Within.refl s).thenFadd F.ING_D_CNT1_QUIET n 1 (by simp)).thenLogs (count_logs _ _ _ _ _)

theorem unitTake_within (n : Nat) (u : UnitRec) (want : Nat) : Within hubCells [.ingress] s (s.unitTake n u want) := by
  have h : Within hubCells [.ingress] s ((s.fset F.ING_D_CTRL_STATE n 2).setDesc n
      { s.desc n with seq := (s.desc n).seq + 1 }) := ((Within.refl s).thenFset F.ING_D_CTRL_STATE n 2 (by simp)).thenDesc n _
  unfold unitTake
  exact .ite _ (h.trans (dropUnit_within _ _ _)) (.ite _ (h.trans (dropUnit_within _ _ _)) (h.thenDesc n _))

theorem unitStart_within (n flags info want : Nat) (g : Option Gating) :
    Within hubCells [.ingress] s (s.unitStart n flags info want g) := .ite _ (unitQuiet_within s n) (unitTake_within s n _ _)

theorem grain_within (n : Nat) (bs : List Byte) (line : Bool) : Within hubCells [.ingress] s (s.grain n bs line) := by
  have r : Within hubCells [.ingress] s s := .refl s
  unfold grain
  dsimp only
  split
  · exact r
  · refine .ite _ ?_ (.ite _ (r.thenDesc n _) (.ite _ (r.thenDesc n _) ((r.thenDesc n _).trans (dropUnit_within _ _ _))))
    exact ((r.thenFadd F.ING_D_CNT1_GATED n 1 (by simp)).thenLogs (count_logs _ _ _ _ _)).thenDesc n _

theorem unitEnd_within (n : Nat) : Within hubCells [.ingress] s (s.unitEnd n) := by
  unfold unitEnd
  dsimp only
  split
  · exact .refl s
  · exact .ite _ ((Within.refl s).thenDesc n _) ((Within.refl s).thenDesc n _)

theorem unitWhole_within (n flags info : Nat) (bs : List Byte) : Within hubCells [.ingress] s (s.unitWhole n flags info bs) :=
  ((unitStart_within s n _ _ _ _).trans (grain_within _ _ _ _)).trans (unitEnd_within _ _)

/-! ## Transactions and samples -/

theorem serialStart_within (src : Nat) : Within hubCells [.ingress] s (s.serialStart src) := by
  unfold serialStart
  dsimp only
  split
  · exact .refl s
  next q rest _ =>
    have h : Within hubCells [.ingress] s (s.setPort src
        { s.port src with waiting := rest, busy := true, serving := q.descs, began := s.ticks }) := (Within.refl s).thenPort src _
    exact .ite _ (.refl s) (h.trans (forEach_within _ _ (fun n _ u _ => unitStart_within u n _ _ _ _)))

theorem ask_within (src n : Nat) (l : Bool) : Within hubCells [.ingress] s (s.ask src n l) := by
  have r : Within hubCells [.ingress] s s := .refl s
  unfold ask
  exact .ite _ (r.thenDesc n _) (.ite _ (r.thenPort src _) (r.thenPort src _))

theorem sampleAt_within (n : Nat) (l : Bool) : Within hubCells [.ingress] s (s.sampleAt n l) := by
  unfold sampleAt
  exact .ite _ (.ite _ ((Within.refl s).thenDesc n _) (.refl s)) ((unitWhole_within s n _ _ _).thenDesc n _)

theorem sampleAsk_within (n : Nat) (l : Bool) : Within hubCells [.ingress] s (s.sampleAsk n l) :=
  .ite _ (.refl s) (.ite _ (ask_within s _ n l) (sampleAt_within s n l))

theorem captureLatch_within (n : Nat) : Within hubCells [.ingress] s (s.captureLatch n) :=
  .ite _ (.refl s) (sampleAsk_within s n true)

theorem ssiStarts_within : Within hubCells [.ingress] s s.ssiStarts :=
  forEach_within _ _ (fun src _ u _ => serialStart_within u src)

/-- A natural event samples, or counts as unmatched (R64, R70, R72). -/
theorem naturalSample_within (src : Nat) : Within (hubCells ∪ regCells [.ING_PORT_CNT] src) [.ingress] s (s.naturalSample src) := by
  unfold naturalSample
  refine .ite _ (.refl s) ?_
  split
  · exact (unmatched_within s src).mono Set.subset_union_right (List.nil_subset _)
  · have h : Within hubCells [.ingress] s (forEach (s.naturals src) (fun n s => s.sampleAt n false) s) :=
      forEach_within _ _ (fun n _ u _ => sampleAt_within u n false)
    generalize forEach (s.naturals src) (fun n s => s.sampleAt n false) s = u at h
    exact (h.mono Set.subset_union_left (List.Subset.refl _)).thenPort src { u.port src with fast := false }

theorem serialEnd_within (src : Nat) (bs : List Byte) : Within hubCells [.ingress] s (s.serialEnd src bs) := by
  unfold serialEnd
  exact ((Within.refl s).thenPort src _).trans
    (forEach_within _ _ (fun n _ u _ => (grain_within u n bs false).trans (unitEnd_within _ n)))

end Sys2Proof.Proofs
end

section
/-! What an alarm's action changes (R24, R45): starts, capture latches, releases, pulses and trace triggers. -/

namespace Sys2Proof.Proofs

open Sys2Proof Sys2Proof.Machine Sys2Proof.Machine.State Sys2Proof.Safety

variable (s : State)

/-- The registers that the actions of alarms may change, beside ledgers. -/
def actRegs : List Reg :=
  [.ING_D_CTRL, .ING_D_CNT0, .ING_D_CNT1, .PT_STAT, .ACT_PWM_STAT, .ACT_GRP_STAT, .ACT_DQ_STAT, .EVC_SNAP, .EVC_SNAPTIME]

def actCells : Set Cell := regCellsAll actRegs

/-- The kinds of state that the actions of alarms may change. -/
def actParts : List Part := [.ingress, .egress, .tiles, .programs]

theorem hubCells_subset_act : hubCells ⊆ actCells := by
  rintro _ ⟨r, hr, k, rfl⟩
  exact ⟨r, by revert hr; simp only [actRegs, List.mem_cons, List.not_mem_nil, or_false]; tauto, k, rfl⟩

@[simp] theorem reg_mem_actCells (q : Reg) (k : Nat) : Cell.reg q k ∈ actCells ↔ q ∈ actRegs := by simp [actCells]

/-- A change in the hub is one that an action may make. -/
theorem Within.act {s t : State} (h : Within hubCells [.ingress] s t) : Within actCells actParts s t :=
  h.mono hubCells_subset_act (by simp [actParts])

/-! ## Program starts -/

theorem setStartQ_within (t : Nat) (q : List Nat) : Within actCells actParts s (s.setStartQ t q) := by
  have h : Within actCells actParts s (s.modTile t (fun x => { x with startQ := q })) :=
    (tiles_within s _ s.runs s.nextRun).mono (Set.empty_subset _) (by simp [actParts])
  exact h.thenFset F.PT_STAT_STARTQ t q.length (by simp [actRegs])

theorem enqueue_within (r : Run) (t : Nat) : Within actCells actParts s (s.enqueue r t) :=
  .ite _ (setStartQ_within s t _) (setStartQ_within s t _)

theorem addRun_within (r : Run) : Within actCells actParts s (s.addRun r) := by
  unfold addRun
  refine .trans ?_ (forEach_within _ _ (fun t _ u _ => enqueue_within u _ t))
  exact (tiles_within s s.tiles _ _).mono (Set.empty_subset _) (by simp [actParts])

theorem alarmStart_within (k p : Nat) : Within actCells actParts s (s.alarmStart k p) := by
  unfold alarmStart
  refine .ite _ (.refl s) (.ite _ (addRun_within s _) (forEach_within _ _ (fun t _ u _ => ?_)))
  exact (((Within.refl u).thenFadd F.PT_STAT_START_DROP t 1 (by simp [actRegs])).thenFset F.PT_STAT_DROP_EV t 1
    (by simp [actRegs])).thenLogs (count_logs _ _ _ _ _)

/-! ## Releases -/

/-- A change of the outputs' hub state. -/
theorem Within.thenEgress {S : Set Cell} {ps : List Part} {t : State} (h : Within S ps s t) (pw : Tab Pwm) (pu : Nat) (gr qu : Tab OutBuf)
    (tx : Tab (List TxFrame)) (hp : Part.egress ∈ ps := by simp [actParts]) :
    Within S ps s { t with pwms := pw, pulses := pu, groups := gr, queues := qu, txq := tx } :=
  h.thenParts (egress_within t pw pu gr qu tx) (by simpa using hp)

theorem releaseMark_logs (o p : Nat) (fresh : Bool) : Logs s (s.releaseMark o p fresh) := by
  unfold releaseMark
  refine Logs.trans ?_ (traceEv_logs _ _ _ _ _)
  have h := count_logs s 0x140 (some o) (some p) 1
  cases fresh
  · rw [if_neg Bool.false_ne_true]; exact h.trans (count_logs _ _ _ _ _)
  · exact h

theorem pwmSet_within (o duty : Nat) (stale : Bool) : Within actCells actParts s (s.pwmSet o duty stale) := by
  have r : Within actCells actParts s s := .refl s
  unfold pwmSet
  refine .ite _ ?_ (r.thenEgress s _ s.pulses s.groups s.queues s.txq)
  exact ((r.thenFset F.ACT_PWM_STAT_DUTY o duty (by simp [actRegs])).thenFset F.ACT_PWM_STAT_STALE o (if stale then 1 else 0)
    (by simp [actRegs])).thenEgress s _ s.pulses s.groups s.queues s.txq

theorem pwmMiss_within (o : Nat) : Within actCells actParts s (pwmMiss o s) := by
  have h : Within actCells actParts s (s.fadd F.ACT_PWM_STAT_MISS o 1) := (Within.refl s).thenFadd _ o 1 (by simp [actRegs])
  unfold pwmMiss
  dsimp only
  split
  · exact h.trans (pwmSet_within _ o _ _)
  · have g := h.thenFset F.ACT_PWM_STAT_STALE o 1 (by simp [actRegs])
    split
    · exact g.thenEgress s _ s.pulses s.groups s.queues s.txq
    · exact g
  · exact h

theorem releaseFirst_within (g : Nat) (b : OutBuf) (p : Nat) (outs : List Nat) :
    Within actCells actParts s (releaseGroup.releaseFirst g s b p outs) := by
  have marks : ∀ fresh, Within actCells actParts s (forEach outs (fun o s => s.releaseMark o p fresh) s) := fun fresh =>
    forEach_within _ _ (fun o _ u _ => (Within.refl u).thenLogs (releaseMark_logs u o p fresh))
  have duties : ∀ (l : List (Nat × Nat)) (bs : List Byte) (t : State), Within actCells actParts t
      (l.foldl (fun (s : State) (o, i) => s.pwmSet o (leField bs (4 * i) 3) false) t) := fun l bs t =>
    forEach_within (fun (e : Nat × Nat) (s : State) => s.pwmSet e.1 (leField bs (4 * e.2) 3) false) l
      (fun e _ u _ => pwmSet_within u e.1 _ false)
  have group : ∀ (t : State) (v : OutBuf), Within actCells actParts s t → Within actCells actParts s (t.setGroup g v) :=
    fun t v h => h.thenEgress s t.pwms t.pulses _ t.queues t.txq
  unfold releaseGroup.releaseFirst
  refine .ite _ ?_ ?_
  · exact (group _ _ ((marks _).trans (duties _ _ _))).thenFset F.ACT_GRP_STAT_FRESH g 0 (by simp [actRegs])
  · exact group _ _ ((marks _).trans (forEach_within _ _ (fun o _ u _ => pwmMiss_within u o)))

theorem releaseGroup_within (g : Nat) : Within actCells actParts s (s.releaseGroup g) := by
  unfold releaseGroup
  dsimp only
  split
  · exact .ite _ (.refl s) (releaseFirst_within s g _ _ _)
  · exact releaseFirst_within s g _ _ _

theorem triggerPulse_within (t : Nat) : Within actCells actParts s (s.triggerPulse t) :=
  .ite _ ((Within.refl s).thenEgress s s.pwms _ s.groups s.queues s.txq) (.refl s)

theorem driveQueue_within (q : Nat) (f : List Byte) : Within actCells actParts s (s.driveQueue q f) := by
  have r : Within actCells actParts s s := .refl s
  exact .ite _ (r.thenEgress s s.pwms s.pulses s.groups s.queues _) (r.thenFadd F.ACT_DQ_STAT_DISCARD q 1 (by simp [actRegs]))

theorem Within.thenQueue {t : State} (h : Within actCells actParts s t) (q : Nat) (v : OutBuf) :
    Within actCells actParts s (t.setQueue q v) := h.thenEgress s t.pwms t.pulses t.groups _ t.txq

theorem queueFirst_within (q : Nat) : Within actCells actParts s (s.queueFirst q).2 := by
  have h := (Within.refl (S := actCells) (ps := actParts) s).thenLogs
    (releaseMark_logs s (32 + q) (s.fget F.ACT_DQ_CFG_PART q) (s.freshNow (s.queue q)))
  unfold queueFirst
  dsimp only
  split
  · have g := (h.thenQueue s q { s.queue q with staged := none }).thenFset F.ACT_DQ_STAT_FRESH q 0 (by simp [actRegs])
    split
    · exact g
    · exact g.thenFadd F.ACT_DQ_STAT_DISCARD q 1 (by simp [actRegs])
  · exact h.thenFadd F.ACT_DQ_STAT_MISS q 1 (by simp [actRegs])

theorem releaseQueue_within (q : Nat) : Within actCells actParts s (s.releaseQueue q) := by
  have drive : ∀ (t : State) (f : List Byte), Within actCells actParts s t → Within actCells actParts s (t.driveQueue q f) :=
    fun t f h => h.trans (driveQueue_within t q f)
  have again : ∀ f : List Byte, Within actCells actParts s (if f = [] then s else s.driveQueue q f) := fun f =>
    .ite _ (.refl s) (drive s f (.refl s))
  have h : ∀ n, Within actCells actParts s ((s.queueFirst q).2.setQueue q
      { (s.queueFirst q).2.queue q with applied := some (n, (s.queueFirst q).1.getD []) }) := fun n =>
    (queueFirst_within s q).thenQueue s q _
  unfold releaseQueue
  refine .ite _ (.refl s) ?_
  extract_lets sent
  clear_value sent
  cases sent with
  | some f => exact again f
  | none =>
    dsimp only
    split
    · exact drive _ _ (h _)
    · exact h _

/-! ## Trace triggers -/

theorem snapshot_within : Within actCells actParts s s.snapshot := by
  unfold snapshot
  exact ((Within.refl s).thenFset F.EVC_SNAPTIME_NS 0 _ (by simp [actRegs])).trans
    (forEach_within _ _ (fun k _ u _ => (Within.refl u).thenFset F.EVC_SNAP_COUNT k _ (by simp [actRegs])))

theorem Within.thenTraceStat {S : Set Cell} {ps : List Part} {s t : State} (h : Within S ps s t) (f : Fld) (v : Nat)
    (hr : f.r = .TRC_STAT := by rfl) (hm : f.lo + f.w ≤ 5 ∨ 6 ≤ f.lo := by decide) : Within S ps s (t.fset f 0 v) :=
  h.thenParts (fset_traceStat_within t f v hr hm) (List.nil_subset _)

theorem traceMark_within (ty trig : Nat) : Within actCells actParts s (s.traceMark ty trig) := by
  have h := ((Within.refl (S := actCells) (ps := actParts) s).thenLogs
    (tracePut_logs s (s.traceRec 0x3F ty s.tracePart [(16, trig)]))).thenTraceStat F.TRC_STAT_LAST_TRIG trig
  exact .ite _ (h.trans (snapshot_within _)) h

theorem traceStopped_within : Within actCells actParts s s.traceStopped := by
  have h : Within actCells actParts s (if s.flag F.TRC_STAT_MODE 0 then s.streamDrain else s) := by
    split
    next hm => exact (Within.refl s).thenLogs (streamDrain_logs s hm)
    · exact .refl s
  exact h.thenTraceStat F.TRC_STAT_STATE 4

theorem traceStop_within (trig : Nat) : Within actCells actParts s (s.traceStop trig) := by
  have h := (traceMark_within s 2 trig).thenTraceStat F.TRC_STAT_STATE 3
  unfold traceStop
  refine .ite _ (.ite _ (h.trans (traceStopped_within _)) ?_) (.ite _ ?_ (.refl s))
  · exact h.thenParts (trace_within _ _ ⟨rfl, rfl⟩) (List.nil_subset _)
  · exact (Within.refl s).thenParts (trace_within s _ ⟨rfl, rfl⟩) (List.nil_subset _)

theorem traceStart_within (trig : Nat) : Within actCells actParts s (s.traceStart trig) := by
  have h := (traceMark_within s 1 trig).thenTraceStat F.TRC_STAT_STATE 2
  unfold traceStart
  dsimp only
  refine .ite _ ?_ (.refl s)
  split
  · exact .ite _ (h.trans (traceStop_within _ _)) h
  · exact h

theorem traceAlarm_within (start : Bool) (p arg : Nat) : Within actCells actParts s (s.traceAlarm start p arg) :=
  .ite _ (.refl s) (.ite _ (.refl s) (.ite _ (traceStart_within s arg) (traceStop_within s arg)))

theorem traceInput_within (n : Nat) : Within actCells actParts s (s.traceInput n) := by
  have h : Within actCells actParts s (if natBit (s.fget F.TRC_TRIG_TRIG 0) (32 + n) then s.traceStart (0x10 + n) else s) :=
    .ite _ (traceStart_within s _) (.refl s)
  exact .ite _ (h.trans (traceStop_within _ _)) h

/-! ## The action of a firing -/

theorem alarmAct_within (k : Nat) : Within actCells actParts s (alarmAct k s) := by
  unfold alarmAct
  dsimp only
  split
  · exact alarmStart_within s k _
  · exact (captureLatch_within s _).act
  · exact releaseGroup_within s _
  · exact triggerPulse_within s _
  · exact traceAlarm_within s true _ _
  · exact traceAlarm_within s false _ _
  · exact releaseQueue_within s _
  · exact .refl s

end Sys2Proof.Proofs
end

section
/-! Alarm slots: one firing, and all that fire on one tick (R45-R51). -/

namespace Sys2Proof.Proofs

open Sys2Proof Sys2Proof.Machine Sys2Proof.Machine.State Sys2Proof.Safety

variable (s : State)

/-- The registers that a firing changes in its slot (R45). -/
def alarmRegs : List Reg := [.BR_AL_STAT, .BR_AL_TARGET]

/-- The kinds of state that firings and their actions may change. -/
def firedParts : List Part := .phase :: actParts

/-! ## One firing -/

/-- A firing as far as the flags and counts of its slot (R47-R49). -/
def alarmMark (past resync : Bool) (k : Nat) (s : State) : State :=
  let p := s.fget F.BR_AL_CFG_PART k
  let s := ((s.fset F.BR_AL_STAT_FIRED k 1).fadd F.BR_AL_STAT_FIRE_CNT k 1).count 0x130 (some k) (some p) 1
  let s := if past then (s.fset F.BR_AL_STAT_PAST k 1).count 0x131 (some k) (some p) 1 else s
  if resync then (s.fset F.BR_AL_STAT_RESYNC k 1).count 0x132 (some k) (some p) 1 else s

/-- A fire is a mark, what the windows and the trace see, and the next target. -/
theorem alarmFire_shape (past resync back : Bool) (k : Nat) : ∃ fs, alarmFire past resync back k s =
    (((alarmMark past resync k s).windowEvent k).traceEv 0x22 0x50 (some (s.fget F.BR_AL_CFG_PART k)) fs).alarmNext k past back :=
  ⟨_, rfl⟩

/-- One flag of a slot set, and its event counted. -/
theorem fset_count_within (f : Fld) (k v code : Nat) (p : Option Nat) (hr : logReg f.r = false := by rfl) :
    Within (regCells [f.r] k) [] s ((s.fset f k v).count code (some k) p 1) :=
  (fset_within s f k v hr).thenLogs (count_logs _ _ _ _ _)

theorem alarmMark_within (past resync : Bool) (k : Nat) : Within (regCells [.BR_AL_STAT] k) [] s (alarmMark past resync k s) := by
  have h1 := ((fset_within s F.BR_AL_STAT_FIRED k 1).thenFadd F.BR_AL_STAT_FIRE_CNT k 1 (by simp)).thenLogs
    (count_logs _ 0x130 (some k) (some (s.fget F.BR_AL_CFG_PART k)) 1)
  have h2 := Within.ite (past = true) (h1.trans (fset_count_within _ F.BR_AL_STAT_PAST k 1 0x131 (some (s.fget F.BR_AL_CFG_PART k)))) h1
  exact .ite _ (h2.trans (fset_count_within _ F.BR_AL_STAT_RESYNC k 1 0x132 (some (s.fget F.BR_AL_CFG_PART k)))) h2

/-- Another field of a slot through one flag set and counted. -/
theorem fget_fset_count (f g : Fld) (k v code : Nat) (p : Option Nat) (hr : g.r = f.r) (hd : f.lo + f.w ≤ g.lo ∨ g.lo + g.w ≤ f.lo)
    (hl : ledger g.r = false) : ((s.fset f k v).count code (some k) p 1).fget g k = s.fget g k := by
  rw [(count_logs _ _ _ _ _).field g k hl, fget_fset_field s f g k v hr hd]

/-- A field of the slot that no flag of a firing overlaps, after the mark. -/
theorem alarmMark_fget (past resync : Bool) (k : Nat) (g : Fld) (hr : g.r = .BR_AL_STAT) (hf : g.lo + g.w ≤ 3 ∨ 5 ≤ g.lo) :
    (alarmMark past resync k s).fget g k = ((s.fset F.BR_AL_STAT_FIRED k 1).fadd F.BR_AL_STAT_FIRE_CNT k 1).fget g k := by
  have hl : ledger g.r = false := by rw [hr]; rfl
  have hp : F.BR_AL_STAT_PAST.lo + F.BR_AL_STAT_PAST.w ≤ g.lo ∨ g.lo + g.w ≤ F.BR_AL_STAT_PAST.lo := by
    show 3 + 1 ≤ g.lo ∨ g.lo + g.w ≤ 3; omega
  have hs : F.BR_AL_STAT_RESYNC.lo + F.BR_AL_STAT_RESYNC.w ≤ g.lo ∨ g.lo + g.w ≤ F.BR_AL_STAT_RESYNC.lo := by
    show 4 + 1 ≤ g.lo ∨ g.lo + g.w ≤ 4; omega
  unfold alarmMark
  cases past <;> cases resync <;> simp only [Bool.false_eq_true, if_false, if_true]
  · rw [(count_logs _ _ _ _ _).field g k hl]
  · rw [fget_fset_count _ _ g k _ _ _ hr hs hl, (count_logs _ _ _ _ _).field g k hl]
  · rw [fget_fset_count _ _ g k _ _ _ hr hp hl, (count_logs _ _ _ _ _).field g k hl]
  · rw [fget_fset_count _ _ g k _ _ _ hr hs hl, fget_fset_count _ _ g k _ _ _ hr hp hl, (count_logs _ _ _ _ _).field g k hl]

theorem alarmMark_fired (past resync : Bool) (k : Nat) : (alarmMark past resync k s).flag F.BR_AL_STAT_FIRED k = true := by
  unfold flag
  rw [alarmMark_fget s past resync k F.BR_AL_STAT_FIRED rfl (.inl (by decide))]
  simp (disch := decide) only [fadd_eq, fget_fset_field, fget_fset_same]
  rfl

theorem alarmMark_count (past resync : Bool) (k : Nat) : (alarmMark past resync k s).fget F.BR_AL_STAT_FIRE_CNT k =
    (s.fget F.BR_AL_STAT_FIRE_CNT k + 1) % 2 ^ F.BR_AL_STAT_FIRE_CNT.w := by
  rw [alarmMark_fget s past resync k F.BR_AL_STAT_FIRE_CNT rfl (.inr (by decide))]
  simp (disch := decide) only [fadd_eq, fget_fset_field, fget_fset_same]

theorem alarmMark_armed (past resync : Bool) (k : Nat) :
    (alarmMark past resync k s).flag F.BR_AL_STAT_ARMED k = s.flag F.BR_AL_STAT_ARMED k := by
  unfold flag
  rw [alarmMark_fget s past resync k F.BR_AL_STAT_ARMED rfl (.inl (by decide))]
  simp (disch := decide) only [fadd_eq, fget_fset_field]

theorem alarmMark_past (resync : Bool) (k : Nat) : (alarmMark true resync k s).flag F.BR_AL_STAT_PAST k = true := by
  have h : ∀ (u : State) (code : Nat) (p : Option Nat), ((u.fset F.BR_AL_STAT_PAST k 1).count code (some k) p 1).flag
      F.BR_AL_STAT_PAST k = true := fun u code p => by
    rw [(count_logs _ _ _ _ _).flag _ k rfl, flag_fset_one _ _ _ (by decide) (by decide)]
  unfold alarmMark
  cases resync <;> simp only [Bool.false_eq_true, if_false, if_true]
  · exact h _ _ _
  · rw [(count_logs _ _ _ _ _).flag _ k rfl, flag_fset_field _ F.BR_AL_STAT_RESYNC F.BR_AL_STAT_PAST _ _ rfl (by decide)]
    exact h _ _ _

/-! ## The next target -/

theorem alarmNext_within (k : Nat) (catchUp back : Bool) :
    Within (regCells alarmRegs k) [.phase] s (s.alarmNext k catchUp back) := by
  have r : Within (regCells alarmRegs k) [.phase] s s := .refl s
  have t : ∀ v, Within (regCells alarmRegs k) [.phase] s (s.fset F.BR_AL_TARGET_TARGET k v) := fun v =>
    r.thenFset F.BR_AL_TARGET_TARGET k v (by simp [alarmRegs])
  unfold alarmNext
  refine .ite _ (r.thenFset F.BR_AL_STAT_ARMED k 0 (by simp [alarmRegs])) (.ite _ ?_ (.ite _ ?_ (t _)))
  · exact (t _).thenParts (holds_within _ _) (List.Subset.refl _)
  · exact (t _).thenFadd F.BR_AL_STAT_SKIP k _ (by simp [alarmRegs])

/-- The next target of a time alarm is its registers' alone. -/
theorem alarmNext_time_within (k : Nat) (catchUp back : Bool) (hd : s.flag F.BR_AL_CFG_DOMAIN k = false) :
    Within (regCells alarmRegs k) [] s (s.alarmNext k catchUp back) := by
  have r : Within (regCells alarmRegs k) [] s s := .refl s
  have t : ∀ v, Within (regCells alarmRegs k) [] s (s.fset F.BR_AL_TARGET_TARGET k v) := fun v =>
    r.thenFset F.BR_AL_TARGET_TARGET k v (by simp [alarmRegs])
  unfold alarmNext
  simp only [hd, Bool.false_eq_true, if_false]
  exact .ite _ (r.thenFset F.BR_AL_STAT_ARMED k 0 (by simp [alarmRegs]))
    (.ite _ ((t _).thenFadd F.BR_AL_STAT_SKIP k _ (by simp [alarmRegs])) (t _))

theorem alarmNext_flag (k : Nat) (catchUp back : Bool) (g : Fld) (hr : g.r = .BR_AL_STAT) (hg : 1 ≤ g.lo ∧ g.lo + g.w ≤ 16) :
    (s.alarmNext k catchUp back).fget g k = s.fget g k := by
  have ht : ∀ v, (s.fset F.BR_AL_TARGET_TARGET k v).fget g k = s.fget g k := fun v =>
    fget_fset_ne s F.BR_AL_TARGET_TARGET g k k v (by rw [hr]; decide)
  unfold alarmNext
  dsimp only
  split
  · exact fget_fset_field s F.BR_AL_STAT_ARMED g k 0 hr (.inl hg.1)
  · split
    · exact ht _
    · split
      · rw [fadd_eq, fget_fset_field _ F.BR_AL_STAT_SKIP g k _ hr (.inr hg.2), ht]
      · exact ht _

theorem alarmNext_armed (k : Nat) (catchUp back : Bool) : (s.alarmNext k catchUp back).flag F.BR_AL_STAT_ARMED k =
    (s.flag F.BR_AL_STAT_ARMED k && !(s.fget F.BR_AL_CFG_MODE k == 1)) := by
  have ht : ∀ v, (s.fset F.BR_AL_TARGET_TARGET k v).flag F.BR_AL_STAT_ARMED k = s.flag F.BR_AL_STAT_ARMED k := fun v =>
    flag_fset_ne s F.BR_AL_TARGET_TARGET F.BR_AL_STAT_ARMED k k v (by decide)
  unfold alarmNext
  dsimp only
  split
  next h => rw [flag_fset_zero s F.BR_AL_STAT_ARMED k (by decide) (by decide), h]; simp
  next h =>
    rw [beq_eq_false_iff_ne.2 h, Bool.not_false, Bool.and_true]
    split
    · exact ht _
    · split
      · rw [fadd_eq, flag_fset_field _ F.BR_AL_STAT_SKIP F.BR_AL_STAT_ARMED k _ rfl (by decide), ht]
      · exact ht _

/-- A one-shot slot keeps its target (R49). -/
theorem alarmNext_oneShot (k : Nat) (catchUp back : Bool) (h : s.fget F.BR_AL_CFG_MODE k = 1) :
    (s.alarmNext k catchUp back).rget .BR_AL_TARGET k = s.rget .BR_AL_TARGET k := by
  unfold alarmNext
  dsimp only
  rw [if_pos h]
  exact rget_rset_other s .BR_AL_STAT .BR_AL_TARGET k k _ (.inl (by decide))

/-- A periodic time alarm on time moves on by PERIOD (R49). -/
theorem alarmNext_periodic (k : Nat) (back : Bool) (h : s.fget F.BR_AL_CFG_MODE k = 2) (hd : s.flag F.BR_AL_CFG_DOMAIN k = false) :
    (s.alarmNext k false back).fget F.BR_AL_TARGET_TARGET k =
      (s.fget F.BR_AL_TARGET_TARGET k + s.fget F.BR_AL_PERIOD_PERIOD k) % 2 ^ 32 := by
  have hm : ¬ (s.fget F.BR_AL_CFG_MODE k = 1) := by rw [h]; decide
  unfold alarmNext
  dsimp only
  rw [if_neg hm, hd, if_neg Bool.false_ne_true, if_neg Bool.false_ne_true, fget_fset_same s F.BR_AL_TARGET_TARGET k _ (by decide)]
  simp [BitVec.toNat_add, BitVec.toNat_ofNat]

/-! ## A firing whole -/

/-- What a firing does to its own slot (R47-R49). -/
structure Fired (s t : State) (k : Nat) (past : Bool) : Prop where
  fired : t.flag F.BR_AL_STAT_FIRED k = true
  count : t.fget F.BR_AL_STAT_FIRE_CNT k = (s.fget F.BR_AL_STAT_FIRE_CNT k + 1) % 2 ^ F.BR_AL_STAT_FIRE_CNT.w
  late : past = true → t.flag F.BR_AL_STAT_PAST k = true
  armed : t.flag F.BR_AL_STAT_ARMED k = (s.flag F.BR_AL_STAT_ARMED k && !(s.fget F.BR_AL_CFG_MODE k == 1))
  oneShot : s.fget F.BR_AL_CFG_MODE k = 1 → t.rget .BR_AL_TARGET k = s.rget .BR_AL_TARGET k
  periodic : past = false → s.fget F.BR_AL_CFG_MODE k = 2 → s.flag F.BR_AL_CFG_DOMAIN k = false →
    t.fget F.BR_AL_TARGET_TARGET k = (s.fget F.BR_AL_TARGET_TARGET k + s.fget F.BR_AL_PERIOD_PERIOD k) % 2 ^ 32

/-- A firing is seen through what leaves its slot alone. -/
theorem Fired.congr {s s' t t' : State} {S : Set Cell} {ps : List Part} {k : Nat} {past : Bool} (h : Fired s' t' k past)
    (hs : Within S ps s s') (ht : Within S ps t' t)
    (hk : ∀ q ∈ [Reg.BR_AL_STAT, .BR_AL_TARGET, .BR_AL_CFG, .BR_AL_PERIOD], Cell.reg q k ∉ S) : Fired s t k past := by
  have hstat : Cell.reg .BR_AL_STAT k ∉ S := hk _ (by simp)
  have htgt : Cell.reg .BR_AL_TARGET k ∉ S := hk _ (by simp)
  have hcfg : Cell.reg .BR_AL_CFG k ∉ S := hk _ (by simp)
  have hper : Cell.reg .BR_AL_PERIOD k ∉ S := hk _ (by simp)
  have hmode := hs.fget F.BR_AL_CFG_MODE k rfl hcfg
  constructor
  · rw [ht.flag _ _ rfl hstat, h.fired]
  · rw [ht.fget _ _ rfl hstat, h.count, hs.fget _ _ rfl hstat]
  · intro e; rw [ht.flag _ _ rfl hstat, h.late e]
  · rw [ht.flag _ _ rfl hstat, h.armed, hs.flag _ _ rfl hstat, hmode]
  · intro e; rw [ht.reg _ _ rfl htgt, h.oneShot (by rw [hmode, e]), hs.reg _ _ rfl htgt]
  · intro e hm hd
    rw [ht.fget _ _ rfl htgt, h.periodic e (by rw [hmode, hm]) (by rw [hs.flag _ _ rfl hcfg, hd]), hs.fget _ _ rfl htgt,
      hs.fget _ _ rfl hper]

theorem alarmNext_fired (past resync back : Bool) (k : Nat) {u : State} {ps : List Part}
    (h : Within windowCells ps (alarmMark past resync k s) u) : Fired s (u.alarmNext k past back) k past := by
  have out : ∀ q ∈ [Reg.BR_AL_STAT, .BR_AL_TARGET, .BR_AL_CFG, .BR_AL_PERIOD], Cell.reg q k ∉ windowCells := by
    simp [windowCells, winRegs]
  have hm := alarmMark_within s past resync k
  have hcfg : ∀ f : Fld, f.r = .BR_AL_CFG → u.fget f k = s.fget f k := fun f hf => by
    rw [h.fget f k (by rw [hf]; rfl) (by rw [hf]; exact out _ (by simp)), hm.fget f k (by rw [hf]; rfl) (by simp [hf])]
  have hmode : u.fget F.BR_AL_CFG_MODE k = s.fget F.BR_AL_CFG_MODE k := hcfg _ rfl
  have hdom : u.flag F.BR_AL_CFG_DOMAIN k = s.flag F.BR_AL_CFG_DOMAIN k := by unfold flag; rw [hcfg _ rfl]
  constructor
  · unfold flag
    rw [alarmNext_flag u k past back F.BR_AL_STAT_FIRED rfl (by decide)]
    exact (h.flag F.BR_AL_STAT_FIRED k rfl (out _ (by simp))).trans (alarmMark_fired s past resync k)
  · rw [alarmNext_flag u k past back F.BR_AL_STAT_FIRE_CNT rfl (by decide), h.fget _ _ rfl (out _ (by simp)), alarmMark_count]
  · rintro rfl
    unfold flag
    rw [alarmNext_flag u k true back F.BR_AL_STAT_PAST rfl (by decide)]
    exact (h.flag F.BR_AL_STAT_PAST k rfl (out _ (by simp))).trans (alarmMark_past s resync k)
  · rw [alarmNext_armed, hmode, h.flag _ _ rfl (out _ (by simp)), alarmMark_armed]
  · intro e
    rw [alarmNext_oneShot u k past back (hmode.trans e), h.reg _ _ rfl (out _ (by simp)), hm.reg _ _ rfl (by simp)]
  · rintro rfl e hd
    rw [alarmNext_periodic u k back (hmode.trans e) (hdom.trans hd), h.fget _ _ rfl (out _ (by simp)), hm.fget _ _ rfl (by simp),
      h.fget _ _ rfl (out _ (by simp)), hm.fget _ _ rfl (by simp)]

theorem alarmFire_fired (past resync back : Bool) (k : Nat) : Fired s (alarmFire past resync back k s) k past := by
  obtain ⟨fs, e⟩ := alarmFire_shape s past resync back k
  rw [e]
  exact alarmNext_fired s past resync back k ((windowEvent_within _ k).thenLogs (traceEv_logs _ _ _ _ _))

/-- A firing changes its slot and what the windows show (R47-R49, R53). -/
theorem alarmFire_within (past resync back : Bool) (k : Nat) :
    Within (regCells alarmRegs k ∪ windowCells) [.phase, .ingress] s (alarmFire past resync back k s) := by
  obtain ⟨fs, e⟩ := alarmFire_shape s past resync back k
  rw [e]
  have h := ((alarmMark_within s past resync k).mono (S' := regCells alarmRegs k ∪ windowCells) (ps' := [.phase, .ingress])
    (by rintro _ ⟨r, hr, rfl⟩; exact .inl (by simp_all [alarmRegs])) (List.nil_subset _)).next (windowEvent_within _ k)
    Set.subset_union_right (List.Subset.refl _)
  exact (h.thenLogs (traceEv_logs _ _ _ _ _)).next (alarmNext_within _ k past back) Set.subset_union_left (by simp)

/-! ## All that fire on one tick -/

/-- What the firing of the slots `ks` may change. -/
def firedCells (ks : List Nat) : Set Cell := {x | ∃ k ∈ ks, x ∈ regCells alarmRegs k} ∪ windowCells ∪ actCells

theorem reg_mem_firedCells (ks : List Nat) (q : Reg) (k : Nat) : Cell.reg q k ∈ firedCells ks ↔
    (q ∈ alarmRegs ∧ k ∈ ks) ∨ q ∈ winRegs ∨ q ∈ actRegs := by
  simp only [firedCells, windowCells, Set.mem_union, Set.mem_ofPred_eq, reg_mem_regCells, reg_mem_regCellsAll, reg_mem_actCells,
    List.mem_cons, Set.mem_range, reduceCtorEq, exists_false, or_false]
  constructor
  · rintro ((⟨j, hj, hq, rfl⟩ | rfl | h) | h)
    · exact .inl ⟨hq, hj⟩
    · exact .inr (.inr (by simp [actRegs]))
    · exact .inr (.inl h)
    · exact .inr (.inr h)
  · rintro (⟨hq, hk⟩ | h | h)
    · exact .inl (.inl ⟨k, hk, hq, rfl⟩)
    · exact .inl (.inr (.inr h))
    · exact .inr h

@[simp] theorem bearing_mem_firedCells (ks : List Nat) (c : Nat) : Cell.bearing c ∉ firedCells ks := by
  simp [firedCells, windowCells, actCells]

@[simp] theorem port_mem_firedCells (ks : List Nat) (p : Nat) : Cell.port p ∉ firedCells ks := by
  simp [firedCells, windowCells, actCells]

theorem firedCells_mono {ks js : List Nat} (h : ks ⊆ js) : firedCells ks ⊆ firedCells js := by
  rintro x ((⟨k, hk, hx⟩ | hx) | hx)
  · exact .inl (.inl ⟨k, h hk, hx⟩)
  · exact .inl (.inr hx)
  · exact .inr hx

/-- The actions of slots that have fired (R50). -/
theorem actions_within (ks : List Nat) (starts : Bool) :
    Within actCells actParts s (if starts then (forEach ks alarmAct s).ssiStarts else forEach ks alarmAct s) := by
  have h : Within actCells actParts s (forEach ks alarmAct s) := forEach_within _ _ (fun k _ u _ => alarmAct_within u k)
  exact .ite _ (h.trans (ssiStarts_within _).act) h

/-- Firings, then their actions (R50). -/
theorem alarmsFire_shape (past resync back : Bool) (ks : List Nat) : ∃ (js : List Nat) (b : Bool), s.alarmsFire past resync back ks =
    if b then (forEach js alarmAct (forEach ks (alarmFire past resync back) s)).ssiStarts
    else forEach js alarmAct (forEach ks (alarmFire past resync back) s) := ⟨_, _, rfl⟩

theorem alarmsFire_within (past resync back : Bool) (ks : List Nat) :
    Within (firedCells ks) firedParts s (s.alarmsFire past resync back ks) := by
  have h : Within (firedCells ks) firedParts s (forEach ks (alarmFire past resync back) s) :=
    forEach_within _ _ (fun k hk u _ => (alarmFire_within u past resync back k).mono
      (by rintro x (hx | hx); exacts [.inl (.inl ⟨k, hk, hx⟩), .inl (.inr hx)]) (by simp [firedParts, actParts]))
  obtain ⟨js, b, e⟩ := alarmsFire_shape s past resync back ks
  rw [e]
  exact h.next (actions_within _ js b) Set.subset_union_right (by simp [firedParts])

/-- Each slot that fires on a tick fires once (R47, R50). -/
theorem alarmsFire_fired (past resync back : Bool) (ks : List Nat) (hn : ks.Nodup) (k : Nat) (hk : k ∈ ks) :
    Fired s (s.alarmsFire past resync back ks) k past := by
  obtain ⟨u, hu, ht⟩ := forEach_pass (s := s) (ps := [.phase, .ingress]) (S := fun j => regCells alarmRegs j ∪ windowCells)
    (alarmFire past resync back) ks hn k hk (fun j _ u _ => alarmFire_within u past resync back j)
  obtain ⟨js, b, e⟩ := alarmsFire_shape s past resync back ks
  have sub : {x | ∃ j ∈ ks, j ≠ k ∧ x ∈ regCells alarmRegs j ∪ windowCells} ⊆ firedCells (ks.filter (· ≠ k)) := by
    rintro x ⟨j, hj, hne, hx | hx⟩
    · exact .inl (.inl ⟨j, by simp [hj, hne], hx⟩)
    · exact .inl (.inr hx)
  rw [e]
  refine (alarmFire_fired u past resync back k).congr (S := firedCells (ks.filter (· ≠ k))) (ps := firedParts)
    (hu.mono sub (by simp [firedParts, actParts]))
    ((ht.mono sub (by simp [firedParts, actParts])).next (actions_within _ js b) Set.subset_union_right (by simp [firedParts])) ?_
  intro q hq
  rw [reg_mem_firedCells]
  simp only [List.mem_cons, List.not_mem_nil, or_false] at hq
  rcases hq with rfl | rfl | rfl | rfl <;> simp [alarmRegs, winRegs, actRegs]

/-- No firing, no action. -/
theorem alarmsFire_nil (past resync back : Bool) : s.alarmsFire past resync back [] = s := rfl

end Sys2Proof.Proofs
end

section
/-! The step and the tick (R30, R140, R241-R243, R320). -/

namespace Sys2Proof.Proofs

open Sys2Proof Sys2Proof.Machine Sys2Proof.Machine.State Sys2Proof.Safety

variable (s : State)

/-- Settles O1: a step is the command at the front of the queue, or a tick, by the form of the queue. -/
theorem stepTakesFront : Obligations.StepTakesFront := by
  unfold Obligations.StepTakesFront
  refine ⟨fun c cs s h => ?_, fun s h => ?_⟩ <;> (unfold step; rw [h])

/-! ## The parts of a tick -/

/-- The registers in which waits at the Tollgates count (R243). -/
def waitCells : Set Cell := {x | ∃ k, k < 40 ∧ x = .reg .TG_WAIT k}

theorem tollCycles_within (n : Nat) : Within waitCells [] s (s.tollCycles n) := by
  refine forEach_within _ _ (fun i hi u _ => ?_)
  have hlt : i < 40 := List.mem_range.1 (List.mem_filter.1 hi).1
  exact ((Within.refl (S := waitCells) u).thenFadd F.TG_WAIT_CYCLES i n ⟨i, hlt, rfl⟩).thenLogs (count_logs _ _ _ _ _)

/-- The buckets are logs (R241). -/
theorem refill_logs : Logs s s.refill :=
  ⟨rfl, fun _ _ _ => rfl, rfl, rfl, ⟨rfl, rfl⟩, fun _ _ => rfl, id⟩

theorem meterRefill_within : Within ∅ [.ingress] s s.meterRefill :=
  within_of_regs rfl rfl rfl rfl rfl (fun p hp => by cases p <;> simp_all [Same, meterRefill]) (fun _ _ => rfl) (fun _ _ => rfl)
    (fun _ _ => rfl)

theorem cycleCounts_logs (n : Nat) : Logs s (s.cycleCounts n) := by
  have tile : ∀ (u : State) (m t : Nat), Logs u (u.tileCycles m t) := fun u m t => by
    unfold State.tileCycles
    dsimp only
    split
    · exact count_logs u _ _ _ _
    · exact count_logs u _ _ _ _
    · exact count_logs u _ _ _ _
    · exact .refl u
  have paused : ∀ (u : State) (m : Nat), Logs u (u.pausedCycles m) := fun u m => by
    unfold State.pausedCycles
    split
    · exact forEach_logs u _ (fun r v => count_logs v _ _ _ _) _
    · exact .refl u
  unfold State.cycleCounts
  dsimp only
  split
  · refine .trans ?_ (paused _ _)
    refine .trans ?_ (forEach_logs _ _ (fun t v => tile v _ t) _)
    exact ((count_logs s _ _ _ _).trans (count_logs _ _ _ _ _)).trans (count_logs _ _ _ _ _)
  · exact .refl s

/-- What the commands that may go on again change: the places where they waited, the queue, and the lanes' credits (R241,
R292). -/
theorem serveHeld_shape : ∃ pe he tr te cr,
    s.serveHeld = { s with pending := pe, held := he, turnRsv := tr, turnExc := te, credits := cr } := by
  have arb : ∀ (l : List Nat) (u : State), ∃ pe he tr te,
      forEach l arbitrate u = { u with pending := pe, held := he, turnRsv := tr, turnExc := te } := by
    intro l
    induction l with
    | nil => exact fun u => ⟨_, _, _, _, rfl⟩
    | cons r l ih =>
      intro u
      obtain ⟨pe, he, tr, te, e⟩ := ih (arbitrate r u)
      exact ⟨pe, he, tr, te, e⟩
  unfold serveHeld
  split
  · exact ⟨_, _, _, _, _, rfl⟩
  · obtain ⟨pe, he, tr, te, e⟩ := arb (List.range 5) s
    rw [e]
    exact ⟨_, _, _, _, _, rfl⟩

/-- With nothing held, only the lanes' credits come back (R292). -/
theorem serveHeld_within (h : s.held = []) : Within ∅ [.causeway] s s.serveHeld := by
  unfold serveHeld
  rw [if_pos h]
  exact within_of_regs rfl rfl rfl rfl rfl (fun p hp => by cases p <;> simp_all [Same]) (fun _ _ => rfl) (fun _ _ => rfl)
    (fun _ _ => rfl)

theorem serveHeld_same (p : Part) (hp : p ≠ .held) (hc : p ≠ .causeway) : Same s s.serveHeld p := by
  obtain ⟨pe, he, tr, te, cr, e⟩ := serveHeld_shape s
  rw [e]
  cases p <;> simp_all [Same]

theorem serveHeld_log (a : Nat) : LogByte s.serveHeld a ↔ LogByte s a := by
  obtain ⟨pe, he, tr, te, cr, e⟩ := serveHeld_shape s
  rw [e]
  exact logByte_congr rfl rfl rfl rfl rfl rfl a

/-! ## The tick whole -/

/-- The counter after a tick (R30, R31). -/
def ticked : State :=
  let sum := s.tb.toNat + s.fget F.TB_INC_INC 0
  { s with tb := BitVec.ofNat 56 sum, wrap := s.wrap + BitVec.ofNat 8 (sum / 2 ^ 56), ticks := s.ticks + 1 }

/-- A tick up to the commands that may go on. -/
def charged : State := ((ticked s).tollCycles (cyclesIn s.ticks 24 5)).refill.meterRefill

theorem tick_eq (h : s.power.pll = true) : State.tick s = (charged s).serveHeld.cycleCounts s.ticks := by
  unfold State.tick
  rw [h]
  rfl

theorem charged_within : Within waitCells [.ingress] (ticked s) (charged s) :=
  (((tollCycles_within (ticked s) _).mono subset_rfl (List.nil_subset _)).thenLogs (refill_logs _)).thenParts
    (meterRefill_within _) (List.Subset.refl _)

theorem ticked_within : Within ∅ [.time] s (ticked s) := time_within s _ _ _ s.goodSyncs s.servoStepped

/-- The time of a tick is the counter's. -/
theorem tick_time (h : s.power.pll = true) : (State.tick s).tb = (ticked s).tb ∧ (State.tick s).wrap = (ticked s).wrap := by
  have h1 := (charged_within s).same .time (by simp)
  have h2 := serveHeld_same (charged s) .time (by simp) (by simp)
  have h3 := (within_of_logs (cycleCounts_logs (charged s).serveHeld s.ticks)).same .time (by simp)
  rw [tick_eq s h]
  exact ⟨h3.1.trans (h2.1.trans h1.1), h3.2.1.trans (h2.2.1.trans h1.2.1)⟩

theorem tick_same (h : s.power.pll = true) (p : Part) (hp : p ∉ [Part.time, .ingress, .causeway, .held]) :
    Same s (State.tick s) p := by
  simp only [List.mem_cons, List.not_mem_nil, or_false, not_or] at hp
  obtain ⟨ht, hi, hc, hh⟩ := hp
  have h1 := (ticked_within s).same p (by simpa using ht)
  have h2 := (charged_within s).same p (by simpa using hi)
  have h3 := serveHeld_same (charged s) p hh hc
  have h4 := (within_of_logs (cycleCounts_logs (charged s).serveHeld s.ticks)).same p (by simp)
  rw [tick_eq s h]
  have h12 := same_trans h1 h2 (ticked_within s).log
  have l12 := fun a => ((charged_within s).log a).trans ((ticked_within s).log a)
  have h123 := same_trans h12 h3 l12
  exact same_trans h123 h4 (fun a => (serveHeld_log (charged s) a).trans (l12 a))

theorem tick_within (h : s.power.pll = true) (hh : s.held = []) :
    Within waitCells [.time, .ingress, .causeway] s (State.tick s) := by
  have hheld : (charged s).held = [] := ((charged_within s).same .held (by simp)).1.trans hh
  rw [tick_eq s h]
  refine ((((ticked_within s).mono (Set.empty_subset _) (by simp)).next (charged_within s) subset_rfl
    (by simp)).thenParts (serveHeld_within _ hheld) (by simp)).thenLogs (cycleCounts_logs _ _)

/-- The carry out of the counter advances the wrap count (R31). -/
theorem ticked_sum : (ticked s).tb.toNat + (ticked s).wrap.toNat * 2 ^ 56 =
    (s.tb.toNat + s.wrap.toNat * 2 ^ 56 + s.fget F.TB_INC_INC 0) % 2 ^ 64 := by
  have htb := s.tb.isLt
  have hwr := s.wrap.isLt
  have hinc := fget_lt s F.TB_INC_INC 0
  simp only [ticked, BitVec.toNat_ofNat, BitVec.toNat_add]
  omega

theorem now_toNat : s.now.toNat = s.tb.toNat / 2 ^ 24 := by
  have htb := s.tb.isLt
  simp only [now, BitVec.toNat_setWidth, BitVec.toNat_ushiftRight, Nat.shiftRight_eq_div_pow]
  omega

/-- Settles O2: the counter's sum by arithmetic on its carry, and the frame part by part of the tick. -/
theorem tickAddsIncrement : Obligations.TickAddsIncrement := by
  unfold Obligations.TickAddsIncrement
  refine ⟨fun s h => ⟨?_, now_toNat _, fun hh => ?_, tick_same s h⟩, by decide, rfl⟩
  · obtain ⟨htb, hwr⟩ := tick_time s h
    rw [htb, hwr, ticked_sum]
  · refine (tick_within s h hh).frame ?_ (List.Subset.refl _)
    rintro q k ⟨j, hj, e⟩
    cases e
    exact ⟨rfl, hj⟩

end Sys2Proof.Proofs
end

section
/-! Arms of windows, and writes to the configuration of an armed window (R54). -/

namespace Sys2Proof.Proofs

open Sys2Proof Sys2Proof.Machine Sys2Proof.Machine.State Sys2Proof.Safety

variable (s : State)

/-- Why an arm of window `w` is refused (R54). -/
def ArmRefused (w : Nat) : Prop :=
  let p := s.fget F.BR_WIN_OWN_PART w
  let a := s.fget F.BR_WIN_CFG_START_SRC w
  let b := s.fget F.BR_WIN_CFG_STOP_SRC w
  0x110 ≤ a ∨ 0x110 ≤ b ∨
    (s.flag F.BR_WIN_CFG_GATE_EN w = true ∧ s.fget F.ING_D_CFG_PART (s.fget F.BR_WIN_CFG_GATE_DESC w) ≠ p) ∨
    (a < 0x100 ∧ s.fget F.BR_AL_CFG_PART a ≠ p) ∨ (b < 0x100 ∧ s.fget F.BR_AL_CFG_PART b ≠ p) ∨
    (s.flag F.BR_WIN_CFG_DOMAIN w = true ∧ s.flag F.BR_CH_CFG_EN (s.fget F.BR_WIN_CFG_CHANNEL w) = false)

theorem winSrcBad_iff (p src : Nat) : s.winSrcBad p src = true ↔ 0x110 ≤ src ∨ (src < 0x100 ∧ s.fget F.BR_AL_CFG_PART src ≠ p) := by
  unfold winSrcBad
  split
  next h => simp only [bne_iff_ne, ne_eq, h, true_and]; exact ⟨.inr, fun e => e.resolve_left (by omega)⟩
  next h => simp only [decide_eq_true_eq, h, false_and, or_false]

theorem windowArm_armed (w : Nat) (h : s.flag F.BR_WIN_STAT_ARMED w = true) : s.windowArm w = s := if_pos h

theorem windowArm_refused (w : Nat) (h : s.flag F.BR_WIN_STAT_ARMED w = false) (hb : ArmRefused s w) :
    s.windowArm w = s.fset F.BR_WIN_STAT_CFG_ERR w 1 := by
  unfold windowArm
  dsimp only
  rw [h, if_neg Bool.false_ne_true, if_pos]
  simp only [Bool.or_eq_true, winSrcBad_iff, Bool.and_eq_true, bne_iff_ne, Bool.not_eq_true']
  unfold ArmRefused at hb
  tauto

theorem windowArm_taken (w : Nat) (h : s.flag F.BR_WIN_STAT_ARMED w = false) (hb : ¬ ArmRefused s w) :
    s.windowArm w = (s.fset F.BR_WIN_STAT_ARMED w 1).setWin w {} := by
  unfold windowArm
  dsimp only
  rw [h, if_neg Bool.false_ne_true, if_neg]
  simp only [Bool.or_eq_true, winSrcBad_iff, Bool.and_eq_true, bne_iff_ne, Bool.not_eq_true']
  unfold ArmRefused at hb
  tauto

theorem execWinArm_unlocked (w : Fin 32) (hl : Live s) (hu : s.tdiLocked (s.fget F.BR_WIN_OWN_PART w) = false) :
    exec (.winArm w) s = .next (s.windowArm w) := by
  show Host.Outcome.next (s.bar _) = _
  rw [bar_live s _ hl, hu, if_neg Bool.false_ne_true]

/-- The registers that configure a window (R53). -/
def winCfgRegs : List Reg := [.BR_WIN_CFG, .BR_WIN_OWN]

theorem winCfgRegs_decode : ∀ r ∈ winCfgRegs, ∀ w : Fin 32, decodeAddr (regOffset r w) = some (r, w.val, 0) := by decide

theorem winCfgRegs_offset : ∀ r ∈ winCfgRegs, ∀ w : Fin 32, regOffset r w < 0x300000 := by decide

theorem winCfgRegs_width : ∀ r ∈ winCfgRegs, (regPlace r).width = 32 := by decide

theorem winCfgRegs_regByte (r : Reg) (hr : r ∈ winCfgRegs) (w : Fin 32) :
    s.regByte .pf (regOffset r w) = some (r, w.val, 0) := by
  have hlt := winCfgRegs_offset r hr w
  have hthere : s.regThere r w = true := by
    unfold regThere
    dsimp only
    rw [if_neg (by omega), if_neg (by omega)]
  unfold regByte
  simp only [Option.bind_some, winCfgRegs_decode r hr w]
  exact if_pos hthere

theorem winCfgRegs_pfWrite (r : Reg) (hr : r ∈ winCfgRegs) (w : Nat) (v : W64) :
    s.pfWrite r w v = s.idleWrite r w v (s.flag F.BR_WIN_STAT_ARMED w) := by
  fin_cases hr <;> rfl

/-- A write of an armed window's configuration is discarded, by the TDISP lock or because the window is armed (R54, R339). -/
theorem execRegisterWrite_armed (w : Fin 32) (r : Reg) (v : W64) (hl : Live s) (hr : r ∈ winCfgRegs)
    (h : s.flag F.BR_WIN_STAT_ARMED w = true) : ∃ cause data,
    exec (.registerWrite .pf (regOffset r w) 32 v) s = .next (s.accessFault .pf cause (regOffset r w) data) := by
  have hx : exec (.registerWrite .pf (regOffset r w) 32 v) s =
      .next (s.wholeWrite .pf (regOffset r w) r w (BitVec.ofNat 64 (v.toNat % 2 ^ (regPlace r).width))) := by
    show Host.Outcome.next (s.reach .pf _ _) = _
    rw [reach_live s _ _ _ hl, ← busWrite_whole s .pf _ r w v (winCfgRegs_regByte s r hr w), winCfgRegs_width r hr]
  rw [hx]
  unfold wholeWrite
  dsimp only
  split
  · exact ⟨2, _, rfl⟩
  · rw [winCfgRegs_pfWrite s r hr, h]
    exact ⟨3, _, rfl⟩

/-- Settles O39: the arm's three outcomes, and the discarded write by its lock or its window's state. -/
theorem windowArmRefusals : Obligations.WindowArmRefusals := by
  unfold Obligations.WindowArmRefusals
  refine ⟨fun w s hl hu => ⟨fun h => ⟨_, execWinArm_unlocked s w hl hu, fun hb => ?_, fun hb => ?_⟩, fun h => ?_⟩,
    fun w r v s hl hr h => ?_⟩
  · rw [windowArm_refused s w h hb]
    refine ⟨flag_fset_one s _ _ rfl (by decide), ?_, OnlyBits.refl.fset List.mem_cons_self, ?_⟩
    · rw [flag_fset_field s F.BR_WIN_STAT_CFG_ERR F.BR_WIN_STAT_ARMED w 1 rfl (by decide), h]
    · exact (fset_within s F.BR_WIN_STAT_CFG_ERR w 1).frame (by simp [oneReg]) (List.Subset.refl _)
  · rw [windowArm_taken s w h hb]
    have hset : OnlyBits s (s.fset F.BR_WIN_STAT_ARMED w 1) .BR_WIN_STAT w [F.BR_WIN_STAT_ARMED] :=
      OnlyBits.refl.fset List.mem_cons_self
    refine ⟨flag_fset_one s _ _ rfl (by decide), win_setWin _ _ _, hset, ?_⟩
    have hw : Within (regCells [.BR_WIN_STAT] w ∪ {.win w}) [.phase] s ((s.fset F.BR_WIN_STAT_ARMED w 1).setWin w {}) :=
      ((fset_within s F.BR_WIN_STAT_ARMED w 1).mono Set.subset_union_left (List.nil_subset _)).next (setWin_within _ _ _)
        Set.subset_union_right (List.Subset.refl _)
    exact hw.frame (by simp [oneReg]) (List.Subset.refl _)
  · rw [execWinArm_unlocked s w hl hu, windowArm_armed s w h]
  · have hm : r ∈ winCfgRegs := by simpa [winCfgRegs] using hr
    obtain ⟨cause, data, hx⟩ := execRegisterWrite_armed s w r v hl hm h
    obtain ⟨f, hf, hcls, hinfo⟩ := accessFault_head s .pf cause (regOffset r w) data
    refine ⟨_, hx, ⟨f, hf, hcls, ?_⟩, (accessFault_logs s _ _ _ _).frame⟩
    have hlt := winCfgRegs_offset r hm w
    rw [hinfo, BitVec.toNat_ofNat, Nat.mod_eq_of_lt (by omega)]

end Sys2Proof.Proofs
end

section
/-! Trigger edges on time windows, and the disarm of a window (R53, R55, R59, R70). -/

namespace Sys2Proof.Proofs

open Sys2Proof Sys2Proof.Machine Sys2Proof.Machine.State Sys2Proof.Safety

variable (s : State)

/-! ## Readings -/

/-- Two stamps of different ticks in order make a length (R55, R58). -/
theorem reading_time (w : Nat) (a b : W32) (k j : Nat) (hd : s.flag F.BR_WIN_CFG_DOMAIN w = false)
    (ha : (s.win w).start = some (a, k)) (hb : (s.win w).stop = some (b, j)) (hne : k ≠ j) (ho : 0 ≤ sdiff b a) :
    reading s w = ⟨a, b, b - a, false, false, false⟩ := by
  unfold reading
  simp [ha, hb, hd, hne, ho]

/-- A start alone is an incomplete reading (R59). -/
theorem reading_startOnly (w : Nat) (a : W32) (k : Nat) (ha : (s.win w).start = some (a, k)) (hb : (s.win w).stop = none) :
    reading s w = ⟨a, 0, 0, true, false, false⟩ := by
  unfold reading
  simp [ha, hb]

/-! ## One time window on an event -/

/-- The source of its start alone gives a time window its start stamp (R55). -/
theorem windowOne_opens (src w : Nat) (ha : s.flag F.BR_WIN_STAT_ARMED w = true) (hd : s.flag F.BR_WIN_CFG_DOMAIN w = false)
    (h1 : s.fget F.BR_WIN_CFG_START_SRC w = src) (h2 : s.fget F.BR_WIN_CFG_STOP_SRC w ≠ src) (hs : (s.win w).start = none)
    (he : (s.win w).stop = none) : ((windowOne src w s).win w).start = some (s.now, s.ticks) ∧
      ((windowOne src w s).win w).stop = none ∧ (windowOne src w s).flag F.BR_WIN_STAT_ARMED w = true := by
  have hx : stampOf s w = some s.now := by rw [stampOf, hd, if_neg Bool.false_ne_true]
  have hstart : (stamped s src w s.now).start = some (s.now, s.ticks) := by simp [stamped, h1, hs]
  have hstop : (stamped s src w s.now).stop = none := by simp [stamped, h2, he]
  rw [windowOne_stamped s src w s.now (by simp [watches, ha, h1]) hx, hstart, hstop]
  simp only [Option.isSome_none, Bool.and_false, Bool.false_eq_true, if_false, win_setWin, setWin_flag]
  exact ⟨hstart, hstop, ha⟩

/-- The source of its stop alone completes a time window that holds its start (R55, R58). -/
theorem windowOne_completes (src w : Nat) (a : W32) (k : Nat) (ha : s.flag F.BR_WIN_STAT_ARMED w = true)
    (hd : s.flag F.BR_WIN_CFG_DOMAIN w = false) (h2 : s.fget F.BR_WIN_CFG_STOP_SRC w = src) (hs : (s.win w).start = some (a, k)) (he : (s.win w).stop = none)
    (hne : k ≠ s.ticks) (ho : 0 ≤ sdiff s.now a) :
    Shows (windowOne src w s) w ⟨a, s.now, s.now - a, false, false, false⟩ (s.fget F.BR_WIN_STAT_COUNT w) ∧
      (windowOne src w s).flag F.BR_WIN_STAT_ARMED w = s.flag F.BR_WIN_CFG_REPEAT w := by
  have hx : stampOf s w = some s.now := by rw [stampOf, hd, if_neg Bool.false_ne_true]
  have hstart : (stamped s src w s.now).start = some (a, k) := by simp [stamped, hs]
  have hstop : (stamped s src w s.now).stop = some (s.now, s.ticks) := by simp [stamped, h2, he]
  rw [windowOne_stamped s src w s.now (by simp [watches, ha, h2]) hx, hstart, hstop]
  simp only [Option.isSome_some, Bool.and_true, if_true]
  generalize hu : s.setWin w (stamped s src w s.now) = u
  have hw : u.win w = stamped s src w s.now := by rw [← hu, win_setWin]
  have hr : reading u w = ⟨a, s.now, s.now - a, false, false, false⟩ :=
    reading_time u w a s.now k s.ticks (by rw [← hu]; exact hd) (by rw [hw, hstart]) (by rw [hw, hstop]) hne ho
  have hcount : u.fget F.BR_WIN_STAT_COUNT w = s.fget F.BR_WIN_STAT_COUNT w := by rw [← hu, setWin_fget]
  have hrep : u.flag F.BR_WIN_CFG_REPEAT w = s.flag F.BR_WIN_CFG_REPEAT w := by rw [← hu, setWin_flag]
  refine ⟨hcount ▸ hr ▸ windowDone_shows u w _ true, ?_⟩
  rw [windowDone_armed u w _ true (by rw [← hu]; exact ha), hrep, Bool.true_and]

/-- What a completed window shows is seen through what leaves its registers alone. -/
theorem Shows.congr {t u : State} {w : Nat} {x : Reading} {n : Nat} {S : Set Cell} {ps : List Part} (h : Shows t w x n)
    (ht : Within S ps t u) (hw : ∀ q ∈ winRegs, Cell.reg q w ∉ S) : Shows u w x n := by
  obtain ⟨ha, hb, hl, hc, hi, hs, ho, hd⟩ := h
  have hstat : Cell.reg .BR_WIN_STAT w ∉ S := hw _ (by simp [winRegs])
  exact ⟨(ht.fget _ _ rfl (hw .BR_WIN_START (by simp [winRegs]))).trans ha,
    (ht.fget _ _ rfl (hw .BR_WIN_STOP (by simp [winRegs]))).trans hb,
    (ht.fget _ _ rfl (hw .BR_WIN_LEN (by simp [winRegs]))).trans hl, (ht.fget _ _ rfl hstat).trans hc,
    (ht.flag _ _ rfl hstat).trans hi, (ht.flag _ _ rfl hstat).trans hs, (ht.flag _ _ rfl hstat).trans ho,
    (ht.flag _ _ rfl hstat).trans hd⟩

/-- A window that is not armed on the source. -/
theorem unwatched_of_sources (src w : Nat) (h : s.flag F.BR_WIN_STAT_ARMED w = true →
    s.fget F.BR_WIN_CFG_START_SRC w ≠ src ∧ s.fget F.BR_WIN_CFG_STOP_SRC w ≠ src) : watches s src w = false := by
  cases ha : s.flag F.BR_WIN_STAT_ARMED w with
  | false => simp [watches, ha]
  | true =>
    obtain ⟨h1, h2⟩ := h ha
    simp [watches, h1, h2]

/-! ## A trigger edge -/

/-- What an edge changes after the windows: actions of the trace, and a sample (R64, R70). -/
def edgeCells : Set Cell := actCells ∪ regCellsAll [.ING_PORT_CNT]

/-- A receiving trigger input takes its level, then the windows see the edge, then the trace and the descriptors do. -/
theorem execTriggerEdge_next (n : Fin 8) (rising : Bool) (h : s.rxOn (48 + n) = true) :
    let u := (s.setPort (48 + n) { s.port (48 + n) with level := rising }).windowEvent ((if rising then 0x100 else 0x108) + n.val)
    ∃ t, exec (.triggerEdge n rising) s = .next t ∧ Within edgeCells actParts u t ∧
      (u.fget F.TRC_TRIG_TRIG 0 = 0 → natBit (u.fget F.ING_PORT_CFG_PARAM (48 + n)) (if rising then 0 else 1) = false → t = u) := by
  intro u
  have hx : exec (.triggerEdge n rising) s = .next
      (let v := if rising then u.traceInput n.val else u
       if natBit (v.fget F.ING_PORT_CFG_PARAM (48 + n)) (if rising then 0 else 1) then v.naturalSample (48 + n) else v) := by
    show Host.Outcome.next (if !(s.rxOn (48 + n)) then s else _) = _
    rw [h]
    rfl
  refine ⟨_, hx, ?_, fun htrig hnat => ?_⟩
  · have hv : Within edgeCells actParts u (if rising then u.traceInput n.val else u) :=
      .ite _ ((traceInput_within u n).mono Set.subset_union_left (List.Subset.refl _)) (.refl u)
    refine .ite _ (hv.next (naturalSample_within _ _) ?_ (by simp [actParts])) hv
    exact Set.union_subset_union hubCells_subset_act (regCells_subset_all _ _)
  · have hv : (if rising then u.traceInput n.val else u) = u := by
      have hno : ∀ i, natBit 0 i = false := fun i => by simp [natBit]
      unfold traceInput
      simp only [htrig, hno, Bool.false_eq_true, if_false, ite_self]
    simp only [hv, hnat, Bool.false_eq_true, if_false]

/-- The state in which an event reaches window `w`, and what comes after it, an edge's trace and samples included. -/
theorem edge_pass (src w : Nat) (hw : w < 32) {t : State} (ht : Within edgeCells actParts (s.windowEvent src) t) :
    ∃ u, (u.now = s.now ∧ u.ticks = s.ticks) ∧ u.win w = s.win w ∧ (∀ f : Fld, f.r ∈ [Reg.BR_WIN_CFG, .BR_WIN_STAT] →
        u.fget f w = s.fget f w ∧ u.flag f w = s.flag f w) ∧
      Within (windowCells \ (regCells winRegs w ∪ {.win w}) ∪ edgeCells) firedParts (windowOne src w u) t := by
  obtain ⟨u, hu, hrest⟩ := windowEvent_pass s src w hw
  refine ⟨u, hu.time (by simp), hu.win w (by simp), fun f hf => ?_,
    (hrest.mono Set.subset_union_left (by simp [firedParts, actParts])).next ht Set.subset_union_right (by simp [firedParts])⟩
  have hl : ledger f.r = false ∧ Cell.reg f.r w ∉ windowCells \ (regCells winRegs w ∪ {.win w}) := by
    simp only [List.mem_cons, List.not_mem_nil, or_false] at hf
    rcases hf with h | h <;> rw [h] <;> simp [ledger, windowCells, winRegs]
  exact ⟨hu.fget f w hl.1 hl.2, hu.flag f w hl.1 hl.2⟩

/-- The registers of window `w` are out of the reach of what comes after its pass. -/
theorem winRegs_edge (w : Nat) : ∀ q ∈ winRegs, Cell.reg q w ∉ windowCells \ (regCells winRegs w ∪ {.win w}) ∪ edgeCells := by
  intro q hq
  fin_cases hq <;> simp [windowCells, winRegs, edgeCells, actRegs]

/-- An edge gives a window armed on it as its start alone its start stamp (R55). -/
theorem edge_opens (src w : Nat) (hw : w < 32) {t : State} (ht : Within edgeCells actParts (s.windowEvent src) t)
    (ha : s.flag F.BR_WIN_STAT_ARMED w = true) (hd : s.flag F.BR_WIN_CFG_DOMAIN w = false)
    (h1 : s.fget F.BR_WIN_CFG_START_SRC w = src) (h2 : s.fget F.BR_WIN_CFG_STOP_SRC w ≠ src) (hs : (s.win w).start = none)
    (he : (s.win w).stop = none) :
    (t.win w).start = some (s.now, s.ticks) ∧ (t.win w).stop = none ∧ t.flag F.BR_WIN_STAT_ARMED w = true := by
  obtain ⟨u, ⟨hnow, hticks⟩, hwin, hfld, hall⟩ := edge_pass s src w hw ht
  obtain ⟨gs, ge, ga⟩ := windowOne_opens u src w ((hfld F.BR_WIN_STAT_ARMED (by simp)).2.trans ha)
    ((hfld F.BR_WIN_CFG_DOMAIN (by simp)).2.trans hd) ((hfld F.BR_WIN_CFG_START_SRC (by simp)).1.trans h1)
    (by rw [(hfld F.BR_WIN_CFG_STOP_SRC (by simp)).1]; exact h2)
    (by rw [hwin, hs]) (by rw [hwin, he])
  have hwt : t.win w = (windowOne src w u).win w := hall.win w (by simp [windowCells, edgeCells, actCells])
  rw [hwt, gs, ge, hnow, hticks]
  exact ⟨rfl, rfl, (hall.flag _ _ rfl (winRegs_edge w _ (by simp [winRegs]))).trans ga⟩

/-- An edge completes a window that holds its start and is armed on it as its stop alone (R55, R58). -/
theorem edge_completes (src w : Nat) (hw : w < 32) {t : State} (ht : Within edgeCells actParts (s.windowEvent src) t) (a : W32)
    (k : Nat) (ha : s.flag F.BR_WIN_STAT_ARMED w = true) (hd : s.flag F.BR_WIN_CFG_DOMAIN w = false)
    (h2 : s.fget F.BR_WIN_CFG_STOP_SRC w = src) (hs : (s.win w).start = some (a, k)) (he : (s.win w).stop = none)
    (hne : k ≠ s.ticks) (ho : 0 ≤ sdiff s.now a) :
    Shows t w ⟨a, s.now, s.now - a, false, false, false⟩ (s.fget F.BR_WIN_STAT_COUNT w) ∧
      t.flag F.BR_WIN_STAT_ARMED w = s.flag F.BR_WIN_CFG_REPEAT w := by
  obtain ⟨u, ⟨hnow, hticks⟩, hwin, hfld, hall⟩ := edge_pass s src w hw ht
  obtain ⟨gshow, ga⟩ := windowOne_completes u src w a k ((hfld F.BR_WIN_STAT_ARMED (by simp)).2.trans ha)
    ((hfld F.BR_WIN_CFG_DOMAIN (by simp)).2.trans hd) ((hfld F.BR_WIN_CFG_STOP_SRC (by simp)).1.trans h2) (by rw [hwin, hs]) (by rw [hwin, he])
    (by rw [hticks]; exact hne) (by rw [hnow]; exact ho)
  rw [hnow, (hfld F.BR_WIN_STAT_COUNT (by simp)).1] at gshow
  refine ⟨gshow.congr hall (winRegs_edge w), ?_⟩
  rw [hall.flag _ _ rfl (winRegs_edge w _ (by simp [winRegs])), ga, (hfld F.BR_WIN_CFG_REPEAT (by simp)).2]

/-! ## A disarm -/

theorem windowDisarm_unarmed (w : Nat) (h : s.flag F.BR_WIN_STAT_ARMED w = false) : s.windowDisarm w = s := by
  unfold windowDisarm
  rw [h]
  rfl

theorem windowDisarm_empty (w : Nat) (h : s.flag F.BR_WIN_STAT_ARMED w = true) (ha : (s.win w).start = none)
    (hb : (s.win w).stop = none) : s.windowDisarm w = (s.fset F.BR_WIN_STAT_ARMED w 0).setWin w {} := by
  unfold windowDisarm
  rw [h, ha, hb]
  rfl

theorem windowDisarm_started (w : Nat) (x : W32 × Nat) (h : s.flag F.BR_WIN_STAT_ARMED w = true)
    (ha : (s.win w).start = some x) : s.windowDisarm w = s.windowDone w false false := by
  unfold windowDisarm
  rw [h, ha]
  rfl

theorem execWinDisarm_unlocked (w : Fin 32) (hl : Live s) (hu : s.tdiLocked (s.fget F.BR_WIN_OWN_PART w) = false) :
    exec (.winDisarm w) s = .next (s.windowDisarm w) := by
  show Host.Outcome.next (s.bar _) = _
  rw [bar_live s _ hl, hu, if_neg Bool.false_ne_true]

theorem execWinDisarm_locked (w : Fin 32) (hl : Live s) (hu : s.tdiLocked (s.fget F.BR_WIN_OWN_PART w) = true) :
    exec (.winDisarm w) s = .next (s.accessFault .pf 2 (0x203010 + w.val * 0x20) 0x40000000#64) := by
  show Host.Outcome.next (s.bar _) = _
  rw [bar_live s _ hl, hu, if_pos rfl]

/-- The registers of a completion, as a claim names them. -/
theorem doneCells_regs (w n : Nat) (q : Reg) (k : Nat) (h : Cell.reg q k ∈ doneCells w n) :
    orRegs (theRegs [.BR_WIN_STAT, .BR_WIN_START, .BR_WIN_STOP, .BR_WIN_LEN] w) (oneReg .ING_D_CNT1 n) q k :=
  (reg_mem_doneCells q k w n).1 h

/-- Settles O40: an edge is the pass of the window it reaches, and a disarm is by what the window holds. -/
theorem windowsStampAndClose : Obligations.WindowsStampAndClose := by
  unfold Obligations.WindowsStampAndClose
  refine ⟨?_, fun w s hl => ⟨fun hu => ?_, fun hu => ⟨fun h => ?_, fun h ha hb => ?_, fun a k h ha hb => ?_⟩⟩⟩
  · intro n rising s h
    obtain ⟨t, hx, ht, hquiet⟩ := execTriggerEdge_next s n rising h
    set s' := s.setPort (48 + n) { s.port (48 + n) with level := rising } with hs'
    refine ⟨t, hx, ?_, fun w hw harm hdom => ⟨fun h1 h2 ha hb => ?_, fun a k h2 _ ha hb hne ho => ?_⟩, fun hnone htrig hnat => ?_⟩
    · have hm : measured (t.port (48 + n)) = measured (s'.port (48 + n)) :=
        (ht.port (48 + n) (by simp [edgeCells, actCells])).trans ((windowEvent_within s' _).port _
        (by simp [windowCells]))
      rw [hs', port_setPort] at hm
      exact congrArg (fun m => m.2.2.2.1) hm
    · exact edge_opens s' _ w hw ht harm hdom h1 h2 ha hb
    · obtain ⟨⟨ga, gb, gl, gc, gi, gs, go, gd⟩, har⟩ := edge_completes s' _ w hw ht a k harm hdom h2 ha hb hne ho
      exact ⟨gd, ga, gb, gl, gi, go, gs, gc, har⟩
    · rw [windowEvent_unwatched s' _ (fun w hw => unwatched_of_sources s _ w (hnone w hw))] at hquiet
      exact hquiet htrig hnat
  · exact ⟨_, execWinDisarm_locked s w hl hu, accessFault_recorded s _ _ _ _⟩
  · rw [execWinDisarm_unlocked s w hl hu, windowDisarm_unarmed s w h]
  · refine ⟨_, execWinDisarm_unlocked s w hl hu, ?_⟩
    rw [windowDisarm_empty s w h ha hb]
    have hset : OnlyBits s (s.fset F.BR_WIN_STAT_ARMED w 0) .BR_WIN_STAT w [F.BR_WIN_STAT_ARMED] :=
      OnlyBits.refl.fset List.mem_cons_self
    have hw : Within (regCells [.BR_WIN_STAT] w ∪ {.win w}) [.phase] s ((s.fset F.BR_WIN_STAT_ARMED w 0).setWin w {}) :=
      ((fset_within s F.BR_WIN_STAT_ARMED w 0).mono Set.subset_union_left (List.nil_subset _)).next (setWin_within _ _ _)
        Set.subset_union_right (List.Subset.refl _)
    exact ⟨flag_fset_zero s _ _ rfl (by decide), hset, hw.frame (by simp [oneReg]) (List.Subset.refl _)⟩
  · refine ⟨_, execWinDisarm_unlocked s w hl hu, ?_⟩
    rw [windowDisarm_started s w _ h ha]
    have hshow := windowDone_shows s w false false
    rw [reading_startOnly s w a k ha hb] at hshow
    obtain ⟨ga, gb, gl, gc, gi, -, -, gd⟩ := hshow
    exact ⟨windowDone_armed s w false false h, gi, gd, ga, gb, gl, windowDone_win s w false, gc,
      (windowDone_within s w false false).frame (fun q k hq => doneCells_regs w _ q k hq) (List.Subset.refl _)⟩

end Sys2Proof.Proofs
end

section
/-! Commands that are ready: their start, and their end without a signal (R125, R126, R143). -/

namespace Sys2Proof.Proofs

open Sys2Proof Sys2Proof.Machine Sys2Proof.Machine.State Sys2Proof.Safety

variable (s : State)

theorem findCmd_congr {t : State} (h : t.cmds = s.cmds) (r tag : Nat) : t.findCmd r tag = s.findCmd r tag := by
  unfold findCmd
  rw [h]

theorem fenceMet_congr {t : State} (h : t.cmds = s.cmds) (c : Cmd) : t.fenceMet c = s.fenceMet c := by
  unfold fenceMet
  rw [h]

/-- A command found is of the ring and the TAG that were asked for. -/
theorem findCmd_some {r tag : Nat} {c : Cmd} (h : s.findCmd r tag = some c) : c ∈ s.cmds ∧ c.ring = r ∧ c.tag = tag := by
  have hp := List.find?_some h
  simp only [Bool.and_eq_true, beq_iff_eq] at hp
  exact ⟨List.mem_of_find?_eq_some h, hp.1.1, hp.1.2⟩

/-- A command changed in what does not name it is found again, changed. -/
theorem findCmd_modCmd {r tag : Nat} {c : Cmd} (h : s.findCmd r tag = some c) (f : Cmd → Cmd)
    (hf : ∀ x, (f x).ring = x.ring ∧ (f x).tag = x.tag ∧ (f x).done = x.done) :
    (s.modCmd r tag f).findCmd r tag = some (f c) := by
  have hp := List.find?_some h
  have heq : ∀ x : Cmd, ((fun c : Cmd => c.ring == r && c.tag == tag && c.done == none) ∘ fun c =>
      if c.ring == r && c.tag == tag && c.done == none then f c else c) x = (x.ring == r && x.tag == tag && x.done == none) := by
    intro x
    obtain ⟨h1, h2, h3⟩ := hf x
    dsimp only [Function.comp]
    split <;> simp only [h1, h2, h3]
  unfold findCmd modCmd
  rw [List.find?_map, funext heq]
  unfold findCmd at h
  rw [h, Option.map_some, if_pos hp]

theorem modCmd_within (r tag : Nat) (f : Cmd → Cmd) : Within ∅ [.cmds] s (s.modCmd r tag f) := cmds_within s _

/-- The end of a command that gives no signal is its record alone (R143). -/
theorem finish_quiet {r tag : Nat} {c : Cmd} (h : s.findCmd r tag = some c) (hs : c.signal = false) (st res : Nat) :
    s.finish r tag st res = s.modCmd r tag (fun c => { c with done := some (st, if st < 0x100 then res else 0) }) := by
  unfold finish
  rw [h]
  dsimp only
  rw [hs, Bool.false_and, if_neg Bool.false_ne_true]

theorem finish_within {r tag : Nat} {c : Cmd} (h : s.findCmd r tag = some c) (hs : c.signal = false) (st res : Nat) :
    Within ∅ [.cmds] s (s.finish r tag st res) := by
  rw [finish_quiet s h hs]
  exact modCmd_within s _ _ _

theorem finish_ended {r tag : Nat} {c : Cmd} (h : s.findCmd r tag = some c) (hs : c.signal = false) (st res : Nat) :
    Ended (s.finish r tag st res) r tag st (if st < 0x100 then res else 0) := by
  obtain ⟨hm, hr, ht⟩ := findCmd_some s h
  have hp := List.find?_some h
  rw [finish_quiet s h hs]
  exact ⟨_, List.mem_map.2 ⟨c, hm, if_pos hp⟩, hr, ht, rfl⟩

/-- A command that succeeds ends with its result. -/
theorem finish_succeeds {r tag : Nat} {c : Cmd} (h : s.findCmd r tag = some c) (hs : c.signal = false) (res : Nat) :
    Ended (s.finish r tag 0 res) r tag 0 res := finish_ended s h hs 0 res

/-- A command that is refused has no result. -/
theorem finish_refused {r tag : Nat} {c : Cmd} (h : s.findCmd r tag = some c) (hs : c.signal = false) (st : Nat) :
    Ended (s.finish r tag st 0) r tag st 0 := by
  have he := finish_ended s h hs st 0
  rwa [ite_self] at he

theorem enter_refused (c : Cmd) (st : Nat) (effect : State → State) (hf : s.fenceMet c = true) (h : st ≠ 0) :
    s.enter c st effect = s.finish c.ring c.tag st 0 := by
  unfold enter
  rw [hf, Bool.not_true, if_neg Bool.false_ne_true, if_pos h]

/-- A command as its start leaves it. -/
def startedCmd (c : Cmd) : State := s.modCmd c.ring c.tag (fun c => { c with checked := true, started := true })

theorem enter_starts (c : Cmd) (effect : State → State) (hf : s.fenceMet c = true) :
    s.enter c 0 effect = effect (startedCmd s c) := by
  unfold enter
  rw [hf, Bool.not_true, if_neg Bool.false_ne_true, if_neg (not_not_intro rfl)]
  rfl

theorem startedCmd_within (c : Cmd) : Within ∅ [.cmds] s (startedCmd s c) := modCmd_within s _ _ _

section Ready

variable {s} {r tag : Nat} {c : Cmd}

theorem ready_ring (h : Ready s r tag c) : c.ring = r ∧ c.tag = tag := (findCmd_some s h.1).2

theorem ready_fence (h : Ready s r tag c) : s.fenceMet c = true := by
  obtain ⟨-, -, -, -, -, hf, -⟩ := h
  exact hf

theorem withCmd_ready (h : Ready s r tag c) (want : TCmd → Bool) (hw : want c.par = true) (f : State → Cmd → State) :
    s.withCmd r tag want f = f s c := by
  obtain ⟨hfind, hreset, hswitch, -⟩ := h
  unfold withCmd
  rw [hfind]
  dsimp only
  rw [hreset, hswitch, hw]
  rfl

theorem begin_ready (h : Ready s r tag c) (want : TCmd → Bool) (hw : want c.par = true) (check : State → Cmd → Nat)
    (effect again : Cmd → State → State) : s.begin r tag want check effect again = s.enter c (check s c) (effect c) := by
  unfold begin
  rw [withCmd_ready h want hw]
  obtain ⟨-, -, -, -, hstart, -⟩ := h
  rw [hstart, if_neg Bool.false_ne_true]

/-- A command that has started is found, with the signal it asked for. -/
theorem startedCmd_find (h : Ready s r tag c) :
    (startedCmd s c).findCmd r tag = some { c with checked := true, started := true } := by
  obtain ⟨rfl, rfl⟩ := ready_ring h
  exact findCmd_modCmd s h.1 (fun c => { c with checked := true, started := true }) (fun _ => ⟨rfl, rfl, rfl⟩)

end Ready

end Sys2Proof.Proofs
end

section
/-! Alarms by register: what is due on a tick, the ARM and DISARM bits (R46-R51). -/

namespace Sys2Proof.Proofs

open Sys2Proof Sys2Proof.Machine Sys2Proof.Machine.State Sys2Proof.Safety

variable (s : State)

/-! ## What is due -/

theorem timeDue_iff (k : Nat) : s.timeDue k = true ↔ s.flag F.BR_AL_STAT_ARMED k = true ∧ s.flag F.BR_AL_CFG_DOMAIN k = false ∧
    sdiff (BitVec.ofNat 32 (s.fget F.BR_AL_TARGET_TARGET k)) s.now ≤ 0 := by
  unfold timeDue
  simp only [Bool.and_eq_true, Bool.not_eq_true', decide_eq_true_eq, and_assoc]

/-- The slots due on this tick (R47). -/
def dueSlots : List Nat := (List.range 256).filter s.timeDue

theorem dueSlots_nodup : (dueSlots s).Nodup := List.nodup_range.filter _

theorem mem_dueSlots (k : Nat) : k ∈ dueSlots s ↔ k < 256 ∧ s.timeDue k = true := by simp [dueSlots]

theorem fireFirst_due (k : Nat) (h : s.timeDue k = true) : s.fireFirst k = s.alarmsFire false false false (dueSlots s) := if_pos h

theorem fireFirst_notDue (k : Nat) (h : s.timeDue k = false) : s.fireFirst k = s := by
  unfold fireFirst
  rw [h, if_neg Bool.false_ne_true]

/-- Each slot that is due fires (R47, R50). -/
theorem fireFirst_fired (k j : Nat) (h : s.timeDue k = true) (hj : j < 256) (hd : s.timeDue j = true) :
    Fired s (s.fireFirst k) j false := by
  rw [fireFirst_due s k h]
  exact alarmsFire_fired s false false false _ (dueSlots_nodup s) j ((mem_dueSlots s j).2 ⟨hj, hd⟩)

theorem fireFirst_within (k : Nat) : Within (firedCells (List.range 256)) firedParts s (s.fireFirst k) := by
  cases h : s.timeDue k with
  | false => rw [fireFirst_notDue s k h]; exact .refl s
  | true =>
    rw [fireFirst_due s k h]
    exact (alarmsFire_within s _ _ _ _).mono (firedCells_mono ((List.filter_subset_self _))) (List.Subset.refl _)

/-- One slot alone is due. -/
theorem dueSlots_single (k : Nat) (hk : k < 256) (h : s.timeDue k = true) (ho : ∀ j, j < 256 → j ≠ k → s.timeDue j = false) :
    dueSlots s = [k] := by
  have hc : ∀ j ∈ List.range 256, s.timeDue j = (j == k) := fun j hj => by
    by_cases e : j = k
    · rw [e, h, beq_self_eq_true]
    · rw [ho j (List.mem_range.1 hj) e, beq_eq_false_iff_ne.2 e]
  rw [dueSlots, List.filter_congr hc, List.filter_beq, List.count_eq_one_of_mem List.nodup_range (List.mem_range.2 hk)]
  rfl

/-! ## One slot alone -/

/-- A slot that fires alone acts after its firing (R50). -/
theorem alarmsFire_single (past resync back : Bool) (k : Nat) (h : s.fget F.BR_AL_CFG_ACTION k ≠ 2) :
    s.alarmsFire past resync back [k] = alarmAct k (alarmFire past resync back k s) := by
  have hact : (alarmFire past resync back k s).fget F.BR_AL_CFG_ACTION k = s.fget F.BR_AL_CFG_ACTION k :=
    (alarmFire_within s past resync back k).fget _ _ rfl (by simp [alarmRegs, windowCells, winRegs])
  have hone : ∀ f : Nat → State → State, ∀ u, forEach [k] f u = f k u := fun _ _ => rfl
  unfold alarmsFire
  dsimp only
  rw [hone]
  generalize alarmFire past resync back k s = u at hact
  have hjs : [k].filter (fun k => u.fget F.BR_AL_CFG_ACTION k == 5) ++ [k].filter (fun k => u.fget F.BR_AL_CFG_ACTION k != 5) = [k] := by
    cases hb : u.fget F.BR_AL_CFG_ACTION k == 5 <;> simp [bne, hb]
  rw [hjs, hone]
  generalize hv : alarmAct k u = v
  have hno : ([k].any fun k => v.fget F.BR_AL_CFG_ACTION k == 2) = false := by
    have hkeep : v.fget F.BR_AL_CFG_ACTION k = u.fget F.BR_AL_CFG_ACTION k :=
      (hv ▸ alarmAct_within u k).fget _ _ rfl (by simp [actRegs])
    simp [hkeep, hact, h]
  rw [hno, if_neg Bool.false_ne_true]

/-- A trigger pulse that a firing asks for is begun (R24, R45). -/
theorem alarmsFire_pulse (k : Nat) (h : s.fget F.BR_AL_CFG_ACTION k = 4)
    (he : s.flag F.ACT_TRIG_CFG_EN (s.fget F.BR_AL_CFG_ARG k) = true) (hb : natBit s.pulses (s.fget F.BR_AL_CFG_ARG k) = false) :
    (s.alarmsFire false false false [k]).pulses = s.pulses + 2 ^ s.fget F.BR_AL_CFG_ARG k := by
  have hw := alarmFire_within s false false false k
  rw [alarmsFire_single s _ _ _ k (by rw [h]; decide)]
  generalize alarmFire false false false k s = u at hw
  have hcfg : ∀ f : Fld, f.r = .BR_AL_CFG → u.fget f k = s.fget f k := fun f hf =>
    hw.fget f k (by rw [hf]; rfl) (by rw [hf]; simp [alarmRegs, windowCells, winRegs])
  have hen : u.flag F.ACT_TRIG_CFG_EN (s.fget F.BR_AL_CFG_ARG k) = true :=
    (hw.flag _ _ rfl (by simp [alarmRegs, windowCells, winRegs])).trans he
  have hpul : u.pulses = s.pulses := (hw.same .egress (by simp)).2.1
  have hact : alarmAct k u = u.triggerPulse (s.fget F.BR_AL_CFG_ARG k) := by
    rw [alarmAct, hcfg F.BR_AL_CFG_ACTION rfl, hcfg F.BR_AL_CFG_ARG rfl, h]
    rfl
  rw [hact, triggerPulse, hen, hpul, hb]
  rfl

/-- A firing that nothing watches is its slot's registers alone. -/
theorem alarmFire_alone (past resync back : Bool) (k : Nat) (hd : s.flag F.BR_AL_CFG_DOMAIN k = false)
    (hw : ∀ w, w < 32 → s.flag F.BR_WIN_STAT_ARMED w = false) :
    Within (regCells alarmRegs k) [] s (alarmFire past resync back k s) := by
  obtain ⟨fs, e⟩ := alarmFire_shape s past resync back k
  have hm : Within (regCells alarmRegs k) [] s (alarmMark past resync k s) := (alarmMark_within s past resync k).mono
    (by rintro _ ⟨r, hr, rfl⟩; simp_all [alarmRegs]) (List.nil_subset _)
  have hno : ∀ w, w < 32 → watches (alarmMark past resync k s) k w = false := fun w h => by
    unfold watches
    rw [hm.flag _ _ rfl (by simp [alarmRegs]), hw w h, Bool.false_and]
  rw [e, windowEvent_unwatched _ k hno]
  have ht := hm.thenLogs (traceEv_logs (alarmMark past resync k s) 0x22 0x50 (some (s.fget F.BR_AL_CFG_PART k)) fs)
  exact ht.trans (alarmNext_time_within _ k past back ((ht.flag _ _ rfl (by simp [alarmRegs])).trans hd))

theorem alarmsFire_alone (k : Nat) (h : s.fget F.BR_AL_CFG_ACTION k = 0) (hd : s.flag F.BR_AL_CFG_DOMAIN k = false)
    (hw : ∀ w, w < 32 → s.flag F.BR_WIN_STAT_ARMED w = false) :
    Within (regCells alarmRegs k) [] s (s.alarmsFire false false false [k]) := by
  have hf := alarmFire_alone s false false false k hd hw
  rw [alarmsFire_single s _ _ _ k (by rw [h]; decide)]
  generalize alarmFire false false false k s = u at hf
  have hact : u.fget F.BR_AL_CFG_ACTION k = 0 := (hf.fget _ _ rfl (by simp [alarmRegs])).trans h
  have hid : alarmAct k u = u := by
    unfold alarmAct
    dsimp only
    rw [hact]
    rfl
  rwa [hid]

/-! ## Arming -/

/-- A slot as an arm leaves it, before what is past fires (R46). -/
def armedSlot (k : Nat) : State := { s.fset F.BR_AL_STAT_ARMED k 1 with holds := tabSet {} s.holds k {} }

theorem armedSlot_within (k : Nat) : Within (regCells [.BR_AL_STAT] k) [.phase] s (armedSlot s k) :=
  ((fset_within s F.BR_AL_STAT_ARMED k 1).mono subset_rfl (List.nil_subset _)).thenParts (holds_within _ _) (List.Subset.refl _)

theorem armedSlot_armed (k : Nat) : (armedSlot s k).flag F.BR_AL_STAT_ARMED k = true := flag_fset_one s _ k rfl (by decide)

theorem armedSlot_onlyBits (k : Nat) : OnlyBits s (armedSlot s k) .BR_AL_STAT k [F.BR_AL_STAT_ARMED] := by
  have h : OnlyBits s (s.fset F.BR_AL_STAT_ARMED k 1) .BR_AL_STAT k [F.BR_AL_STAT_ARMED] := OnlyBits.refl.fset List.mem_cons_self
  exact h

/-- What `armedSlot` keeps of a slot's other registers, its channel and the time. -/
theorem armedSlot_cfg (k : Nat) (f : Fld) (hf : f.r ≠ .BR_AL_STAT) (j : Nat) : (armedSlot s k).fget f j = s.fget f j :=
  fget_fset_ne s F.BR_AL_STAT_ARMED f j k 1 hf

theorem armedSlot_timeDue (k : Nat) (hd : s.flag F.BR_AL_CFG_DOMAIN k = false) : (armedSlot s k).timeDue k = true ↔
    sdiff (BitVec.ofNat 32 (s.fget F.BR_AL_TARGET_TARGET k)) s.now ≤ 0 := by
  have hd' : (armedSlot s k).flag F.BR_AL_CFG_DOMAIN k = false := by unfold flag; rwa [armedSlot_cfg s k _ (by decide)]
  have hnow : (armedSlot s k).now = s.now := rfl
  rw [timeDue_iff, armedSlot_armed, hd', armedSlot_cfg s k _ (by decide), hnow]
  simp

/-- A time alarm armed with its target ahead (R46). -/
theorem alarmArmed_future (k : Nat) (hd : s.flag F.BR_AL_CFG_DOMAIN k = false)
    (ht : 0 < sdiff (BitVec.ofNat 32 (s.fget F.BR_AL_TARGET_TARGET k)) s.now) : s.alarmArmed k = armedSlot s k := by
  have hd' : (armedSlot s k).flag F.BR_AL_CFG_DOMAIN k = false := by unfold flag; rwa [armedSlot_cfg s k _ (by decide)]
  have hdue : ¬ (armedSlot s k).timeDue k = true := by rw [armedSlot_timeDue s k hd]; omega
  show (if (armedSlot s k).flag F.BR_AL_CFG_DOMAIN k then _ else if (armedSlot s k).timeDue k then _ else _) = _
  rw [if_neg (by rw [hd']; decide), if_neg hdue]
  rfl

/-- A time alarm armed with its target past fires at once (R47, R49). -/
theorem alarmArmed_past (k : Nat) (hd : s.flag F.BR_AL_CFG_DOMAIN k = false)
    (ht : sdiff (BitVec.ofNat 32 (s.fget F.BR_AL_TARGET_TARGET k)) s.now ≤ 0) : Fired (armedSlot s k) (s.alarmArmed k) k true := by
  have hd' : (armedSlot s k).flag F.BR_AL_CFG_DOMAIN k = false := by unfold flag; rwa [armedSlot_cfg s k _ (by decide)]
  have he : s.alarmArmed k = (armedSlot s k).alarmsFire true false false [k] := by
    show (if (armedSlot s k).flag F.BR_AL_CFG_DOMAIN k then _ else if (armedSlot s k).timeDue k then _ else _) = _
    rw [if_neg (by rw [hd']; decide), if_pos ((armedSlot_timeDue s k hd).2 ht)]
    rfl
  rw [he]
  exact alarmsFire_fired _ true false false [k] (List.nodup_singleton k) k List.mem_cons_self

/-- A phase alarm is armed, and notes a channel that is not valid (R48). -/
theorem alarmArmed_phase (k : Nat) (hd : s.flag F.BR_AL_CFG_DOMAIN k = true) :
    (s.alarmArmed k).flag F.BR_AL_STAT_ARMED k = true ∧
      (s.alarmArmed k).flag F.BR_AL_STAT_MISSED_INVALID k = (s.flag F.BR_AL_STAT_MISSED_INVALID k ||
        !(s.flag F.BR_CH_STAT_VALID (s.fget F.BR_AL_CFG_CHANNEL k))) ∧
      Within (regCells [.BR_AL_STAT] k) [.phase] s (s.alarmArmed k) := by
  have hd' : (armedSlot s k).flag F.BR_AL_CFG_DOMAIN k = true := by unfold flag; rwa [armedSlot_cfg s k _ (by decide)]
  have hc := armedSlot_cfg s k F.BR_AL_CFG_CHANNEL (by decide) k
  have hv : (armedSlot s k).flag F.BR_CH_STAT_VALID (s.fget F.BR_AL_CFG_CHANNEL k) =
      s.flag F.BR_CH_STAT_VALID (s.fget F.BR_AL_CFG_CHANNEL k) := by unfold flag; rw [armedSlot_cfg s k _ (by decide)]
  have hm : (armedSlot s k).flag F.BR_AL_STAT_MISSED_INVALID k = s.flag F.BR_AL_STAT_MISSED_INVALID k :=
    flag_fset_field s F.BR_AL_STAT_ARMED F.BR_AL_STAT_MISSED_INVALID k 1 rfl (by decide)
  have hw := armedSlot_within s k
  have ha := armedSlot_armed s k
  have he : s.alarmArmed k = if s.flag F.BR_CH_STAT_VALID (s.fget F.BR_AL_CFG_CHANNEL k) then armedSlot s k else
      ((armedSlot s k).fset F.BR_AL_STAT_MISSED_INVALID k 1).count 0x133 (some k) (some ((armedSlot s k).fget F.BR_AL_CFG_PART k)) 1 := by
    show (if (armedSlot s k).flag F.BR_AL_CFG_DOMAIN k then if (armedSlot s k).flag F.BR_CH_STAT_VALID
      ((armedSlot s k).fget F.BR_AL_CFG_CHANNEL k) then _ else _ else _) = _
    rw [if_pos hd', hc, hv]
    rfl
  rw [he]
  generalize armedSlot s k = u at *
  split
  next hval => exact ⟨ha, by rw [hm, hval]; simp, hw⟩
  next hval =>
    have hl := count_logs (u.fset F.BR_AL_STAT_MISSED_INVALID k 1) 0x133 (some k) (some (u.fget F.BR_AL_CFG_PART k)) 1
    refine ⟨?_, ?_, (hw.thenFset F.BR_AL_STAT_MISSED_INVALID k 1 (by simp)).thenLogs hl⟩
    · rw [flag, hl.field _ k rfl, ← flag, flag_fset_field u F.BR_AL_STAT_MISSED_INVALID F.BR_AL_STAT_ARMED k 1 rfl (by decide), ha]
    · rw [Bool.not_eq_true] at hval
      rw [hval, flag, hl.field _ k rfl, ← flag, flag_fset_one u _ k rfl (by decide)]
      simp

/-! ## Disarming -/

theorem alarmOff_within (k : Nat) : Within (regCells [.BR_AL_STAT] k) [.phase] s (s.alarmOff k) := by
  have h := ((fset_within s F.BR_AL_STAT_ARMED k 0).mono (S' := regCells [.BR_AL_STAT] k) (ps' := [.phase]) subset_rfl
    (List.nil_subset _)).thenParts (holds_within _ (tabSet {} s.holds k {})) (List.Subset.refl _)
  exact h.thenParts (entries_within _ (tabSet {} s.entries k {})) (List.Subset.refl _)

theorem alarmOff_armed (k : Nat) : (s.alarmOff k).flag F.BR_AL_STAT_ARMED k = false := flag_fset_zero s _ k rfl (by decide)

theorem alarmOff_onlyBits (k : Nat) : OnlyBits s (s.alarmOff k) .BR_AL_STAT k [F.BR_AL_STAT_ARMED] := by
  have h : OnlyBits s (s.fset F.BR_AL_STAT_ARMED k 0) .BR_AL_STAT k [F.BR_AL_STAT_ARMED] := OnlyBits.refl.fset List.mem_cons_self
  exact h

theorem alarmOff_entry (k : Nat) : tabGet {} (s.alarmOff k).entries k = {} := tabGet_tabSet_same {} s.entries k {}

/-- A disarm keeps the counts and the other flags (R51). -/
theorem alarmOff_fget (k : Nat) (f : Fld) (hr : f.r = .BR_AL_STAT) (hf : 1 ≤ f.lo) : (s.alarmOff k).fget f k = s.fget f k :=
  fget_fset_field s F.BR_AL_STAT_ARMED f k 0 hr (.inl hf)

end Sys2Proof.Proofs
end

section
/-! Alarms by command (R46, R131, R136, R138), and the claim on alarm slots. -/

namespace Sys2Proof.Proofs

open Sys2Proof Sys2Proof.Machine Sys2Proof.Machine.State Sys2Proof.Safety

variable (s : State)

/-! ## By register -/

theorem execAlArm_refused (k : Fin 256) (hl : Live s)
    (h : s.fget F.BR_AL_CFG_ACTION k = 1 ∨ s.tdiLocked (s.fget F.BR_AL_CFG_PART k) = true) :
    exec (.alArm k) s = .next (s.accessFault .pf 2 (regOffset .BR_AL_STAT k) 0x80000000#64) := by
  show Host.Outcome.next (s.bar _) = _
  rw [bar_live s _ hl, if_pos h]

theorem execAlArm_taken (k : Fin 256) (hl : Live s) (ha : s.fget F.BR_AL_CFG_ACTION k ≠ 1)
    (hu : s.tdiLocked (s.fget F.BR_AL_CFG_PART k) = false) : exec (.alArm k) s = .next (s.alarmArmBit k) := by
  show Host.Outcome.next (s.bar _) = _
  rw [bar_live s _ hl, if_neg (by rw [hu]; simpa using ha)]

theorem execAlDisarm_refused (k : Fin 256) (hl : Live s) (h : s.tdiLocked (s.fget F.BR_AL_CFG_PART k) = true) :
    exec (.alDisarm k) s = .next (s.accessFault .pf 2 (regOffset .BR_AL_STAT k) 0x40000000#64) := by
  show Host.Outcome.next (s.bar _) = _
  rw [bar_live s _ hl, if_pos h]

theorem execAlDisarm_taken (k : Fin 256) (hl : Live s) (h : s.tdiLocked (s.fget F.BR_AL_CFG_PART k) = false) :
    exec (.alDisarm k) s = .next (s.alarmDisarmBit k) := by
  show Host.Outcome.next (s.bar _) = _
  rw [bar_live s _ hl, h, if_neg Bool.false_ne_true]

/-- A slot that is not armed has nothing due. -/
theorem timeDue_unarmed (k : Nat) (h : s.flag F.BR_AL_STAT_ARMED k = false) : s.timeDue k = false := by
  unfold timeDue
  rw [h]
  rfl

theorem alarmArmBit_armed (k : Nat) (hd : s.timeDue k = false) (h : s.flag F.BR_AL_STAT_ARMED k = true) : s.alarmArmBit k = s := by
  unfold alarmArmBit
  rw [fireFirst_notDue s k hd]
  exact if_pos h

/-- A periodic slot that is due stays armed, so its arm is its firing (R49, R51). -/
theorem alarmArmBit_periodic (k : Nat) (hk : k < 256) (hd : s.timeDue k = true) (hm : s.fget F.BR_AL_CFG_MODE k = 2) :
    s.alarmArmBit k = s.fireFirst k := by
  have hf := fireFirst_fired s k k hd hk hd
  have ha : (s.fireFirst k).flag F.BR_AL_STAT_ARMED k = true := by
    rw [hf.armed, ((timeDue_iff s k).1 hd).1, hm]
    rfl
  exact if_pos ha

theorem alarmArmBit_unarmed (k : Nat) (h : s.flag F.BR_AL_STAT_ARMED k = false) : s.alarmArmBit k =
    if s.alarmRefused (s.rget .BR_AL_CFG k) (s.fget F.BR_AL_PERIOD_PERIOD k) ≠ 0 then s.fset F.BR_AL_STAT_CFG_ERR k 1
    else s.alarmArmed k := by
  unfold alarmArmBit
  rw [fireFirst_notDue s k (timeDue_unarmed s k h)]
  dsimp only
  rw [h, if_neg Bool.false_ne_true]

theorem cfgErr_frame (k : Nat) : (s.fset F.BR_AL_STAT_CFG_ERR k 1).flag F.BR_AL_STAT_CFG_ERR k = true ∧
    OnlyBits s (s.fset F.BR_AL_STAT_CFG_ERR k 1) .BR_AL_STAT k [F.BR_AL_STAT_CFG_ERR] ∧
    Frame (oneReg .BR_AL_STAT k) [] s (s.fset F.BR_AL_STAT_CFG_ERR k 1) :=
  ⟨flag_fset_one s _ k rfl (by decide), OnlyBits.refl.fset List.mem_cons_self,
    (fset_within s F.BR_AL_STAT_CFG_ERR k 1).frame (by simp [oneReg]) (List.Subset.refl _)⟩

/-- A slot's registers as a claim names them. -/
theorem statCell_frame {ps : List Part} {t : State} (k : Nat) (h : Within (regCells [.BR_AL_STAT] k) ps s t) :
    Frame (oneReg .BR_AL_STAT k) ps s t := h.frame (by simp [oneReg]) (List.Subset.refl _)

/-- A disarm of a slot that is armed, after a firing that is due (R51). -/
theorem alarmDisarmBit_armed (k : Nat) (h : s.flag F.BR_AL_STAT_ARMED k = true) :
    (s.alarmDisarmBit k).flag F.BR_AL_STAT_ARMED k = false ∧ (s.timeDue k = false → s.alarmDisarmBit k = s.alarmOff k) ∧
    (k < 256 → s.timeDue k = true → (s.alarmDisarmBit k).flag F.BR_AL_STAT_FIRED k = true ∧
      (s.alarmDisarmBit k).fget F.BR_AL_STAT_FIRE_CNT k = (s.fget F.BR_AL_STAT_FIRE_CNT k + 1) % 2 ^ F.BR_AL_STAT_FIRE_CNT.w) := by
  have hb : s.alarmDisarmBit k =
      if (s.fireFirst k).flag F.BR_AL_STAT_ARMED k then (s.fireFirst k).alarmOff k else s.fireFirst k := rfl
  rw [hb]
  refine ⟨?_, fun hd => ?_, fun hk hd => ?_⟩
  · split
    · exact alarmOff_armed _ k
    next ha => exact Bool.eq_false_iff.2 ha
  · rw [fireFirst_notDue s k hd, if_pos h]
  · have hf := fireFirst_fired s k k hd hk hd
    split
    · exact ⟨by unfold flag; rw [alarmOff_fget _ k _ rfl (by decide)]; exact hf.fired,
        (alarmOff_fget _ k _ rfl (by decide)).trans hf.count⟩
    · exact ⟨hf.fired, hf.count⟩

/-! ## By command -/

theorem refusal_cases (p q r : Prop) [Decidable p] [Decidable q] [Decidable r] (x : Nat)
    (h : x = if p then 0x0108 else if q then 0x0108 else if r then 0x0400 else 0) : x = 0 ∨ x = 0x0108 ∨ x = 0x0400 := by
  split at h
  · exact .inr (.inl h)
  · split at h
    · exact .inr (.inl h)
    · split at h
      · exact .inr (.inr h)
      · exact .inl h

theorem alarmRefused_cases (cfg : W64) (period : Nat) :
    s.alarmRefused cfg period = 0 ∨ s.alarmRefused cfg period = 0x0108 ∨ s.alarmRefused cfg period = 0x0400 :=
  refusal_cases _ _ _ _ rfl

theorem firstBad_cons (x : Nat) (l : List Nat) : firstBad (x :: l) = if x = 0 then firstBad l else x := by
  unfold firstBad
  by_cases h : x = 0 <;> simp [h]

@[simp] theorem firstBad_nil : firstBad [] = 0 := rfl

/-- A field of a 32-bit image. -/
theorem getBits_image (cfg : W32) (lo w : Nat) : getBits (cfg.setWidth 64 : W64) lo w = cfg.toNat / 2 ^ lo % 2 ^ w := by
  have h := cfg.isLt
  unfold getBits
  rw [BitVec.extractLsb'_toNat, BitVec.toNat_setWidth, Nat.mod_eq_of_lt (show cfg.toNat < 2 ^ 64 by omega),
    Nat.shiftRight_eq_div_pow]

section configured
variable (k : Nat) (cfg target period : W32) (rel : Bool) (run : RunParams)

/-- The slot's configuration and program entry as a command writes them. -/
def imaged : State :=
  let u := s.rset .BR_AL_CFG k (cfg.setWidth 64)
  if getBits (cfg.setWidth 64 : W64) 16 4 = 1 then { u.fset F.BR_AL_CFG_ARG k k with entries := tabSet {} u.entries k run } else u

theorem imaged_within : Within (regCells [.BR_AL_CFG] k) [.phase] s (imaged s k cfg run) := by
  have h : Within (regCells [.BR_AL_CFG] k) [.phase] s (s.rset .BR_AL_CFG k (cfg.setWidth 64)) :=
    (rset_within s .BR_AL_CFG k _).mono subset_rfl (List.nil_subset _)
  exact .ite _ ((h.thenFset F.BR_AL_CFG_ARG k k (by simp)).thenParts (entries_within _ (tabSet {} s.entries k run))
    (List.Subset.refl _)) h

/-- A start's entry is the parameters given, and its ARG names the entry (R131, R136). -/
theorem imaged_start (h : getBits (cfg.setWidth 64 : W64) 16 4 = 1) (hk : k < 2 ^ 16) :
    tabGet {} (imaged s k cfg run).entries k = run ∧ (imaged s k cfg run).fget F.BR_AL_CFG_ARG k = k := by
  have he : imaged s k cfg run =
      { (s.rset .BR_AL_CFG k (cfg.setWidth 64)).fset F.BR_AL_CFG_ARG k k with entries := tabSet {} s.entries k run } := if_pos h
  rw [he]
  refine ⟨tabGet_tabSet_same {} s.entries k run, ?_⟩
  exact (fget_fset_same (s.rset .BR_AL_CFG k (cfg.setWidth 64)) F.BR_AL_CFG_ARG k k (by decide)).trans (Nat.mod_eq_of_lt hk)

theorem imaged_other (h : getBits (cfg.setWidth 64 : W64) 16 4 ≠ 1) :
    (imaged s k cfg run).rget .BR_AL_CFG k = cfg.setWidth 64 := by
  have he : imaged s k cfg run = s.rset .BR_AL_CFG k (cfg.setWidth 64) := if_neg h
  rw [he, rget_rset_same]

/-- ARG apart, the slot's configuration is the image. -/
theorem imaged_domain : (imaged s k cfg run).flag F.BR_AL_CFG_DOMAIN k = natBit cfg.toNat 27 := by
  have hr : (s.rset .BR_AL_CFG k (cfg.setWidth 64)).flag F.BR_AL_CFG_DOMAIN k = natBit cfg.toNat 27 := by
    unfold flag fget natBit
    rw [rget_rset_same, getBits_image]
    simp
  unfold imaged
  dsimp only
  split
  · exact (flag_fset_field _ F.BR_AL_CFG_ARG F.BR_AL_CFG_DOMAIN k k rfl (by decide)).trans hr
  · exact hr

/-- A slot's registers as a command writes them before it arms it (R46, R131, R136). -/
def configured : State :=
  ((imaged s k cfg run).fset F.BR_AL_TARGET_TARGET k (if rel then target + (imaged s k cfg run).now else target).toNat).fset
    F.BR_AL_PERIOD_PERIOD k period.toNat

theorem configured_within : Within (regCells [.BR_AL_CFG, .BR_AL_TARGET, .BR_AL_PERIOD] k) [.phase] s
    (configured s k cfg target period rel run) := by
  have h := (imaged_within s k cfg run).mono (S' := regCells [.BR_AL_CFG, .BR_AL_TARGET, .BR_AL_PERIOD] k)
    (by rintro _ ⟨r, hr, rfl⟩; simp_all) (List.Subset.refl _)
  exact (h.thenFset F.BR_AL_TARGET_TARGET k _ (by simp)).thenFset F.BR_AL_PERIOD_PERIOD k _ (by simp)

theorem configured_target : (configured s k cfg target period rel run).fget F.BR_AL_TARGET_TARGET k =
    (if rel then target + s.now else target).toNat := by
  have hnow : (imaged s k cfg run).now = s.now := ((imaged_within s k cfg run).time (by simp)).1
  unfold configured
  rw [fget_fset_ne _ F.BR_AL_PERIOD_PERIOD F.BR_AL_TARGET_TARGET k k _ (by decide),
    fget_fset_same _ F.BR_AL_TARGET_TARGET k _ (by decide), hnow]
  exact Nat.mod_eq_of_lt (BitVec.isLt _)

theorem configured_period : (configured s k cfg target period rel run).fget F.BR_AL_PERIOD_PERIOD k = period.toNat := by
  unfold configured
  rw [fget_fset_same _ F.BR_AL_PERIOD_PERIOD k _ (by decide)]
  exact Nat.mod_eq_of_lt period.isLt

/-- The configuration register is the image's. -/
theorem configured_cfg : (configured s k cfg target period rel run).rget .BR_AL_CFG k = (imaged s k cfg run).rget .BR_AL_CFG k := by
  unfold configured fset
  rw [rget_rset_other _ _ _ _ _ _ (.inl (by decide)), rget_rset_other _ _ _ _ _ _ (.inl (by decide))]

theorem configured_entries : (configured s k cfg target period rel run).entries = (imaged s k cfg run).entries := rfl

/-- A slot's registers (R45). -/
def slotRegs : List Reg := [.BR_AL_CFG, .BR_AL_TARGET, .BR_AL_PERIOD, .BR_AL_STAT]

/-- Slot `k` is armed as a command asks: a start names its entry, and every other image stands as given (R131, R136). -/
structure ArmedAs (s t : State) (k : Nat) (cfg target period : W32) (rel : Bool) (run : RunParams) : Prop where
  armed : t.flag F.BR_AL_STAT_ARMED k = true
  target : t.fget F.BR_AL_TARGET_TARGET k = (if rel then target + s.now else target).toNat
  period : t.fget F.BR_AL_PERIOD_PERIOD k = period.toNat
  start : cfg.toNat / 2 ^ 16 % 16 = 1 → tabGet {} t.entries k = run ∧ t.fget F.BR_AL_CFG_ARG k = k
  other : ¬ cfg.toNat / 2 ^ 16 % 16 = 1 → t.rget .BR_AL_CFG k = cfg.setWidth 64

variable {s k cfg target period rel run} in
theorem ArmedAs.congr {t t' : State} (h : ArmedAs s t k cfg target period rel run) (ht : Within ∅ [.cmds] t t') :
    ArmedAs s t' k cfg target period rel run := by
  have hf : ∀ f : Fld, ledger f.r = false → t'.fget f k = t.fget f k := fun f hf => ht.fget f k hf (by simp)
  have he : t'.entries = t.entries := (ht.same .phase (by simp)).2.1
  exact ⟨(ht.flag _ _ rfl (by simp)).trans h.armed, (hf _ rfl).trans h.target, (hf _ rfl).trans h.period,
    fun hb => by rw [he, hf _ rfl]; exact h.start hb, fun hb => (ht.reg _ _ rfl (by simp)).trans (h.other hb)⟩

variable {s k cfg target period rel run} in
theorem ArmedAs.of_now {s' t : State} (h : ArmedAs s' t k cfg target period rel run) (hn : s'.now = s.now) :
    ArmedAs s t k cfg target period rel run := ⟨h.armed, by rw [← hn]; exact h.target, h.period, h.start, h.other⟩

/-- A configured time alarm with its target ahead is armed and does not fire (R46). -/
theorem configured_armed (hk : k < 2 ^ 16) (hdom : natBit cfg.toNat 27 = false)
    (hfut : 0 < sdiff (if rel then target + s.now else target) s.now) :
    ArmedAs s ((configured s k cfg target period rel run).alarmArmed k) k cfg target period rel run ∧
      Within (regCells slotRegs k) [.phase] s ((configured s k cfg target period rel run).alarmArmed k) := by
  have h16 : getBits (cfg.setWidth 64 : W64) 16 4 = cfg.toNat / 2 ^ 16 % 16 := getBits_image cfg 16 4
  have hcw := configured_within s k cfg target period rel run
  have htgt := configured_target s k cfg target period rel run
  have hper := configured_period s k cfg target period rel run
  have hcfg := configured_cfg s k cfg target period rel run
  have hent := configured_entries s k cfg target period rel run
  have hstart := imaged_start s k cfg run
  have hother := imaged_other s k cfg run
  have hdomain := imaged_domain s k cfg run
  rw [h16] at hstart hother
  generalize imaged s k cfg run = im at *
  generalize configured s k cfg target period rel run = v at *
  have harm : v.alarmArmed k = armedSlot v k := by
    refine alarmArmed_future v k ?_ ?_
    · rw [flag, fget_congr im hcfg]
      exact hdomain.trans hdom
    · rwa [htgt, BitVec.ofNat_toNat, BitVec.setWidth_eq, (hcw.time (by simp)).1]
  have haw := armedSlot_within v k
  rw [harm]
  refine ⟨⟨armedSlot_armed v k, ?_, ?_, fun hb => ?_, fun hb => ?_⟩, ?_⟩
  · rw [armedSlot_cfg v k _ (by decide), htgt]
  · rw [armedSlot_cfg v k _ (by decide), hper]
  · obtain ⟨he, ha⟩ := hstart hb hk
    have hkeep : (armedSlot v k).entries = v.entries := rfl
    exact ⟨by rw [hkeep, hent, he], by rw [armedSlot_cfg v k _ (by decide), fget_congr im hcfg, ha]⟩
  · rw [haw.reg _ _ rfl (by simp), hcfg, hother hb]
  · exact (hcw.mono (regCells_mono (by simp [slotRegs]) k) (List.Subset.refl _)).next haw
      (regCells_mono (by simp [slotRegs]) k) (List.Subset.refl _)

end configured

theorem alarmArmGo_eq (c : Cmd) (k : Nat) (cfg target period : W32) (rel : Bool) (run : RunParams)
    (hp : c.par = .alarmArm k cfg target period rel run) : State.alarmArmGo c s =
      ((configured (s.fireFirst k) k cfg target period rel run).alarmArmed k).finish c.ring c.tag 0 k := by
  unfold State.alarmArmGo
  rw [hp]
  rfl

/-- The status of ALARM_ARM (R46, R136). -/
theorem alarmArmCheck_eq (c : Cmd) (k : Nat) (cfg target period : W32) (rel : Bool) (run : RunParams)
    (hp : c.par = .alarmArm k cfg target period rel run) : ∃ pin : Bool,
      (pin = true ↔ ∃ g, s.prog run.prog = some g ∧ ∀ t ∈ bitList run.tiles 16, pinned g t = true) ∧
      s.alarmArmCheck c =
        firstBad [if s.alarmRefused (cfg.setWidth 64) period.toNat = 0x0108 then s.alarmRefused (cfg.setWidth 64) period.toNat else 0,
          if cfg.toNat / 2 ^ 20 % 8 ≠ c.part ∨ s.alarmRefused (cfg.setWidth 64) period.toNat ≠ 0 ∨ s.fget F.BR_AL_CFG_PART k ≠ c.part
            then 0x0400 else 0,
          if cfg.toNat / 2 ^ 16 % 16 == 1 then s.runCheck c.part run else 0, if cfg.toNat / 2 ^ 16 % 16 == 1 && !pin then 0x0108 else 0,
          if s.staysArmed k then 0x0602 else 0] := by
  have h20 : getBits (cfg.setWidth 64 : W64) 20 3 = cfg.toNat / 2 ^ 20 % 8 := getBits_image cfg 20 3
  have h16 : getBits (cfg.setWidth 64 : W64) 16 4 = cfg.toNat / 2 ^ 16 % 16 := getBits_image cfg 16 4
  refine ⟨(s.prog run.prog).any fun g => (bitList run.tiles 16).all (pinned g), ?_, ?_⟩
  · simp only [Option.any_eq_true, List.all_eq_true]
  · unfold State.alarmArmCheck
    rw [hp]
    simp only [h20, h16]
    cases s.prog run.prog <;> rfl

section armCheck
variable {c : Cmd} {k : Nat} {cfg target period : W32} {rel : Bool} {run : RunParams}

theorem alarmArmCheck_refused (hp : c.par = .alarmArm k cfg target period rel run)
    (h : s.alarmRefused (cfg.setWidth 64) period.toNat ≠ 0) :
    s.alarmArmCheck c = s.alarmRefused (cfg.setWidth 64) period.toNat := by
  obtain ⟨pin, -, e⟩ := alarmArmCheck_eq s c k cfg target period rel run hp
  rw [e]
  rcases alarmRefused_cases s (cfg.setWidth 64) period.toNat with h0 | h0 | h0
  · exact absurd h0 h
  · simp [firstBad_cons, h0]
  · simp [firstBad_cons, h0]

theorem alarmArmCheck_foreign (hp : c.par = .alarmArm k cfg target period rel run)
    (h : s.alarmRefused (cfg.setWidth 64) period.toNat = 0)
    (hf : cfg.toNat / 2 ^ 20 % 8 ≠ c.part ∨ ¬ s.fget F.BR_AL_CFG_PART k = c.part) : s.alarmArmCheck c = 0x0400 := by
  obtain ⟨pin, -, e⟩ := alarmArmCheck_eq s c k cfg target period rel run hp
  have hown : cfg.toNat / 2 ^ 20 % 8 ≠ c.part ∨ (0 : Nat) ≠ 0 ∨ s.fget F.BR_AL_CFG_PART k ≠ c.part := by tauto
  rw [e, h, if_neg (by decide), if_pos hown, firstBad_cons, if_pos rfl, firstBad_cons]
  rfl

theorem alarmArmCheck_taken (hp : c.par = .alarmArm k cfg target period rel run)
    (h : s.alarmRefused (cfg.setWidth 64) period.toNat = 0) (hc : cfg.toNat / 2 ^ 20 % 8 = c.part)
    (hm : s.fget F.BR_AL_CFG_PART k = c.part) (hs : cfg.toNat / 2 ^ 16 % 16 = 1 → s.runCheck c.part run = 0 ∧
      ∃ g, s.prog run.prog = some g ∧ ∀ t ∈ bitList run.tiles 16, pinned g t = true) :
    s.alarmArmCheck c = if s.staysArmed k then 0x0602 else 0 := by
  obtain ⟨pin, hpin, e⟩ := alarmArmCheck_eq s c k cfg target period rel run hp
  have hrun : (if cfg.toNat / 2 ^ 16 % 16 == 1 then s.runCheck c.part run else 0) = 0 := by
    split
    next hb => exact (hs (beq_iff_eq.1 hb)).1
    · rfl
  have hpn : (if cfg.toNat / 2 ^ 16 % 16 == 1 && !pin then 0x0108 else 0) = 0 := by
    refine if_neg ?_
    rw [Bool.and_eq_true, beq_iff_eq, Bool.not_eq_true']
    exact fun hb => absurd (hpin.2 (hs hb.1).2) (by rw [hb.2]; decide)
  have hown : ¬ (cfg.toNat / 2 ^ 20 % 8 ≠ c.part ∨ (0 : Nat) ≠ 0 ∨ s.fget F.BR_AL_CFG_PART k ≠ c.part) := by tauto
  rw [e, hrun, hpn, h, if_neg hown]
  simp only [firstBad_cons, firstBad_nil, ite_self, if_true]
  split <;> rfl

end armCheck

section commands
variable {s} {r : Fin 128} {tag : Fin 512} {c : Cmd} {k : Nat} {cfg target period : W32} {rel : Bool} {run : RunParams}

/-- An ALARM_ARM that is refused marks its slot, when that is of its partition, and ends (R46). -/
theorem execAlarmArm_refused (h : Ready s r tag c) (hp : c.par = .alarmArm k cfg target period rel run)
    (hst : s.alarmArmCheck c ≠ 0) : exec (.alarmArm r tag) s = .next ((s.alarmMark c).finish r tag (s.alarmArmCheck c) 0) ∧
      (s.alarmMark c).cmds = s.cmds := by
  have hm : (s.alarmMark c).cmds = s.cmds := by
    unfold State.alarmMark
    rw [hp]
    dsimp only
    split <;> rfl
  obtain ⟨hr, ht⟩ := ready_ring h
  refine ⟨?_, hm⟩
  show Host.Outcome.next (s.withCmd _ _ _ _) = _
  rw [withCmd_ready h _ (by rw [hp])]
  have hif : (if s.fenceMet c && s.alarmArmCheck c != 0 then s.alarmMark c else s) = s.alarmMark c := by
    rw [ready_fence h]
    simp [hst]
  simp only [hif]
  rw [enter_refused _ c _ _ ((fenceMet_congr s hm c).trans (ready_fence h)) hst, hr, ht]

/-- An ALARM_ARM that passes its checks arms the slot as it is configured (R46, R51). -/
theorem execAlarmArm_taken (h : Ready s r tag c) (hp : c.par = .alarmArm k cfg target period rel run)
    (hst : s.alarmArmCheck c = 0) : exec (.alarmArm r tag) s = .next (State.alarmArmGo c (startedCmd s c)) := by
  show Host.Outcome.next (s.withCmd _ _ _ _) = _
  rw [withCmd_ready h _ (by rw [hp])]
  have hif : (if s.fenceMet c && s.alarmArmCheck c != 0 then s.alarmMark c else s) = s := by simp [hst]
  simp only [hif]
  rw [hst, enter_starts _ c _ (ready_fence h)]

/-- What an ALARM_ARM refused under R46 leaves: its end, and CFG_ERR of a slot of its partition. -/
theorem alarmArm_bad (h : Ready s r tag c) (hs : c.signal = false) (hp : c.par = .alarmArm k cfg target period rel run)
    (hb : s.alarmRefused (cfg.setWidth 64) period.toNat ≠ 0) : ∃ t, exec (.alarmArm r tag) s = .next t ∧
      Ended t r tag (s.alarmRefused (cfg.setWidth 64) period.toNat) 0 ∧
      (s.fget F.BR_AL_CFG_PART k = c.part → t.flag F.BR_AL_STAT_CFG_ERR k = true) ∧
      OnlyBits s t .BR_AL_STAT k [F.BR_AL_STAT_CFG_ERR] ∧ Frame (oneReg .BR_AL_STAT k) [.cmds] s t := by
  have hst := alarmArmCheck_refused s hp hb
  obtain ⟨hx, hcm⟩ := execAlarmArm_refused h hp (by rw [hst]; exact hb)
  have hmark : s.alarmMark c = if s.fget F.BR_AL_CFG_PART k = c.part then s.fset F.BR_AL_STAT_CFG_ERR k 1 else s := by
    unfold State.alarmMark
    rw [hp]
    exact if_congr (and_iff_right hb) rfl rfl
  have hfind := (findCmd_congr s hcm r tag).trans h.1
  have hfin := finish_within _ hfind hs (s.alarmArmCheck c) 0
  have hend := finish_refused _ hfind hs (s.alarmArmCheck c)
  rw [hst] at hx hfin hend
  obtain ⟨hflag, hbits, -⟩ := cfgErr_frame s k
  have hset := fset_within s F.BR_AL_STAT_CFG_ERR k 1
  refine ⟨_, hx, hend, fun hm => ?_, ?_, ?_⟩
  · rw [hfin.flag _ _ rfl (by simp), hmark, if_pos hm, hflag]
  · refine onlyBits_trans ?_ (onlyBits_of_within hfin rfl (by simp))
    rw [hmark]
    split
    · exact hbits
    · exact .refl
  · refine Within.frame (S := regCells [.BR_AL_STAT] k) (ps := [.cmds]) ?_ (by simp [oneReg]) (List.Subset.refl _)
    refine Within.thenParts ?_ hfin (List.Subset.refl _)
    rw [hmark]
    exact .ite _ (hset.mono subset_rfl (List.nil_subset _)) (.refl s)

/-- What an ALARM_ARM refused for another reason leaves: its end. -/
theorem alarmArm_refused (h : Ready s r tag c) (hs : c.signal = false) (hp : c.par = .alarmArm k cfg target period rel run)
    (hb : s.alarmRefused (cfg.setWidth 64) period.toNat = 0) (hst : s.alarmArmCheck c ≠ 0) :
    ∃ t, exec (.alarmArm r tag) s = .next t ∧ Ended t r tag (s.alarmArmCheck c) 0 ∧ Frame noReg [.cmds] s t := by
  obtain ⟨hx, -⟩ := execAlarmArm_refused h hp hst
  have hmark : s.alarmMark c = s := by
    unfold State.alarmMark
    rw [hp]
    exact if_neg (fun e => e.1 hb)
  rw [hmark] at hx
  exact ⟨_, hx, finish_refused s h.1 hs _, (finish_within s h.1 hs _ 0).frame (by simp) (List.Subset.refl _)⟩

/-- An ALARM_ARM whose target is ahead: the slot is configured and armed, and RESULT is the slot (R46, R131, R136). -/
theorem alarmArm_future (h : Ready s r tag c) (hs : c.signal = false) (hp : c.par = .alarmArm k cfg target period rel run)
    (hk : k < 256) (hst : s.alarmArmCheck c = 0) (hd : s.timeDue k = false) (hdom : natBit cfg.toNat 27 = false)
    (hfut : 0 < sdiff (if rel then target + s.now else target) s.now) :
    ∃ t, exec (.alarmArm r tag) s = .next t ∧ Ended t r tag 0 k ∧ ArmedAs s t k cfg target period rel run ∧
      Within (regCells slotRegs k) [.cmds, .phase] s t := by
  have hstart := startedCmd_within s c
  have hfind := startedCmd_find h
  obtain ⟨hr, ht⟩ := ready_ring h
  have hnow : (startedCmd s c).now = s.now := rfl
  have hdue : (startedCmd s c).timeDue k = false := hd
  have hx := execAlarmArm_taken h hp hst
  rw [alarmArmGo_eq _ c k cfg target period rel run hp, fireFirst_notDue _ k hdue, hr, ht] at hx
  generalize startedCmd s c = u at *
  obtain ⟨harm, hw⟩ := configured_armed u k cfg target period rel run (by omega) hdom (by rwa [hnow])
  generalize (configured u k cfg target period rel run).alarmArmed k = v at *
  have hfind' := (findCmd_congr u (hw.same .cmds (by simp)).1 r tag).trans hfind
  have hfin := finish_within v hfind' hs 0 k
  refine ⟨_, hx, finish_succeeds v hfind' hs k, (harm.congr hfin).of_now hnow, ?_⟩
  exact ((hstart.mono (Set.empty_subset _) (by simp)).next hw subset_rfl (by simp)).thenParts hfin (by simp)

/-- The work of ALARM_DISARM (R51, R138). -/
theorem execAlarmDisarm_taken (h : Ready s r tag c) (hp : c.par = .alarmDisarm k) (hm : s.fget F.BR_AL_CFG_PART k = c.part) :
    exec (.alarmDisarm r tag) s = .next ((((startedCmd s c).fireFirst k).alarmOff k).finish r tag 0
      ((((startedCmd s c).fireFirst k).alarmOff k).fget F.BR_AL_STAT_FIRE_CNT k)) := by
  have hck : s.alarmDisarmCheck c = 0 := by
    unfold State.alarmDisarmCheck
    rw [hp]
    exact if_neg (not_not_intro hm)
  obtain ⟨hr, ht⟩ := ready_ring h
  show Host.Outcome.next (s.begin _ _ _ _ _ _) = _
  rw [begin_ready h _ (by rw [hp]), hck, enter_starts _ c _ (ready_fence h), hp, hr, ht]

theorem execAlarmDisarm_foreign (h : Ready s r tag c) (hs : c.signal = false) (hp : c.par = .alarmDisarm k)
    (hm : s.fget F.BR_AL_CFG_PART k ≠ c.part) :
    ∃ t, exec (.alarmDisarm r tag) s = .next t ∧ Ended t r tag 0x0400 0 ∧ Frame noReg [.cmds] s t := by
  have hck : s.alarmDisarmCheck c = 0x0400 := by
    unfold State.alarmDisarmCheck
    rw [hp]
    exact if_pos hm
  obtain ⟨hr, ht⟩ := ready_ring h
  have hx : exec (.alarmDisarm r tag) s = .next (s.finish r tag 0x0400 0) := by
    show Host.Outcome.next (s.begin _ _ _ _ _ _) = _
    rw [begin_ready h _ (by rw [hp]), hck, enter_refused _ c _ _ (ready_fence h) (by decide), hr, ht]
  exact ⟨_, hx, finish_refused s h.1 hs _, (finish_within s h.1 hs _ 0).frame (by simp) (List.Subset.refl _)⟩

/-- What ALARM_DISARM leaves of the disarmed slot, and the result with which it ends. -/
theorem alarmDisarm_ends (h : Ready s r tag c) (hs : c.signal = false) (hp : c.par = .alarmDisarm k)
    (hm : s.fget F.BR_AL_CFG_PART k = c.part) : ∃ v t, v = (startedCmd s c).fireFirst k ∧ exec (.alarmDisarm r tag) s = .next t ∧
      Ended t r tag 0 (v.fget F.BR_AL_STAT_FIRE_CNT k) ∧ Within ∅ [.cmds] (v.alarmOff k) t := by
  have hx := execAlarmDisarm_taken h hp hm
  have hcmds : ((startedCmd s c).fireFirst k).cmds = (startedCmd s c).cmds :=
    ((fireFirst_within (startedCmd s c) k).same .cmds (by simp [firedParts, actParts])).1
  have hfind := (findCmd_congr _ hcmds r tag).trans (startedCmd_find h)
  rw [alarmOff_fget _ k _ rfl (by decide)] at hx
  generalize (startedCmd s c).fireFirst k = v at *
  have hfind' : (v.alarmOff k).findCmd r tag = some { c with checked := true, started := true } := hfind
  exact ⟨v, _, rfl, hx, finish_succeeds _ hfind' hs _, finish_within _ hfind' hs _ _⟩

end commands

/-! ## The claim -/

/-- A time alarm that is due fires, and with it all that are due (R47, R49, R50). -/
theorem execTimeAlarmFire_due (k : Fin 256) (h : s.timeDue k = true) : ∃ t, exec (.timeAlarmFire k) s = .next t ∧
    (∀ j, j < 256 → s.timeDue j = true → t.flag F.BR_AL_STAT_FIRED j = true ∧
      t.fget F.BR_AL_STAT_FIRE_CNT j = (s.fget F.BR_AL_STAT_FIRE_CNT j + 1) % 2 ^ F.BR_AL_STAT_FIRE_CNT.w ∧
      (s.fget F.BR_AL_CFG_MODE j = 1 → t.flag F.BR_AL_STAT_ARMED j = false ∧ t.rget .BR_AL_TARGET j = s.rget .BR_AL_TARGET j) ∧
      (s.fget F.BR_AL_CFG_MODE j = 2 → t.flag F.BR_AL_STAT_ARMED j = true ∧ t.fget F.BR_AL_TARGET_TARGET j =
        (s.fget F.BR_AL_TARGET_TARGET j + s.fget F.BR_AL_PERIOD_PERIOD j) % 2 ^ 32)) ∧
    ((∀ j, j < 256 → j ≠ k.val → s.timeDue j = false) →
      (s.fget F.BR_AL_CFG_ACTION k = 4 → s.flag F.ACT_TRIG_CFG_EN (s.fget F.BR_AL_CFG_ARG k) = true →
        natBit s.pulses (s.fget F.BR_AL_CFG_ARG k) = false → t.pulses = s.pulses + 2 ^ s.fget F.BR_AL_CFG_ARG k) ∧
      (s.fget F.BR_AL_CFG_ACTION k = 0 → (∀ w, w < 32 → s.flag F.BR_WIN_STAT_ARMED w = false) →
        Frame (theRegs [.BR_AL_STAT, .BR_AL_TARGET] k) [] s t)) := by
  refine ⟨s.fireFirst k, rfl, fun j hj hd => ?_, fun ho => ?_⟩
  · obtain ⟨harm, hdom, -⟩ := (timeDue_iff s j).1 hd
    have hf := fireFirst_fired s k j h hj hd
    exact ⟨hf.fired, hf.count, fun hm => ⟨by rw [hf.armed, harm, hm]; rfl, hf.oneShot hm⟩,
      fun hm => ⟨by rw [hf.armed, harm, hm]; rfl, hf.periodic rfl hm hdom⟩⟩
  · obtain ⟨-, hdom, -⟩ := (timeDue_iff s k).1 h
    rw [fireFirst_due s k h, dueSlots_single s k k.isLt h ho]
    refine ⟨alarmsFire_pulse s k, fun ha hw => ?_⟩
    exact (alarmsFire_alone s k ha hdom hw).frame (fun q j hq => (reg_mem_regCells alarmRegs k j q).1 hq) (List.Subset.refl _)

/-- What the ARM bit does to a slot that is not armed (R46-R49). -/
theorem alarmArmBit_arms (k : Nat) (h : s.flag F.BR_AL_STAT_ARMED k = false) :
    let bad := s.alarmRefused (s.rget .BR_AL_CFG k) (s.fget F.BR_AL_PERIOD_PERIOD k) ≠ 0
    let t := s.alarmArmBit k
    (bad → t.flag F.BR_AL_STAT_CFG_ERR k = true ∧ OnlyBits s t .BR_AL_STAT k [F.BR_AL_STAT_CFG_ERR] ∧
      Frame (oneReg .BR_AL_STAT k) [] s t) ∧
    (¬ bad → s.flag F.BR_AL_CFG_DOMAIN k = false →
      0 < sdiff (BitVec.ofNat 32 (s.fget F.BR_AL_TARGET_TARGET k)) s.now → t.flag F.BR_AL_STAT_ARMED k = true ∧
      OnlyBits s t .BR_AL_STAT k [F.BR_AL_STAT_ARMED] ∧ Frame (oneReg .BR_AL_STAT k) [.phase] s t) ∧
    (¬ bad → s.flag F.BR_AL_CFG_DOMAIN k = false →
      sdiff (BitVec.ofNat 32 (s.fget F.BR_AL_TARGET_TARGET k)) s.now ≤ 0 → t.flag F.BR_AL_STAT_FIRED k = true ∧
      t.flag F.BR_AL_STAT_PAST k = true ∧
      t.fget F.BR_AL_STAT_FIRE_CNT k = (s.fget F.BR_AL_STAT_FIRE_CNT k + 1) % 2 ^ F.BR_AL_STAT_FIRE_CNT.w) ∧
    (¬ bad → s.flag F.BR_AL_CFG_DOMAIN k = true → t.flag F.BR_AL_STAT_ARMED k = true ∧
      t.flag F.BR_AL_STAT_MISSED_INVALID k = (s.flag F.BR_AL_STAT_MISSED_INVALID k ||
        !(s.flag F.BR_CH_STAT_VALID (s.fget F.BR_AL_CFG_CHANNEL k))) ∧ Frame (oneReg .BR_AL_STAT k) [.phase] s t) := by
  intro bad t
  have ht : t = if bad then s.fset F.BR_AL_STAT_CFG_ERR k 1 else s.alarmArmed k := alarmArmBit_unarmed s k h
  refine ⟨fun hb => ?_, fun hb hd hfut => ?_, fun hb hd hpast => ?_, fun hb hd => ?_⟩
  · rw [ht, if_pos hb]
    exact cfgErr_frame s k
  · rw [ht, if_neg hb, alarmArmed_future s k hd hfut]
    exact ⟨armedSlot_armed s k, armedSlot_onlyBits s k, statCell_frame s k (armedSlot_within s k)⟩
  · have hf := alarmArmed_past s k hd hpast
    have hc : (armedSlot s k).fget F.BR_AL_STAT_FIRE_CNT k = s.fget F.BR_AL_STAT_FIRE_CNT k :=
      fget_fset_field s F.BR_AL_STAT_ARMED F.BR_AL_STAT_FIRE_CNT k 1 rfl (by decide)
    rw [ht, if_neg hb]
    exact ⟨hf.fired, hf.late rfl, hc ▸ hf.count⟩
  · obtain ⟨harm, hmiss, hw⟩ := alarmArmed_phase s k hd
    rw [ht, if_neg hb]
    exact ⟨harm, hmiss, statCell_frame s k hw⟩

/-- Settles O38: firings by the loop over what is due, and each write or command by the slot's state after them. -/
theorem alarmSlots : Obligations.AlarmSlots := by
  unfold Obligations.AlarmSlots
  refine ⟨fun k s => ⟨execTimeAlarmFire_due s k, fun h => congrArg _ (fireFirst_notDue s k h)⟩, ?_, ?_, ?_⟩
  · intro k s hl
    refine ⟨fun h => ⟨_, execAlArm_refused s k hl h, accessFault_recorded s _ _ _ _⟩,
      fun h => ⟨_, execAlDisarm_refused s k hl h, accessFault_recorded s _ _ _ _⟩,
      fun ha hu h => ⟨_, execAlArm_taken s k hl ha hu, alarmArmBit_arms s k h⟩, fun ha hu h => ⟨fun hd => ?_, fun hd hm => ?_⟩,
      fun hu h => ⟨_, execAlDisarm_taken s k hl hu, ?_⟩, fun hu h => ?_⟩
    · rw [execAlArm_taken s k hl ha hu, alarmArmBit_armed s k hd h]
    · rw [execAlArm_taken s k hl ha hu, alarmArmBit_periodic s k k.isLt hd hm]
      rfl
    · obtain ⟨harm, hoff, hfired⟩ := alarmDisarmBit_armed s k h
      refine ⟨harm, fun hd => ?_, hfired k.isLt⟩
      rw [hoff hd]
      exact ⟨alarmOff_onlyBits s k, alarmOff_entry s k, statCell_frame s k (alarmOff_within s k)⟩
    · have he : s.alarmDisarmBit k = s := by
        unfold alarmDisarmBit
        rw [fireFirst_notDue s k (timeDue_unarmed s k h)]
        exact if_neg (by rw [h]; decide)
      rw [execAlDisarm_taken s k hl hu, he]
  · intro r tag s c k cfg target period rel run h hs hp hk
    refine ⟨alarmArm_bad h hs hp, fun hb hf => ?_, fun hb hc hm hst hd => ⟨fun harm => ?_, fun harm hdom hfut => ?_⟩⟩
    · have hck := alarmArmCheck_foreign s hp hb hf
      exact hck ▸ alarmArm_refused h hs hp hb (by rw [hck]; decide)
    · have hck : s.alarmArmCheck c = 0x0602 := by
        rw [alarmArmCheck_taken s hp hb hc hm hst, if_pos]
        rw [staysArmed, harm, hd]
        rfl
      exact hck ▸ alarmArm_refused h hs hp hb (by rw [hck]; decide)
    · have hck : s.alarmArmCheck c = 0 := by
        rw [alarmArmCheck_taken s hp hb hc hm hst, if_neg]
        rw [staysArmed, harm, Bool.false_and]
        exact Bool.false_ne_true
      obtain ⟨t, hx, hend, ⟨ha, htgt, hper, hstart, hother⟩, hw⟩ := alarmArm_future h hs hp hk hck hd hdom hfut
      exact ⟨t, hx, hend, ha, htgt, hper, hstart, hother,
        hw.frame (fun q j hq => (reg_mem_regCells slotRegs k j q).1 hq) (List.Subset.refl _)⟩
  · intro r tag s c k h hs hp
    have hstart := startedCmd_within s c
    refine ⟨fun hm hd => ?_, fun hm hd hk => ?_, execAlarmDisarm_foreign h hs hp⟩
    · obtain ⟨v, t, hv, hx, hend, hw⟩ := alarmDisarm_ends h hs hp hm
      rw [fireFirst_notDue (startedCmd s c) k hd] at hv
      subst hv
      refine ⟨t, hx, hend, (hw.flag _ _ rfl (by simp)).trans (alarmOff_armed _ k), ?_, ?_⟩
      · exact onlyBits_trans (onlyBits_trans (onlyBits_of_within hstart rfl (by simp)) (alarmOff_onlyBits _ k))
          (onlyBits_of_within hw rfl (by simp))
      · have hall : Within (regCells [.BR_AL_STAT] k) [.cmds, .phase] s t :=
          ((hstart.mono (Set.empty_subset _) (by simp)).next (alarmOff_within _ k) subset_rfl (by simp)).thenParts hw (by simp)
        exact statCell_frame s k hall
    · obtain ⟨v, t, hv, hx, hend, hw⟩ := alarmDisarm_ends h hs hp hm
      have hf : Fired (startedCmd s c) v k false := hv ▸ fireFirst_fired (startedCmd s c) k k hd hk hd
      refine ⟨t, hx, hf.count ▸ hend, ?_, (hw.flag _ _ rfl (by simp)).trans (alarmOff_armed _ k)⟩
      rw [hw.flag _ _ rfl (by simp), flag, alarmOff_fget v k _ rfl (by decide)]
      exact hf.fired

end Sys2Proof.Proofs
end

section
/-! The timebase: reads, trims and steps, and the servo (R30-R38). -/

namespace Sys2Proof.Proofs

open Sys2Proof Sys2Proof.Machine Sys2Proof.Machine.State Sys2Proof.Safety

variable (s : State)

/-! ## The increment -/

theorem clampInc_toNat (v : W32) : (clampInc v).toNat = max 0x03FF7CEE (min v.toNat 0x04008312) := by
  unfold clampInc
  split
  · show 0x03FF7CEE = _; omega
  · split
    · show 0x04008312 = _; omega
    · omega

theorem clampInc_eq_iff (v : W32) : clampInc v = v ↔ ¬ (v.toNat < 0x03FF7CEE ∨ 0x04008312 < v.toNat) := by
  rw [← BitVec.toNat_inj, clampInc_toNat]
  omega

theorem setInc_eq (v : W32) : s.setInc v = if clampInc v = v then s.fset F.TB_INC_INC 0 (clampInc v).toNat
    else (s.fset F.TB_INC_INC 0 (clampInc v).toNat).fset F.TB_STATUS_INC_CLAMPED 0 1 := rfl

theorem setInc_inc (v : W32) : (s.setInc v).fget F.TB_INC_INC 0 = max 0x03FF7CEE (min v.toNat 0x04008312) := by
  have h : (s.fset F.TB_INC_INC 0 (clampInc v).toNat).fget F.TB_INC_INC 0 = max 0x03FF7CEE (min v.toNat 0x04008312) := by
    rw [fget_fset_same s F.TB_INC_INC 0 _ (by decide), ← clampInc_toNat]
    exact Nat.mod_eq_of_lt (BitVec.isLt _)
  rw [setInc_eq]
  split
  · exact h
  · rw [fget_fset_ne _ F.TB_STATUS_INC_CLAMPED F.TB_INC_INC 0 0 1 (by decide), h]

theorem setInc_clamped (v : W32) : (s.setInc v).flag F.TB_STATUS_INC_CLAMPED 0 =
    (s.flag F.TB_STATUS_INC_CLAMPED 0 || decide (v.toNat < 0x03FF7CEE ∨ 0x04008312 < v.toNat)) := by
  rw [setInc_eq]
  split
  next h =>
    rw [flag_fset_ne s F.TB_INC_INC F.TB_STATUS_INC_CLAMPED 0 0 _ (by decide),
      decide_eq_false ((clampInc_eq_iff v).1 h), Bool.or_false]
  next h =>
    rw [flag_fset_one _ F.TB_STATUS_INC_CLAMPED 0 rfl (by decide), decide_eq_true (not_not.1 (mt (clampInc_eq_iff v).2 h)),
      Bool.or_true]

theorem setInc_within (v : W32) : Within (regCells [.TB_INC, .TB_STATUS] 0) [] s (s.setInc v) := by
  have h : Within (regCells [.TB_INC, .TB_STATUS] 0) [] s (s.fset F.TB_INC_INC 0 (clampInc v).toNat) :=
    (Within.refl s).thenFset F.TB_INC_INC 0 _ (by simp)
  exact .ite _ h (h.thenFset F.TB_STATUS_INC_CLAMPED 0 1 (by simp))

theorem setInc_onlyBits (v : W32) : OnlyBits s (s.setInc v) .TB_STATUS 0 [F.TB_STATUS_INC_CLAMPED] := by
  have h : OnlyBits s (s.fset F.TB_INC_INC 0 (clampInc v).toNat) .TB_STATUS 0 [F.TB_STATUS_INC_CLAMPED] :=
    onlyBits_of_within (fset_within s F.TB_INC_INC 0 _) rfl (by simp)
  rw [setInc_eq]
  split
  · exact h
  · exact h.fset List.mem_cons_self

/-- The flags of TB_STATUS but INC_CLAMPED stay through a trim. -/
theorem setInc_flag (v : W32) (f : Fld) (hr : f.r = .TB_STATUS)
    (hf : F.TB_STATUS_INC_CLAMPED.lo + F.TB_STATUS_INC_CLAMPED.w ≤ f.lo ∨ f.lo + f.w ≤ F.TB_STATUS_INC_CLAMPED.lo) :
    (s.setInc v).flag f 0 = s.flag f 0 := by
  have h : (s.fset F.TB_INC_INC 0 (clampInc v).toNat).flag f 0 = s.flag f 0 :=
    flag_fset_ne s F.TB_INC_INC f 0 0 _ (by rw [hr]; decide)
  rw [setInc_eq]
  split
  · exact h
  · rw [flag_fset_field _ F.TB_STATUS_INC_CLAMPED f 0 1 hr hf, h]

/-! ## Steps -/

theorem timeFault_logs (cause step : Nat) : Logs s (s.timeFault cause step) := fault_logs s _

theorem timeFault_newest (cause step : Nat) : Newest (s.timeFault cause step) 7 cause := fault_newest s _

theorem lockTrace_logs : Logs s s.lockTrace := traceEv_logs _ _ _ _ _

/-- The counter and the wrap count after a step (R32, R38). -/
def steppedTo (delta : W32) : State :=
  let sum : Int := s.tb.toNat + delta.toInt * 2 ^ 24
  { s with tb := BitVec.ofInt 56 sum, wrap := s.wrap + (if sum < 0 then 0xFF#8 else if 2 ^ 56 ≤ sum then 1#8 else 0#8) }

/-- A step before the alarms see it. -/
def stepShown (delta : W32) : State :=
  (((steppedTo s delta).fset F.TB_STATUS_STEPPED 0 1).timeFault 3 delta.toNat).traceEv 0x29 0xB0 none [(16, delta.toNat)]

theorem timeStep_eq (delta : W32) :
    s.timeStep delta = (stepShown s delta).alarmsFire true false false (dueSlots (stepShown s delta)) := rfl

theorem steppedTo_within (delta : W32) : Within ∅ [.time] s (steppedTo s delta) :=
  time_within s _ _ s.ticks s.goodSyncs s.servoStepped

theorem steppedTo_tb (delta : W32) : (steppedTo s delta).tb = s.tb + BitVec.ofInt 56 (delta.toInt * 2 ^ 24) := by
  show BitVec.ofInt 56 _ = _
  rw [BitVec.ofInt_add, BitVec.ofInt_natCast, BitVec.ofNat_toNat, BitVec.setWidth_eq]

theorem stepShown_logs (delta : W32) : Logs ((steppedTo s delta).fset F.TB_STATUS_STEPPED 0 1) (stepShown s delta) :=
  (timeFault_logs _ _ _).trans (traceEv_logs _ _ _ _ _)

theorem stepShown_within (delta : W32) : Within (regCells [.TB_STATUS] 0) [] (steppedTo s delta) (stepShown s delta) :=
  (fset_within _ F.TB_STATUS_STEPPED 0 1).thenLogs (stepShown_logs s delta)

theorem stepShown_all (delta : W32) : Within (regCells [.TB_STATUS] 0) [.time] s (stepShown s delta) :=
  ((steppedTo_within s delta).mono (Set.empty_subset _) (List.Subset.refl _)).next (stepShown_within s delta) subset_rfl (by simp)

theorem stepShown_stepped (delta : W32) : (stepShown s delta).flag F.TB_STATUS_STEPPED 0 = true := by
  rw [flag, (stepShown_logs s delta).field _ 0 rfl, ← flag, flag_fset_one _ _ 0 rfl (by decide)]

theorem stepShown_newest (delta : W32) : Newest (stepShown s delta) 7 3 :=
  newest_of_faults (timeFault_newest _ 3 delta.toNat) (traceEv_faults _ _ _ _ _)

theorem stepShown_onlyBits (delta : W32) : OnlyBits s (stepShown s delta) .TB_STATUS 0 [F.TB_STATUS_STEPPED] := by
  have h0 : OnlyBits s (steppedTo s delta) .TB_STATUS 0 [F.TB_STATUS_STEPPED] :=
    onlyBits_of_within (steppedTo_within s delta) rfl (by simp)
  exact onlyBits_trans (h0.fset List.mem_cons_self) (onlyBits_of_within (within_of_logs (stepShown_logs s delta)) rfl (by simp))

/-- What the alarms do on a step leaves the timebase alone. -/
theorem timeStep_within (delta : W32) : Within (firedCells (List.range 256)) firedParts (stepShown s delta) (s.timeStep delta) := by
  rw [timeStep_eq]
  exact (alarmsFire_within _ _ _ _ _).mono (firedCells_mono (List.filter_subset_self _)) (List.Subset.refl _)

/-- The counter, the wrap count and the servo's state after a step. -/
theorem timeStep_time (delta : W32) : (s.timeStep delta).tb = s.tb + BitVec.ofInt 56 (delta.toInt * 2 ^ 24) ∧
    (s.timeStep delta).wrap = (steppedTo s delta).wrap ∧ (s.timeStep delta).goodSyncs = s.goodSyncs ∧
    (s.timeStep delta).servoStepped = s.servoStepped := by
  obtain ⟨h1, h2, -, h4, h5⟩ := (timeStep_within s delta).same .time (by simp [firedParts, actParts])
  obtain ⟨g1, g2, -, g4, g5⟩ := (stepShown_within s delta).same .time (by simp)
  exact ⟨h1.trans (g1.trans (steppedTo_tb s delta)), h2.trans g2, h4.trans g4, h5.trans g5⟩

/-- The timebase's registers but TB_STATUS, after a step. -/
theorem timeStep_fget (delta : W32) (f : Fld) (hl : ledger f.r = false) (hr : f.r ∈ [Reg.TB_INC, .TB_OFFSET, .TB_CTRL]) :
    (s.timeStep delta).fget f 0 = s.fget f 0 := by
  have hn : f.r ≠ .TB_STATUS ∧ f.r ∉ alarmRegs ∧ f.r ∉ winRegs ∧ f.r ∉ actRegs := by
    simp only [List.mem_cons, List.not_mem_nil, or_false] at hr
    rcases hr with h | h | h <;> rw [h] <;> decide
  obtain ⟨h1, h2, h3, h4⟩ := hn
  rw [(timeStep_within s delta).fget f 0 hl (by rw [reg_mem_firedCells]; simp [h2, h3, h4]),
    (stepShown_within s delta).fget f 0 hl (by simp [h1]), (steppedTo_within s delta).fget f 0 hl (by simp)]

/-- A flag of TB_STATUS through the firings of a step. -/
theorem timeStep_status (delta : W32) (f : Fld) (hr : f.r = .TB_STATUS) :
    (s.timeStep delta).flag f 0 = (stepShown s delta).flag f 0 :=
  (timeStep_within s delta).flag f 0 (by rw [hr]; rfl) (by rw [reg_mem_firedCells, hr]; simp [alarmRegs, winRegs, actRegs])

theorem timeStep_stepped (delta : W32) : (s.timeStep delta).flag F.TB_STATUS_STEPPED 0 = true := by
  rw [timeStep_status s delta _ rfl, stepShown_stepped]

/-- The flags of TB_STATUS but STEPPED stay through a step. -/
theorem timeStep_flag (delta : W32) (f : Fld) (hr : f.r = .TB_STATUS)
    (hf : F.TB_STATUS_STEPPED.lo + F.TB_STATUS_STEPPED.w ≤ f.lo ∨ f.lo + f.w ≤ F.TB_STATUS_STEPPED.lo) :
    (s.timeStep delta).flag f 0 = s.flag f 0 := by
  rw [timeStep_status s delta f hr, flag, (stepShown_logs s delta).field f 0 (by rw [hr]; rfl), ← flag,
    flag_fset_field _ F.TB_STATUS_STEPPED f 0 1 hr hf]
  exact (steppedTo_within s delta).flag f 0 (by rw [hr]; rfl) (by simp)

/-- Each armed time alarm that is past after the step fires with PAST (R38, R49). -/
theorem timeStep_fires (delta : W32) (k : Nat) (hk : k < 256) (ha : s.flag F.BR_AL_STAT_ARMED k = true)
    (hd : s.flag F.BR_AL_CFG_DOMAIN k = false)
    (hp : sdiff (BitVec.ofNat 32 (s.fget F.BR_AL_TARGET_TARGET k)) (s.timeStep delta).now ≤ 0) :
    Fired (stepShown s delta) (s.timeStep delta) k true := by
  have h := stepShown_all s delta
  have hnow : (s.timeStep delta).now = (stepShown s delta).now := ((timeStep_within s delta).time (by simp [firedParts, actParts])).1
  have hdue : (stepShown s delta).timeDue k = true := by
    rw [timeDue_iff, h.flag _ _ rfl (by simp), h.flag _ _ rfl (by simp), h.fget _ _ rfl (by simp), ← hnow]
    exact ⟨ha, hd, hp⟩
  rw [timeStep_eq]
  exact alarmsFire_fired _ true false false _ (dueSlots_nodup _) k ((mem_dueSlots _ k).2 ⟨hk, hdue⟩)

/-- With no alarm armed, a step is what it shows. -/
theorem timeStep_unarmed (delta : W32) (h : ∀ k, k < 256 → s.flag F.BR_AL_STAT_ARMED k = false) :
    s.timeStep delta = stepShown s delta := by
  have hw := stepShown_all s delta
  have hnil : dueSlots (stepShown s delta) = [] := by
    refine List.filter_eq_nil_iff.2 fun k hk => ?_
    rw [timeDue_unarmed _ k ((hw.flag _ _ rfl (by simp)).trans (h k (List.mem_range.1 hk)))]
    exact Bool.false_ne_true
  rw [timeStep_eq, hnil, alarmsFire_nil]

/-- A step back by an offset. -/
theorem step_neg (x : BitVec 56) (off : W32) :
    x + BitVec.ofInt 56 ((0 - off).toInt * 2 ^ 24) = x - BitVec.ofInt 56 (off.toInt * 2 ^ 24) := by
  have hlo := BitVec.le_toInt off
  have hhi := BitVec.toInt_lt (x := off)
  have hd : (0 - off).toInt = (-off.toInt).bmod (2 ^ 32) := by rw [zero_sub, BitVec.toInt_neg]
  rw [hd, sub_eq_add_neg x, ← BitVec.ofInt_neg]
  congr 1
  apply BitVec.eq_of_toNat_eq
  rw [BitVec.toNat_ofInt, BitVec.toNat_ofInt, Int.bmod_def]
  omega

end Sys2Proof.Proofs
end

section
/-! The servo, loss of lock, and the claim on the timebase (R31-R38, R61). -/

namespace Sys2Proof.Proofs

open Sys2Proof Sys2Proof.Machine Sys2Proof.Machine.State Sys2Proof.Safety

variable (s : State)

/-! ## Loss of lock -/

/-- TB_STATUS as a loss of lock leaves it (R37). -/
def lossShown (sync : Bool) : State :=
  let u := (s.fset F.TB_STATUS_TB_LOCKED 0 0).fset F.TB_STATUS_LOCK_LOST 0 1
  if sync then u.fset F.TB_STATUS_HOLDOVER 0 1 else u

theorem lockLost_eq (sync : Bool) : s.lockLost sync =
    ({ lossShown s sync with goodSyncs := 0, servoStepped := false }.timeFault (if sync then 2 else 1) 0).lockTrace := rfl

theorem lossShown_within (sync : Bool) : Within (regCells [.TB_STATUS] 0) [] s (lossShown s sync) := by
  have h := ((Within.refl (S := regCells [.TB_STATUS] 0) (ps := []) s).thenFset F.TB_STATUS_TB_LOCKED 0 0 (by simp)).thenFset
    F.TB_STATUS_LOCK_LOST 0 1 (by simp)
  exact .ite _ (h.thenFset F.TB_STATUS_HOLDOVER 0 1 (by simp)) h

theorem lossShown_locked (sync : Bool) : (lossShown s sync).flag F.TB_STATUS_TB_LOCKED 0 = false := by
  cases sync <;> simp (disch := decide) only [lossShown, Bool.false_eq_true, if_false, if_true, flag_fset_field, flag_fset_zero]

theorem lossShown_lost (sync : Bool) : (lossShown s sync).flag F.TB_STATUS_LOCK_LOST 0 = true := by
  cases sync <;> simp (disch := decide) only [lossShown, Bool.false_eq_true, if_false, if_true, flag_fset_field, flag_fset_one]

theorem lossShown_holdover : (lossShown s true).flag F.TB_STATUS_HOLDOVER 0 = true := flag_fset_one _ _ 0 rfl (by decide)

/-- What follows the loss of lock in TB_STATUS: the servo's counts restart, and it is recorded. -/
theorem lockLost_logs (sync : Bool) :
    Logs { lossShown s sync with goodSyncs := 0, servoStepped := false } (s.lockLost sync) := by
  rw [lockLost_eq]
  exact (timeFault_logs _ _ _).trans (lockTrace_logs _)

theorem lockLost_within (sync : Bool) : Within (regCells [.TB_STATUS] 0) [.time] s (s.lockLost sync) :=
  (((lossShown_within s sync).mono subset_rfl (List.nil_subset _)).thenParts
    (time_within (lossShown s sync) (lossShown s sync).tb (lossShown s sync).wrap (lossShown s sync).ticks 0 false)
    (List.Subset.refl _)).thenLogs (lockLost_logs s sync)

theorem lockLost_flag (sync : Bool) (f : Fld) (hr : f.r = .TB_STATUS) :
    (s.lockLost sync).flag f 0 = (lossShown s sync).flag f 0 := by
  rw [flag, (lockLost_logs s sync).field f 0 (by rw [hr]; rfl)]
  rfl

theorem lockLost_time (sync : Bool) : (s.lockLost sync).tb = s.tb ∧ (s.lockLost sync).wrap = s.wrap ∧
    (s.lockLost sync).goodSyncs = 0 := by
  obtain ⟨h1, h2, -, h4, -⟩ := (within_of_logs (lockLost_logs s sync)).same .time (by simp)
  obtain ⟨g1, g2, -⟩ := (lossShown_within s sync).same .time (by simp)
  exact ⟨h1.trans g1, h2.trans g2, h4⟩

theorem lockLost_newest (sync : Bool) : Newest (s.lockLost sync) 7 (if sync then 2 else 1) := by
  rw [lockLost_eq]
  exact newest_of_faults (timeFault_newest _ _ 0) (traceEv_faults _ _ _ _ _)

/-! ## The servo's act -/

/-- When the servo steps the time instead of trimming it (R37). -/
def Steps (off : W32) : Prop :=
  s.flag F.TB_STATUS_TB_LOCKED 0 = false ∧ s.flag F.TB_CTRL_STEP_EN 0 = true ∧ 10000 < off.toInt.natAbs ∧ s.servoStepped = false

theorem servoAct_off (off : W32) (h : s.flag F.TB_CTRL_SERVO 0 = false) : s.servoAct off = s := by
  unfold servoAct
  rw [h]
  rfl

theorem servoAct_steps (off : W32) (h : s.flag F.TB_CTRL_SERVO 0 = true) (hs : Steps s off) :
    s.servoAct off = { s with servoStepped := true }.timeStep (0 - off) := by
  obtain ⟨hl, he, ha, hst⟩ := hs
  unfold servoAct
  rw [h, hl, he, hst, decide_eq_true ha]
  rfl

theorem servoAct_trims (off : W32) (h : s.flag F.TB_CTRL_SERVO 0 = true) (hs : ¬ Steps s off) :
    s.servoAct off = s.setInc (Config.servoTrim (BitVec.ofNat 32 (s.fget F.TB_INC_INC 0)) off) := by
  have hc : ¬ (!(s.flag F.TB_STATUS_TB_LOCKED 0) && s.flag F.TB_CTRL_STEP_EN 0 && decide (10000 < off.toInt.natAbs) &&
      !s.servoStepped) = true := by
    simpa [Steps, and_assoc] using hs
  unfold servoAct
  rw [h, Bool.not_true, if_neg Bool.false_ne_true, if_neg hc]

theorem servoStepped_within (b : Bool) : Within ∅ [.time] s { s with servoStepped := b } := time_within s s.tb s.wrap s.ticks s.goodSyncs b

/-- What the servo's act leaves alone, and what its trim and its step do (R36, R37). -/
structure Acted (s t : State) (off : W32) : Prop where
  offset : t.fget F.TB_OFFSET_OFFSET 0 = s.fget F.TB_OFFSET_OFFSET 0
  lock : ∀ f ∈ [F.TB_STATUS_TB_LOCKED, F.TB_STATUS_LOCK_LOST, F.TB_STATUS_HOLDOVER], t.flag f 0 = s.flag f 0
  goodSyncs : t.goodSyncs = s.goodSyncs
  idle : s.flag F.TB_CTRL_SERVO 0 = false → t.tb = s.tb ∧ t.fget F.TB_INC_INC 0 = s.fget F.TB_INC_INC 0
  trims : s.flag F.TB_CTRL_SERVO 0 = true → ¬ Steps s off → t.tb = s.tb ∧
    let x := Config.servoTrim (BitVec.ofNat 32 (s.fget F.TB_INC_INC 0)) off
    t.fget F.TB_INC_INC 0 = max 0x03FF7CEE (min x.toNat 0x04008312) ∧ t.flag F.TB_STATUS_INC_CLAMPED 0 =
      (s.flag F.TB_STATUS_INC_CLAMPED 0 || decide (x.toNat < 0x03FF7CEE ∨ 0x04008312 < x.toNat))
  steps : s.flag F.TB_CTRL_SERVO 0 = true → Steps s off → t.tb = s.tb - BitVec.ofInt 56 (off.toInt * 2 ^ 24) ∧
    t.flag F.TB_STATUS_STEPPED 0 = true ∧ t.servoStepped = true ∧ t.fget F.TB_INC_INC 0 = s.fget F.TB_INC_INC 0
  quiet : (∀ k, k < 256 → s.flag F.BR_AL_STAT_ARMED k = false) → Within (regCells [.TB_STATUS, .TB_INC] 0) [.time] s t

theorem servoAct_idle (off : W32) (h : s.flag F.TB_CTRL_SERVO 0 = false) : Acted s s off where
  offset := rfl
  lock _ _ := rfl
  goodSyncs := rfl
  idle _ := ⟨rfl, rfl⟩
  trims e := absurd (h.symm.trans e) Bool.false_ne_true
  steps e := absurd (h.symm.trans e) Bool.false_ne_true
  quiet _ := .refl s

theorem setInc_acted (off : W32) (h : s.flag F.TB_CTRL_SERVO 0 = true) (hs : ¬ Steps s off) :
    Acted s (s.setInc (Config.servoTrim (BitVec.ofNat 32 (s.fget F.TB_INC_INC 0)) off)) off := by
  generalize hx : Config.servoTrim (BitVec.ofNat 32 (s.fget F.TB_INC_INC 0)) off = x
  have hw := setInc_within s x
  obtain ⟨htb, -, -, hg, -⟩ := hw.same .time (by simp)
  refine ⟨hw.fget _ _ rfl (by simp), fun f hf => ?_, hg, fun e => absurd (h.symm.trans e) (by decide), fun _ _ => ?_,
    fun _ e => absurd e hs, fun _ => hw.mono (regCells_mono (by simp) 0) (List.nil_subset _)⟩
  · fin_cases hf <;> exact setInc_flag s x _ rfl (by decide)
  · rw [hx]
    exact ⟨htb, setInc_inc s x, setInc_clamped s x⟩

theorem timeStep_acted (off : W32) (h : s.flag F.TB_CTRL_SERVO 0 = true) (hs : Steps s off) :
    Acted s ({ s with servoStepped := true }.timeStep (0 - off)) off := by
  have hw := servoStepped_within s true
  have htb : ({ s with servoStepped := true } : State).tb = s.tb := rfl
  have hgood : ({ s with servoStepped := true } : State).goodSyncs = s.goodSyncs := rfl
  have hst : ({ s with servoStepped := true } : State).servoStepped = true := rfl
  generalize ({ s with servoStepped := true } : State) = u at *
  obtain ⟨gtb, -, ggood, gst⟩ := timeStep_time u (0 - off)
  refine ⟨?_, fun f hf => ?_, ggood.trans hgood, fun e => absurd (h.symm.trans e) (by decide), fun _ e => absurd hs e,
    fun _ _ => ⟨?_, timeStep_stepped u _, gst.trans hst, ?_⟩, fun hno => ?_⟩
  · rw [timeStep_fget u _ _ rfl (by simp), hw.fget _ _ rfl (by simp)]
  · have hf' : f.r = .TB_STATUS ∧ f.lo + f.w ≤ F.TB_STATUS_STEPPED.lo := by fin_cases hf <;> decide
    rw [timeStep_flag u _ f hf'.1 (.inr hf'.2), hw.flag f 0 (by rw [hf'.1]; rfl) (by simp)]
  · rw [gtb, htb, step_neg]
  · rw [timeStep_fget u _ _ rfl (by simp), hw.fget _ _ rfl (by simp)]
  · rw [timeStep_unarmed u _ (fun k hk => (hw.flag _ _ rfl (by simp)).trans (hno k hk))]
    exact (hw.mono (Set.empty_subset _) (List.Subset.refl _)).next (stepShown_all u _) (regCells_mono (by simp) 0)
      (List.Subset.refl _)

/-- The servo rests, steps or trims. -/
theorem servoAct_acted (off : W32) : Acted s (s.servoAct off) off := by
  cases h : s.flag F.TB_CTRL_SERVO 0 with
  | false => rw [servoAct_off s off h]; exact servoAct_idle s off h
  | true =>
    by_cases hs : Steps s off
    · rw [servoAct_steps s off h hs]; exact timeStep_acted s off h hs
    · rw [servoAct_trims s off h hs]; exact setInc_acted s off h hs

/-! ## A Sync -/

/-- A Sync's offset shown (R37). -/
def offsetShown (off : W32) : State := s.fset F.TB_OFFSET_OFFSET 0 off.toNat

/-- The good Syncs in a row after one that does not find the timebase locked (R37). -/
def goodAfter (off : W32) : Nat := if off.toInt.natAbs ≤ 100 then s.goodSyncs + 1 else 0

/-- The lock after the eighth good Sync in a row (R37). -/
def lockShown (off : W32) : State :=
  { ((offsetShown s off).fset F.TB_STATUS_TB_LOCKED 0 1).fset F.TB_STATUS_HOLDOVER 0 0 with goodSyncs := 0, servoStepped := false }.lockTrace

/-- The state on which the servo acts after a Sync that does not lose lock. -/
def syncSeen (off : W32) : State :=
  if s.flag F.TB_STATUS_TB_LOCKED 0 then offsetShown s off
  else if 8 ≤ goodAfter s off then lockShown s off else { offsetShown s off with goodSyncs := goodAfter s off }

theorem offsetShown_within (off : W32) : Within (regCells [.TB_OFFSET] 0) [] s (offsetShown s off) :=
  fset_within s F.TB_OFFSET_OFFSET 0 _

theorem offsetShown_locked (off : W32) :
    (offsetShown s off).flag F.TB_STATUS_TB_LOCKED 0 = s.flag F.TB_STATUS_TB_LOCKED 0 :=
  (offsetShown_within s off).flag _ _ rfl (by simp)

theorem servoSync_lost (off : W32) (h : s.flag F.TB_STATUS_TB_LOCKED 0 = true) (ha : 1000 < off.toInt.natAbs) :
    s.servoSync off = (offsetShown s off).lockLost false := by
  show (if (offsetShown s off).flag F.TB_STATUS_TB_LOCKED 0 then if 1000 < off.toInt.natAbs then _ else _ else _) = _
  rw [offsetShown_locked, h, if_pos rfl, if_pos ha]
  rfl

theorem servoSync_seen (off : W32) (h : s.flag F.TB_STATUS_TB_LOCKED 0 = true → off.toInt.natAbs ≤ 1000) :
    s.servoSync off = (syncSeen s off).servoAct off := by
  show (if (offsetShown s off).flag F.TB_STATUS_TB_LOCKED 0 then if 1000 < off.toInt.natAbs then _ else _ else
    if 8 ≤ goodAfter s off then _ else _) = _
  rw [offsetShown_locked, syncSeen]
  cases hl : s.flag F.TB_STATUS_TB_LOCKED 0 with
  | true =>
    have ha := h hl
    rw [if_pos rfl, if_pos rfl, if_neg (by omega)]
    rfl
  | false =>
    rw [if_neg Bool.false_ne_true, if_neg Bool.false_ne_true]
    split <;> rfl

theorem lockShown_logs (off : W32) : Logs { ((offsetShown s off).fset F.TB_STATUS_TB_LOCKED 0 1).fset F.TB_STATUS_HOLDOVER 0 0 with
    goodSyncs := 0, servoStepped := false } (lockShown s off) := lockTrace_logs _

/-- The registers of the timebase that a Sync changes itself. -/
def syncRegs : List Reg := [.TB_OFFSET, .TB_STATUS]

theorem lockShown_within (off : W32) : Within (regCells syncRegs 0) [.time] s (lockShown s off) := by
  have h := ((((offsetShown_within s off).mono (S' := regCells syncRegs 0) (ps' := [.time]) (regCells_mono (by simp [syncRegs]) 0)
    (List.nil_subset _)).thenFset F.TB_STATUS_TB_LOCKED 0 1 (by simp [syncRegs])).thenFset F.TB_STATUS_HOLDOVER 0 0
    (by simp [syncRegs]))
  have hl := lockShown_logs s off
  generalize lockShown s off = t at *
  generalize ((offsetShown s off).fset F.TB_STATUS_TB_LOCKED 0 1).fset F.TB_STATUS_HOLDOVER 0 0 = u at *
  exact (h.thenParts (time_within u u.tb u.wrap u.ticks 0 false) (List.Subset.refl _)).thenLogs hl

theorem syncSeen_within (off : W32) : Within (regCells syncRegs 0) [.time] s (syncSeen s off) := by
  have h := (offsetShown_within s off).mono (S' := regCells syncRegs 0) (ps' := [.time]) (regCells_mono (by simp [syncRegs]) 0)
    (List.nil_subset _)
  refine .ite _ h (.ite _ (lockShown_within s off) ?_)
  generalize offsetShown s off = u at h
  exact h.thenParts (time_within u u.tb u.wrap u.ticks (goodAfter s off) u.servoStepped) (List.Subset.refl _)

/-- What a Sync shows and counts before the servo acts. -/
structure Seen (s t : State) (off : W32) : Prop where
  offset : t.fget F.TB_OFFSET_OFFSET 0 = off.toNat
  tb : t.tb = s.tb
  clamped : t.flag F.TB_STATUS_INC_CLAMPED 0 = s.flag F.TB_STATUS_INC_CLAMPED 0

theorem offsetShown_offset (off : W32) : (offsetShown s off).fget F.TB_OFFSET_OFFSET 0 = off.toNat :=
  (fget_fset_same s F.TB_OFFSET_OFFSET 0 _ (by decide)).trans (Nat.mod_eq_of_lt off.isLt)

theorem offsetShown_seen (off : W32) : Seen s (offsetShown s off) off :=
  ⟨offsetShown_offset s off, rfl, (offsetShown_within s off).flag _ _ rfl (by simp)⟩

theorem lockShown_seen (off : W32) : Seen s (lockShown s off) off := by
  have hl := lockShown_logs s off
  refine ⟨?_, (within_of_logs hl).same .time (by simp) |>.1, ?_⟩
  · rw [hl.field _ 0 rfl]
    show (((offsetShown s off).fset F.TB_STATUS_TB_LOCKED 0 1).fset F.TB_STATUS_HOLDOVER 0 0).fget F.TB_OFFSET_OFFSET 0 = _
    simp (disch := decide) only [fget_fset_ne, offsetShown_offset]
  · rw [flag, hl.field _ 0 rfl]
    show (((offsetShown s off).fset F.TB_STATUS_TB_LOCKED 0 1).fset F.TB_STATUS_HOLDOVER 0 0).flag F.TB_STATUS_INC_CLAMPED 0 = _
    simp (disch := decide) only [flag_fset_field]
    exact (offsetShown_within s off).flag _ _ rfl (by simp)

theorem syncSeen_seen (off : W32) : Seen s (syncSeen s off) off := by
  unfold syncSeen
  split
  · exact offsetShown_seen s off
  · split
    · exact lockShown_seen s off
    · obtain ⟨ho, ht, hc⟩ := offsetShown_seen s off
      exact ⟨ho, ht, hc⟩

theorem syncSeen_locked (off : W32) (h : s.flag F.TB_STATUS_TB_LOCKED 0 = true) : syncSeen s off = offsetShown s off := by
  rw [syncSeen, h, if_pos rfl]

theorem syncSeen_counts (off : W32) (h : s.flag F.TB_STATUS_TB_LOCKED 0 = false) (hg : goodAfter s off < 8) :
    syncSeen s off = { offsetShown s off with goodSyncs := goodAfter s off } := by
  rw [syncSeen, h, if_neg Bool.false_ne_true, if_neg (by omega)]

theorem syncSeen_locks (off : W32) (h : s.flag F.TB_STATUS_TB_LOCKED 0 = false) (hg : 8 ≤ goodAfter s off) :
    (syncSeen s off).flag F.TB_STATUS_TB_LOCKED 0 = true ∧ (syncSeen s off).flag F.TB_STATUS_HOLDOVER 0 = false := by
  have hl := lockShown_logs s off
  rw [syncSeen, h, if_neg Bool.false_ne_true, if_pos hg, flag, flag, hl.field _ 0 rfl, hl.field _ 0 rfl, ← flag, ← flag]
  refine ⟨?_, flag_fset_zero _ F.TB_STATUS_HOLDOVER 0 rfl (by decide)⟩
  show (((offsetShown s off).fset F.TB_STATUS_TB_LOCKED 0 1).fset F.TB_STATUS_HOLDOVER 0 0).flag F.TB_STATUS_TB_LOCKED 0 = true
  simp (disch := decide) only [flag_fset_field, flag_fset_one]

/-- The servo steps after a Sync where it would have before: the lock that a Sync shows is of a small offset. -/
theorem syncSeen_steps (off : W32) : Steps (syncSeen s off) off ↔ Steps s off := by
  have hw := syncSeen_within s off
  have hen : (syncSeen s off).flag F.TB_CTRL_STEP_EN 0 = s.flag F.TB_CTRL_STEP_EN 0 := hw.flag _ _ rfl (by simp [syncRegs])
  unfold Steps
  rw [hen]
  cases hl : s.flag F.TB_STATUS_TB_LOCKED 0 with
  | true => rw [syncSeen_locked s off hl, offsetShown_locked, hl]; simp
  | false =>
    by_cases hg : 8 ≤ goodAfter s off
    · obtain ⟨ht, -⟩ := syncSeen_locks s off hl hg
      have ha : ¬ 10000 < off.toInt.natAbs := fun ha => by
        rw [goodAfter, if_neg (by omega)] at hg
        omega
      simp [ht, ha]
    · have hu := syncSeen_counts s off hl (by omega)
      have hlk : (syncSeen s off).flag F.TB_STATUS_TB_LOCKED 0 = false := by
        rw [hu]
        exact (offsetShown_locked s off).trans hl
      have hst : (syncSeen s off).servoStepped = s.servoStepped := by
        rw [hu]
        rfl
      rw [hlk, hst]

/-- A servo's trim: the counter stays, and TB_INC takes the trim within its limits (R31, R37). -/
def Trimmed (s t : State) (off : W32) : Prop :=
  t.tb = s.tb ∧
    let x := Config.servoTrim (BitVec.ofNat 32 (s.fget F.TB_INC_INC 0)) off
    t.fget F.TB_INC_INC 0 = max 0x03FF7CEE (min x.toNat 0x04008312) ∧
      t.flag F.TB_STATUS_INC_CLAMPED 0 = (s.flag F.TB_STATUS_INC_CLAMPED 0 || decide (x.toNat < 0x03FF7CEE ∨ 0x04008312 < x.toNat))

/-- A Sync that does not lose lock, seen from the state before it. -/
structure Synced (s t : State) (off : W32) : Prop where
  offset : t.fget F.TB_OFFSET_OFFSET 0 = off.toNat
  stays : s.flag F.TB_STATUS_TB_LOCKED 0 = true → t.flag F.TB_STATUS_TB_LOCKED 0 = true
  locks : s.flag F.TB_STATUS_TB_LOCKED 0 = false → 8 ≤ goodAfter s off →
    t.flag F.TB_STATUS_TB_LOCKED 0 = true ∧ t.flag F.TB_STATUS_HOLDOVER 0 = false
  counts : s.flag F.TB_STATUS_TB_LOCKED 0 = false → goodAfter s off < 8 →
    t.flag F.TB_STATUS_TB_LOCKED 0 = false ∧ t.goodSyncs = goodAfter s off
  idle : s.flag F.TB_CTRL_SERVO 0 = false → t.tb = s.tb ∧ t.fget F.TB_INC_INC 0 = s.fget F.TB_INC_INC 0
  trims : s.flag F.TB_CTRL_SERVO 0 = true → ¬ Steps s off → Trimmed s t off
  steps : s.flag F.TB_CTRL_SERVO 0 = true → Steps s off → t.tb = s.tb - BitVec.ofInt 56 (off.toInt * 2 ^ 24) ∧
    t.flag F.TB_STATUS_STEPPED 0 = true ∧ t.servoStepped = true ∧ t.fget F.TB_INC_INC 0 = s.fget F.TB_INC_INC 0
  quiet : (∀ k, k < 256 → s.flag F.BR_AL_STAT_ARMED k = false) → Within (regCells [.TB_OFFSET, .TB_STATUS, .TB_INC] 0) [.time] s t

theorem servoSync_synced (off : W32) (h : s.flag F.TB_STATUS_TB_LOCKED 0 = true → off.toInt.natAbs ≤ 1000) :
    Synced s (s.servoSync off) off := by
  have hw := syncSeen_within s off
  obtain ⟨hoff, htb, hclamp⟩ := syncSeen_seen s off
  have hlocked := syncSeen_locked s off
  have hcounts := syncSeen_counts s off
  have hlocks := syncSeen_locks s off
  have hsteps := syncSeen_steps s off
  rw [servoSync_seen s off h]
  generalize syncSeen s off = u at *
  have hinc : u.fget F.TB_INC_INC 0 = s.fget F.TB_INC_INC 0 := hw.fget _ _ rfl (by simp [syncRegs])
  have hservo : u.flag F.TB_CTRL_SERVO 0 = s.flag F.TB_CTRL_SERVO 0 := hw.flag _ _ rfl (by simp [syncRegs])
  obtain ⟨aoff, alock, agood, aidle, atrims, asteps, aquiet⟩ := servoAct_acted u off
  rw [hservo] at aidle atrims asteps
  rw [hinc, htb] at aidle atrims asteps
  rw [hclamp] at atrims
  rw [hsteps] at atrims asteps
  refine ⟨aoff.trans hoff, fun hl => ?_, fun hl hg => ?_, fun hl hg => ?_, aidle, atrims, asteps, fun hno => ?_⟩
  · rw [alock _ (by simp), hlocked hl, offsetShown_locked, hl]
  · rw [alock _ (by simp), alock _ (by simp)]
    exact hlocks hl hg
  · rw [alock _ (by simp), agood, hcounts hl hg]
    exact ⟨(offsetShown_locked s off).trans hl, rfl⟩
  · have ha := aquiet fun k hk => (hw.flag _ _ rfl (by simp [syncRegs])).trans (hno k hk)
    exact (hw.mono (regCells_mono (by simp [syncRegs]) 0) (List.Subset.refl _)).next ha (regCells_mono (by simp) 0)
      (List.Subset.refl _)

/-- A Sync that loses lock (R37). -/
theorem servoSync_loses (off : W32) (h : s.flag F.TB_STATUS_TB_LOCKED 0 = true) (ha : 1000 < off.toInt.natAbs) :
    let t := s.servoSync off
    t.fget F.TB_OFFSET_OFFSET 0 = off.toNat ∧ t.flag F.TB_STATUS_TB_LOCKED 0 = false ∧ t.flag F.TB_STATUS_LOCK_LOST 0 = true ∧
      t.goodSyncs = 0 ∧ t.tb = s.tb ∧ t.fget F.TB_INC_INC 0 = s.fget F.TB_INC_INC 0 ∧ Newest t 7 1 ∧
      Within (regCells [.TB_OFFSET, .TB_STATUS] 0) [.time] s t := by
  intro t
  have ht : t = (offsetShown s off).lockLost false := servoSync_lost s off h ha
  have hw := offsetShown_within s off
  have hoff := offsetShown_offset s off
  have htb : (offsetShown s off).tb = s.tb := rfl
  rw [ht]
  generalize offsetShown s off = u at *
  have hl := lockLost_within u false
  obtain ⟨gtb, -, ggood⟩ := lockLost_time u false
  refine ⟨?_, ?_, ?_, ggood, gtb.trans htb, ?_, lockLost_newest u false, ?_⟩
  · rw [hl.fget _ _ rfl (by simp), hoff]
  · rw [lockLost_flag u false _ rfl, lossShown_locked]
  · rw [lockLost_flag u false _ rfl, lossShown_lost]
  · rw [hl.fget _ _ rfl (by simp), hw.fget _ _ rfl (by simp)]
  · exact (hw.mono (regCells_mono (by simp) 0) (List.nil_subset _)).next hl (regCells_mono (by simp) 0) (List.Subset.refl _)

/-! ## The claim -/

theorem incWrite_trims (v : W32) (h : s.flag F.TB_CTRL_SERVO 0 = false) : s.incWrite v = s.setInc v := by
  unfold incWrite
  rw [h, if_neg Bool.false_ne_true]

theorem stepWrite_steps (v : W32) (h : s.flag F.TB_CTRL_SERVO 0 = false) : s.stepWrite v = s.timeStep v := by
  unfold stepWrite
  rw [h, if_neg Bool.false_ne_true]

theorem execTbIncWrite_live (v : W32) (h : Live s) : exec (.tbIncWrite v) s = .next (s.incWrite v) := congrArg _ (bar_live s _ h)

theorem execTbStepWrite_live (v : W32) (h : Live s) : exec (.tbStepWrite v) s = .next (s.stepWrite v) := congrArg _ (bar_live s _ h)

/-- A Sync on the servo's port (R37, R331). -/
theorem execPtpSync_taken (p : Fin 4) (off : W32) (hr : s.rxOn (8 + p) = true) (hs : s.power.servo = true)
    (hp : s.fget F.TB_CTRL_PTP_PORT 0 = p) :
    exec (.ptpSync p true off) s = .next (if s.evStopped then s else s.servoSync off) := by
  show Host.Outcome.next (if !(s.rxOn (8 + p)) then s else if s.power.servo && true && s.fget F.TB_CTRL_PTP_PORT 0 == p.val then _
    else _) = _
  rw [hr, hs, hp, beq_self_eq_true, Bool.not_true, if_neg Bool.false_ne_true]
  rfl

theorem execPtpSync_unmatched (p : Fin 4) (two : Bool) (off : W32) (hr : s.rxOn (8 + p) = true)
    (h : ¬ (s.power.servo = true ∧ two = true ∧ s.fget F.TB_CTRL_PTP_PORT 0 = p)) :
    exec (.ptpSync p two off) s = .next (s.unmatched (8 + p)) := by
  show Host.Outcome.next (if !(s.rxOn (8 + p)) then s else if s.power.servo && two && s.fget F.TB_CTRL_PTP_PORT 0 == p.val then _
    else _) = _
  rw [hr, Bool.not_true, if_neg Bool.false_ne_true, if_neg (by simpa [and_assoc] using h)]

/-- A read of the counter latches it for its requester (R31). -/
theorem execTbNowRead_latches (q : Fin 5) : ∃ t, exec (.tbNowRead q) s = .next t ∧ t.fget F.TB_NOW_NS q = s.tb.toNat / 2 ^ 24 ∧
    t.fget F.TB_SNAP_WRAP q = s.wrap.toNat ∧ t.fget F.TB_SNAP_FRAC q = s.tb.toNat % 2 ^ 24 ∧
    Frame (theRegs [.TB_NOW, .TB_SNAP] q) [] s t := by
  have hn := s.now.isLt
  refine ⟨((s.fset F.TB_NOW_NS q s.now.toNat).fset F.TB_SNAP_WRAP q s.wrap.toNat).fset F.TB_SNAP_FRAC q (s.tb.toNat % 2 ^ 24), rfl,
    ?_, ?_, ?_, ?_⟩
  · simp (disch := decide) only [fget_fset_ne, fget_fset_same]
    rw [← now_toNat]
    exact Nat.mod_eq_of_lt hn
  · simp (disch := decide) only [fget_fset_field, fget_fset_same]
    exact Nat.mod_eq_of_lt s.wrap.isLt
  · simp (disch := decide) only [fget_fset_same]
    exact Nat.mod_mod _ _
  · have h := (((Within.refl (S := regCells [.TB_NOW, .TB_SNAP] q) (ps := []) s).thenFset F.TB_NOW_NS q s.now.toNat (by simp)).thenFset
      F.TB_SNAP_WRAP q s.wrap.toNat (by simp)).thenFset F.TB_SNAP_FRAC q (s.tb.toNat % 2 ^ 24) (by simp)
    exact h.frame (fun r k hk => (reg_mem_regCells _ _ _ _).1 hk) (List.Subset.refl _)

/-- Settles O35: reads and writes by their registers, and a Sync by whether it loses lock, then by what the servo does. -/
theorem timebaseAndServo : Obligations.TimebaseAndServo := by
  unfold Obligations.TimebaseAndServo
  refine ⟨fun q s => execTbNowRead_latches s q, ?_, ?_, ?_, ?_, ?_, ?_, ?_⟩
  · intro v s hl hs
    have hmap : ∀ rs q k, Cell.reg q k ∈ regCells rs 0 → theRegs rs 0 q k := fun rs q k h => (reg_mem_regCells rs 0 k q).1 h
    refine ⟨⟨_, (execTbIncWrite_live s v hl).trans (congrArg _ (incWrite_trims s v hs)), setInc_inc s v, setInc_clamped s v,
      setInc_onlyBits s v, (setInc_within s v).frame (hmap _) (List.Subset.refl _)⟩,
      ⟨_, (execTbStepWrite_live s v hl).trans (congrArg _ (stepWrite_steps s v hs)), ?_⟩⟩
    obtain ⟨htb, hwrap, hgood, -⟩ := timeStep_time s v
    refine ⟨htb, hwrap, timeStep_stepped s v, fun k hk ha hd hp => ?_, fun hno => ?_⟩
    · have hf := timeStep_fires s v k hk ha hd hp
      exact ⟨hf.fired, hf.late rfl⟩
    · have hw := stepShown_all s v
      have hticks : (stepShown s v).ticks = s.ticks := ((stepShown_within s v).same .time (by simp)).2.2.1
      rw [timeStep_unarmed s v hno] at hgood ⊢
      exact ⟨stepShown_newest s v, stepShown_onlyBits s v, hticks, hgood, hw.frame (by simp [oneReg]) (List.Subset.refl _)⟩
  · intro v s hl hs
    refine ⟨⟨_, execTbIncWrite_live s v hl, ?_⟩, ⟨_, execTbStepWrite_live s v hl, ?_⟩⟩
    · rw [incWrite, hs, if_pos rfl]
      exact accessFault_recorded s _ _ _ _
    · rw [stepWrite, hs, if_pos rfl]
      exact accessFault_recorded s _ _ _ _
  · intro p off s hr hs hp he
    rw [execPtpSync_taken s p off hr hs hp, he, if_pos rfl]
  · intro p off s hr hs hp he
    have hx := execPtpSync_taken s p off hr hs hp
    rw [he, if_neg Bool.false_ne_true] at hx
    by_cases hloss : s.flag F.TB_STATUS_TB_LOCKED 0 = true ∧ 1000 < off.toInt.natAbs
    · obtain ⟨hl, ha⟩ := hloss
      obtain ⟨hoff, hlk, hll, hg, htb, hinc, hnew, hw⟩ := servoSync_loses s off hl ha
      have hno : ¬ s.flag F.TB_STATUS_TB_LOCKED 0 = false := by rw [hl]; decide
      refine ⟨_, hx, hoff, fun _ _ => ⟨hlk, hll, hg, htb, hinc, hnew⟩, fun _ h => absurd ha (by omega), fun h => absurd h hno,
        fun h => absurd h hno, fun h => absurd h hno, fun _ => ⟨htb, hinc⟩, fun _ h => absurd (h hl) (by omega),
        fun _ h => absurd h hno, fun _ => ?_⟩
      exact (hw.mono (regCells_mono (by simp) 0) (List.Subset.refl _)).frame (fun q k h => (reg_mem_regCells _ 0 k q).1 h)
        (List.Subset.refl _)
    · have hkeep : s.flag F.TB_STATUS_TB_LOCKED 0 = true → off.toInt.natAbs ≤ 1000 := fun hl => by
        by_contra ha
        exact hloss ⟨hl, by omega⟩
      obtain ⟨hoff, hstay, hlocks, hcounts, hidle, htrims, hsteps, hquiet⟩ := servoSync_synced s off hkeep
      have hgood : off.toInt.natAbs ≤ 100 → goodAfter s off = s.goodSyncs + 1 := fun ha => if_pos ha
      have hbad : 100 < off.toInt.natAbs → goodAfter s off = 0 := fun ha => if_neg (by omega)
      refine ⟨_, hx, hoff, fun hl ha => absurd ⟨hl, ha⟩ hloss, fun hl _ => hstay hl, fun hl ha hg => ?_, fun hl ha hg => ?_,
        fun hl ha => ?_, hidle, fun ho _ hno => htrims ho ?_, fun ho hl he' ha hst => hsteps ho ⟨hl, he', ha, hst⟩, fun hno => ?_⟩
      · exact hlocks hl (by rw [hgood ha]; omega)
      · obtain ⟨h1, h2⟩ := hcounts hl (by rw [hgood ha]; omega)
        exact ⟨h1, h2.trans (hgood ha)⟩
      · obtain ⟨h1, h2⟩ := hcounts hl (by rw [hbad ha]; omega)
        exact ⟨h1, h2.trans (hbad ha)⟩
      · rintro ⟨hl, he', ha, hst⟩
        rcases hno hl with h | h | h
        · rw [he'] at h; cases h
        · omega
        · rw [hst] at h; cases h
      · exact (hquiet hno).frame (fun q k h => (reg_mem_regCells _ 0 k q).1 h) (List.Subset.refl _)
  · intro p two off s hr h
    refine ⟨_, execPtpSync_unmatched s p two off hr h, fget_fset_same s F.ING_PORT_CNT_UNMATCHED _ _ (by decide),
      OnlyBits.refl.fset List.mem_cons_self, (unmatched_within s _).frame (by simp [oneReg]) (List.Subset.refl _)⟩
  · intro s h
    have hx : exec .syncTimeout s = .next (s.lockLost true) := by
      show Host.Outcome.next (if s.flag F.TB_STATUS_TB_LOCKED 0 then _ else _) = _
      rw [h, if_pos rfl]
    obtain ⟨htb, hwrap, -⟩ := lockLost_time s true
    refine ⟨_, hx, ?_, ?_, ?_, lockLost_newest s true, htb, hwrap,
      (lockLost_within s true).frame (by simp [oneReg]) (List.Subset.refl _)⟩
    · rw [lockLost_flag s true _ rfl, lossShown_locked]
    · rw [lockLost_flag s true _ rfl, lossShown_holdover]
    · rw [lockLost_flag s true _ rfl, lossShown_lost]
  · intro s h
    show Host.Outcome.next (if s.flag F.TB_STATUS_TB_LOCKED 0 then _ else _) = _
    rw [h, if_neg Bool.false_ne_true]

end Sys2Proof.Proofs
end

section
/-! Bearing channels: a phase update and what it may change, and the pass of one channel in a loop (R39-R43, R48). -/

namespace Sys2Proof.Proofs

open Sys2Proof Sys2Proof.Machine Sys2Proof.Machine.State Sys2Proof.Safety

variable (s : State)

/-! ## What a channel's passes change -/

/-- The registers of a channel that an event of its source changes (R39, R42). -/
def chanRegs : List Reg := [.BR_CH_PHASE, .BR_CH_STAMP, .BR_CH_STAT]

/-- The registers that a channel's state stands in, and those its updates read. -/
def chanKept : List Reg := [.BR_CH_PHASE, .BR_CH_STAMP, .BR_CH_STAT, .BR_CH_QUANT, .BR_CH_CFG, .BR_CH_OFFSET]

/-- What an event changes of channel `c` itself. -/
def chanCells (c : Nat) : Set Cell := regCells chanRegs c ∪ {.bearing c}

/-- The registers of a list and the phase sources, of every channel of a list. -/
def allCells (rs : List Reg) (cs : List Nat) : Set Cell := {x | ∃ c ∈ cs, x ∈ regCells rs c ∪ {.bearing c}}

@[simp] theorem reg_mem_allCells (rs : List Reg) (cs : List Nat) (q : Reg) (k : Nat) :
    Cell.reg q k ∈ allCells rs cs ↔ q ∈ rs ∧ k ∈ cs := by
  simp only [allCells, Set.mem_ofPred_eq, Set.mem_union, reg_mem_regCells, Set.mem_singleton_iff, reduceCtorEq, or_false]
  constructor
  · rintro ⟨c, hc, hq, rfl⟩
    exact ⟨hq, hc⟩
  · rintro ⟨hq, hk⟩
    exact ⟨k, hk, hq, rfl⟩

@[simp] theorem bearing_mem_allCells (rs : List Reg) (cs : List Nat) (c : Nat) : Cell.bearing c ∈ allCells rs cs ↔ c ∈ cs := by
  simp [allCells]

@[simp] theorem port_mem_allCells (rs : List Reg) (cs : List Nat) (p : Nat) : Cell.port p ∉ allCells rs cs := by simp [allCells]

@[simp] theorem win_mem_allCells (rs : List Reg) (cs : List Nat) (w : Nat) : Cell.win w ∉ allCells rs cs := by simp [allCells]

theorem subset_allCells (rs : List Reg) (cs : List Nat) (c : Nat) (hc : c ∈ cs) : regCells rs c ∪ {.bearing c} ⊆ allCells rs cs :=
  fun _ hx => ⟨c, hc, hx⟩

/-- What an event on channel `c` may change, its alarms and windows and a PLL's quantum included. -/
def loudCells (c : Nat) : Set Cell := chanCells c ∪ (firedCells (List.range 256) ∪ regCells [.BR_CH_QUANT] c)

/-- What events on other channels than `c` may change. -/
def otherCells (c : Nat) : Set Cell := {x | ∃ b, b ≠ c ∧ x ∈ loudCells b}

theorem chanCells_subset_loud (c : Nat) : chanCells c ⊆ loudCells c := Set.subset_union_left

theorem windowCells_subset_loud (c : Nat) : windowCells ⊆ loudCells c := fun _ h => .inr (.inl (.inl (.inr h)))

theorem reg_mem_loudCells (q : Reg) (k c : Nat) : Cell.reg q k ∈ loudCells c ↔
    (q ∈ .BR_CH_QUANT :: chanRegs ∧ k = c) ∨ (q ∈ alarmRegs ∧ k ∈ List.range 256) ∨ q ∈ winRegs ∨ q ∈ actRegs := by
  simp only [loudCells, chanCells, Set.mem_union, reg_mem_regCells, reg_mem_firedCells, Set.mem_singleton_iff, reduceCtorEq,
    or_false, List.mem_cons, List.not_mem_nil]
  tauto

/-- A register out of the reach of alarms, windows and actions is out of the reach of the other channels. -/
theorem reg_mem_otherCells (q : Reg) (k c : Nat) (hq : q ∉ alarmRegs ∧ q ∉ winRegs ∧ q ∉ actRegs) :
    Cell.reg q k ∈ otherCells c ↔ q ∈ .BR_CH_QUANT :: chanRegs ∧ k ≠ c := by
  obtain ⟨h1, h2, h3⟩ := hq
  constructor
  · rintro ⟨b, hb, h⟩
    rw [reg_mem_loudCells] at h
    rcases h with ⟨h, rfl⟩ | ⟨h, -⟩ | h | h
    · exact ⟨h, hb⟩
    · exact absurd h h1
    · exact absurd h h2
    · exact absurd h h3
  · rintro ⟨h, hk⟩
    exact ⟨k, hk, (reg_mem_loudCells q k k).2 (.inl ⟨h, rfl⟩)⟩

@[simp] theorem bearing_mem_loudCells (d c : Nat) : Cell.bearing d ∈ loudCells c ↔ d = c := by simp [loudCells, chanCells]

@[simp] theorem port_mem_loudCells (p c : Nat) : Cell.port p ∉ loudCells c := by simp [loudCells, chanCells]

theorem bearing_mem_otherCells (c : Nat) : Cell.bearing c ∉ otherCells c := by
  rintro ⟨b, hb, h⟩
  exact hb ((bearing_mem_loudCells c b).1 h).symm

/-- The registers of channel `c`, and every channel's configuration, are out of the other channels' reach. -/
theorem chanReg_not_mem_otherCells (q : Reg) (c : Nat) (hq : q ∈ chanKept) : Cell.reg q c ∉ otherCells c := by
  have hout : ∀ q ∈ chanKept, q ∉ alarmRegs ∧ q ∉ winRegs ∧ q ∉ actRegs := by decide
  rw [reg_mem_otherCells q c c (hout q hq)]
  exact fun h => h.2 rfl

/-- The pass of channel `c` in a loop over distinct channels. -/
theorem chan_pass (f : Nat → State → State) (hf : ∀ b u, Within (loudCells b) firedParts u (f b u)) (cs : List Nat)
    (hn : cs.Nodup) (c : Nat) (hc : c ∈ cs) :
    ∃ u, Within (otherCells c) firedParts s u ∧ Within (otherCells c) firedParts (f c u) (forEach cs f s) := by
  obtain ⟨u, hu, ht⟩ := forEach_pass (s := s) (S := loudCells) f cs hn c hc (fun b _ u _ => hf b u)
  have hsub : {x | ∃ b ∈ cs, b ≠ c ∧ x ∈ loudCells b} ⊆ otherCells c := by
    rintro x ⟨b, -, hb, hx⟩
    exact ⟨b, hb, hx⟩
  exact ⟨u, hu.mono hsub (List.Subset.refl _), ht.mono hsub (List.Subset.refl _)⟩

theorem channels_nodup (src i : Nat) : (s.channels src i).Nodup := List.nodup_range.filter _

/-- A loop that may rely on the bound so far keeps what its passes keep. -/
theorem forEach_keeps {α β : Type} {U : Set Cell} {ps : List Part} (g : State → β) (f : α → State → State) (l : List α)
    (hf : ∀ a ∈ l, ∀ u, Within U ps s u → Within U ps u (f a u) ∧ g (f a u) = g u) : g (forEach l f s) = g s := by
  induction l using List.reverseRecOn with
  | nil => rfl
  | append_singleton l a ih =>
    have hl : ∀ b ∈ l, ∀ u, Within U ps s u → Within U ps u (f b u) ∧ g (f b u) = g u :=
      fun b hb => hf b (List.mem_append_left _ hb)
    rw [forEach_append]
    exact (hf a (by simp) _ (forEach_within f l fun b hb u hu => (hl b hb u hu).1)).2.trans (ih hl)

/-! ## Phase alarms -/

theorem phaseAlarms_congr {s t : State} (c : Nat) (h : ∀ k, t.rget .BR_AL_STAT k = s.rget .BR_AL_STAT k ∧
    t.rget .BR_AL_CFG k = s.rget .BR_AL_CFG k) : t.phaseAlarms c = s.phaseAlarms c := by
  unfold phaseAlarms
  congr 1
  funext k
  obtain ⟨h1, h2⟩ := h k
  unfold flag fget
  rw [h1, h2]

/-- A bound that names no alarm slot keeps what is armed on a channel. -/
theorem Within.phaseAlarms {S : Set Cell} {ps : List Part} {s t : State} (h : Within S ps s t) (c : Nat)
    (hS : ∀ k, Cell.reg .BR_AL_STAT k ∉ S ∧ Cell.reg .BR_AL_CFG k ∉ S) : t.phaseAlarms c = s.phaseAlarms c :=
  phaseAlarms_congr c fun k => ⟨h.reg _ _ rfl (hS k).1, h.reg _ _ rfl (hS k).2⟩

theorem phaseAlarms_range (c : Nat) : s.phaseAlarms c ⊆ List.range 256 := List.filter_subset_self _

theorem holdMove_within (m : Int) (k : Nat) : Within ∅ [.phase] s (holdMove m k s) := by
  unfold holdMove
  exact .ite _ (.refl s) (holds_within s _)

theorem phaseFire_within (c : Nat) (old new : W32) (reverse resync : Bool) :
    Within (firedCells (List.range 256)) firedParts s (s.phaseFire c old new reverse resync) := by
  have h : Within (firedCells (List.range 256)) firedParts s
      (forEach (s.phaseAlarms c) (holdMove (phaseStep old new reverse)) s) :=
    forEach_within _ _ fun k _ u _ => (holdMove_within u _ k).mono (Set.empty_subset _) (by simp [firedParts])
  unfold phaseFire
  refine .ite _ h (h.next (alarmsFire_within _ _ _ _ _) (firedCells_mono ?_) (List.Subset.refl _))
  exact List.Subset.trans (List.filter_subset_self _) (phaseAlarms_range s c)

/-- With no phase alarm armed on the channel nothing fires. -/
theorem phaseFire_quiet (c : Nat) (old new : W32) (reverse resync : Bool) (h : s.phaseAlarms c = []) :
    s.phaseFire c old new reverse resync = s := by
  unfold phaseFire
  rw [h]
  exact ite_self s

/-! ## A phase update -/

/-- A channel's phase and stamp shown (R39, R42). -/
def phaseShown (c : Nat) (src : W32) (reverse : Bool) : State :=
  let u := s.setBearing c { s.bearing c with src := src, missed := 0, seen := true }
  ((u.fset F.BR_CH_PHASE_PHASE c (src + BitVec.ofNat 32 (s.fget F.BR_CH_OFFSET_OFFSET c)).toNat).fset F.BR_CH_STAMP_NS c
    s.now.toNat).fset F.BR_CH_STAT_REVERSE_NOW c (if s.flag F.BR_CH_STAT_VALID c && reverse then 1 else 0)

/-- A resync noted and traced (R43). -/
def resyncShown (c : Nat) (resync : Bool) : State := if resync then (s.fset F.BR_CH_STAT_RESYNC c 1).bearingTrace c else s

/-- The first phase makes a channel valid; a mains channel's PLL locks on its own (R39, R42). -/
def firstShown (c : Nat) : State :=
  let u := s.fset F.BR_CH_STAT_VALID c 1
  if u.fget F.BR_CH_CFG_SRC c = 3 then u else u.fset F.BR_CH_STAT_PLL_LOCKED c 1

/-- The holds of some slots released (R49). -/
def unheld (ks : List Nat) : State := forEach ks (fun k s => { s with holds := tabSet {} s.holds k {} }) s

theorem phaseUpdate_eq (c : Nat) (src : W32) (reverse resync : Bool) : s.phaseUpdate c src reverse resync =
    if s.flag F.BR_CH_STAT_VALID c then
      (resyncShown (phaseShown s c src reverse) c resync).phaseFire c (BitVec.ofNat 32 (s.fget F.BR_CH_PHASE_PHASE c))
        (src + BitVec.ofNat 32 (s.fget F.BR_CH_OFFSET_OFFSET c)) reverse resync
    else (unheld (firstShown (phaseShown s c src reverse) c) ((firstShown (phaseShown s c src reverse) c).phaseAlarms c)).bearingTrace c :=
  rfl

theorem phaseShown_within (c : Nat) (src : W32) (reverse : Bool) : Within (chanCells c) [.phase] s (phaseShown s c src reverse) := by
  have h : Within (chanCells c) [.phase] s (s.setBearing c { s.bearing c with src := src, missed := 0, seen := true }) :=
    (setBearing_within s c _).mono Set.subset_union_right (List.Subset.refl _)
  exact ((h.thenFset F.BR_CH_PHASE_PHASE c _ (.inl (by simp [chanRegs]))).thenFset F.BR_CH_STAMP_NS c _
    (.inl (by simp [chanRegs]))).thenFset F.BR_CH_STAT_REVERSE_NOW c _ (.inl (by simp [chanRegs]))

theorem bearingTrace_logs (c : Nat) : Logs s (s.bearingTrace c) := traceEv_logs _ _ _ _ _

theorem resyncShown_within (c : Nat) (resync : Bool) : Within (chanCells c) [] s (resyncShown s c resync) :=
  .ite _ (((Within.refl s).thenFset F.BR_CH_STAT_RESYNC c 1 (.inl (by simp [chanRegs]))).thenLogs (bearingTrace_logs _ c)) (.refl s)

theorem firstShown_within (c : Nat) : Within (chanCells c) [] s (firstShown s c) := by
  have h : Within (chanCells c) [] s (s.fset F.BR_CH_STAT_VALID c 1) :=
    (Within.refl s).thenFset F.BR_CH_STAT_VALID c 1 (.inl (by simp [chanRegs]))
  exact .ite _ h (h.thenFset F.BR_CH_STAT_PLL_LOCKED c 1 (.inl (by simp [chanRegs])))

theorem unheld_within (ks : List Nat) : Within ∅ [.phase] s (unheld s ks) :=
  forEach_within _ _ fun _ _ u _ => holds_within u _

/-- Channel `c` shows the source phase `x`, taken now, beside its validity (R39, R42). -/
structure Shown (s t : State) (c : Nat) (x : W32) : Prop where
  phase : t.fget F.BR_CH_PHASE_PHASE c = (x.toNat + s.fget F.BR_CH_OFFSET_OFFSET c) % 2 ^ 32
  stamp : t.fget F.BR_CH_STAMP_NS c = s.now.toNat
  bearing : t.bearing c = { s.bearing c with src := x, missed := 0, seen := true }
  overspeed : t.flag F.BR_CH_STAT_OVERSPEED c = s.flag F.BR_CH_STAT_OVERSPEED c

/-- A flag of the channel's status below OVERSPEED is no part of what is shown. -/
theorem Shown.fset {s t : State} {c : Nat} {x : W32} (h : Shown s t c x) (f : Fld) (v : Nat) (hr : f.r = .BR_CH_STAT)
    (hf : f.lo + f.w ≤ 6) : Shown s (t.fset f c v) c x := by
  have hw : Within (regCells [.BR_CH_STAT] c) [] t (t.fset f c v) := by
    have h := fset_within t f c v (by rw [hr]; rfl)
    rwa [hr] at h
  exact ⟨(hw.fget _ _ rfl (by simp)).trans h.phase, (hw.fget _ _ rfl (by simp)).trans h.stamp,
    (hw.bearing c (by simp)).trans h.bearing, (flag_fset_field t f F.BR_CH_STAT_OVERSPEED c v hr.symm (.inl hf)).trans h.overspeed⟩

/-- What is shown is seen through what leaves the channel alone. -/
theorem Shown.congr {s s' t t' : State} {S : Set Cell} {ps : List Part} {c : Nat} {x : W32} (h : Shown s' t' c x)
    (hs : Within S ps s s') (ht : Within S ps t' t) (hp : Part.time ∉ ps) (hr : ∀ q ∈ chanKept, Cell.reg q c ∉ S)
    (hb : Cell.bearing c ∉ S) : Shown s t c x := by
  have hstat : Cell.reg .BR_CH_STAT c ∉ S := hr _ (by simp [chanKept])
  refine ⟨?_, ?_, ?_, ?_⟩
  · rw [ht.fget _ _ rfl (hr .BR_CH_PHASE (by simp [chanKept])), h.phase, hs.fget _ _ rfl (hr .BR_CH_OFFSET (by simp [chanKept]))]
  · rw [ht.fget _ _ rfl (hr .BR_CH_STAMP (by simp [chanKept])), h.stamp, (hs.time hp).1]
  · rw [ht.bearing c hb, h.bearing, hs.bearing c hb]
  · rw [ht.flag _ _ rfl hstat, h.overspeed, hs.flag _ _ rfl hstat]

section shown_values
variable (c : Nat) (src : W32) (reverse : Bool)

theorem phaseShown_phase : (phaseShown s c src reverse).fget F.BR_CH_PHASE_PHASE c =
    (src.toNat + s.fget F.BR_CH_OFFSET_OFFSET c) % 2 ^ 32 := by
  have ho := fget_lt s F.BR_CH_OFFSET_OFFSET c
  simp (disch := decide) only [phaseShown, fget_fset_ne, fget_fset_same]
  rw [BitVec.toNat_add, BitVec.toNat_ofNat, Nat.mod_eq_of_lt (a := s.fget F.BR_CH_OFFSET_OFFSET c) (by exact ho)]
  exact Nat.mod_mod _ _

theorem phaseShown_flag (f : Fld) (hr : f.r = .BR_CH_STAT) (hf : 3 ≤ f.lo ∨ f.lo + f.w ≤ 2) :
    (phaseShown s c src reverse).flag f c = s.flag f c := by
  have h1 : F.BR_CH_STAT_REVERSE_NOW.lo + F.BR_CH_STAT_REVERSE_NOW.w ≤ f.lo ∨ f.lo + f.w ≤ F.BR_CH_STAT_REVERSE_NOW.lo := hf
  unfold phaseShown
  rw [flag_fset_field _ F.BR_CH_STAT_REVERSE_NOW f c _ hr h1, flag_fset_ne _ F.BR_CH_STAMP_NS f c c _ (by rw [hr]; decide),
    flag_fset_ne _ F.BR_CH_PHASE_PHASE f c c _ (by rw [hr]; decide), setBearing_flag]

theorem phaseShown_shown : Shown s (phaseShown s c src reverse) c src where
  phase := phaseShown_phase s c src reverse
  stamp := by
    simp (disch := decide) only [phaseShown, fget_fset_ne, fget_fset_same]
    exact Nat.mod_eq_of_lt s.now.isLt
  bearing := bearing_setBearing s c _
  overspeed := phaseShown_flag s c src reverse F.BR_CH_STAT_OVERSPEED rfl (by decide)

end shown_values

/-- What a phase update of channel `c` to source phase `x` leaves of the channel (R39, R41-R43). -/
structure Updated (s t : State) (c : Nat) (x : W32) (resync : Bool) : Prop where
  shown : Shown s t c x
  valid : t.flag F.BR_CH_STAT_VALID c = true
  resynced : resync = true → s.flag F.BR_CH_STAT_VALID c = true → t.flag F.BR_CH_STAT_RESYNC c = true

/-- An update is seen through what leaves the channel alone. -/
theorem Updated.congr {s s' t t' : State} {S : Set Cell} {ps : List Part} {c : Nat} {x : W32} {resync : Bool}
    (h : Updated s' t' c x resync) (hs : Within S ps s s') (ht : Within S ps t' t) (hp : Part.time ∉ ps)
    (hr : ∀ q ∈ chanKept, Cell.reg q c ∉ S) (hb : Cell.bearing c ∉ S) : Updated s t c x resync := by
  have hstat : Cell.reg .BR_CH_STAT c ∉ S := hr _ (by simp [chanKept])
  refine ⟨h.shown.congr hs ht hp hr hb, (ht.flag _ _ rfl hstat).trans h.valid, fun e hv => ?_⟩
  rw [ht.flag _ _ rfl hstat, h.resynced e ((hs.flag _ _ rfl hstat).trans hv)]

/-- A valid channel's update, before its alarms fire. -/
theorem resyncShown_updated {u : State} {c : Nat} {src : W32} (h : Shown s u c src) (hv : u.flag F.BR_CH_STAT_VALID c = true)
    (resync : Bool) : Updated s (resyncShown u c resync) c src resync := by
  cases resync with
  | false => exact ⟨h, hv, fun e => absurd e (by decide)⟩
  | true =>
    have hset := h.fset F.BR_CH_STAT_RESYNC 1 rfl (by decide)
    have hvalid := (flag_fset_field u F.BR_CH_STAT_RESYNC F.BR_CH_STAT_VALID c 1 rfl (by decide)).trans hv
    have hres := flag_fset_one u F.BR_CH_STAT_RESYNC c rfl (by decide)
    have ht : resyncShown u c true = (u.fset F.BR_CH_STAT_RESYNC c 1).bearingTrace c := if_pos rfl
    rw [ht]
    generalize u.fset F.BR_CH_STAT_RESYNC c 1 = v at *
    have hw := within_of_logs (bearingTrace_logs v c)
    exact ⟨hset.congr (.refl s) hw (by simp) (by simp) (by simp), (hw.flag _ _ rfl (by simp)).trans hvalid,
      fun _ _ => (hw.flag _ _ rfl (by simp)).trans hres⟩

/-- A channel's first phase, before its holds are released. -/
theorem firstShown_updated {u : State} {c : Nat} {src : W32} (h : Shown s u c src) (resync : Bool)
    (hv : s.flag F.BR_CH_STAT_VALID c = false) : Updated s (firstShown u c) c src resync := by
  have hset := h.fset F.BR_CH_STAT_VALID 1 rfl (by decide)
  have hvalid := flag_fset_one u F.BR_CH_STAT_VALID c rfl (by decide)
  have hno : ∀ t : State, resync = true → s.flag F.BR_CH_STAT_VALID c = true → t.flag F.BR_CH_STAT_RESYNC c = true :=
    fun _ _ e => absurd (hv.symm.trans e) (by decide)
  have hpll := hset.fset F.BR_CH_STAT_PLL_LOCKED 1 rfl (by decide)
  have hkeep := flag_fset_field (u.fset F.BR_CH_STAT_VALID c 1) F.BR_CH_STAT_PLL_LOCKED F.BR_CH_STAT_VALID c 1 rfl (by decide)
  unfold firstShown
  dsimp only
  split
  · exact ⟨hset, hvalid, hno _⟩
  · exact ⟨hpll, hkeep.trans hvalid, hno _⟩

theorem firedCells_keeps_chan (c : Nat) : (∀ q ∈ chanKept, Cell.reg q c ∉ firedCells (List.range 256)) ∧
    Cell.bearing c ∉ firedCells (List.range 256) := by
  refine ⟨fun q hq => ?_, by simp⟩
  rw [reg_mem_firedCells]
  fin_cases hq <;> simp [alarmRegs, winRegs, actRegs]

theorem phaseUpdate_updated (c : Nat) (src : W32) (reverse resync : Bool) :
    Updated s (s.phaseUpdate c src reverse resync) c src resync := by
  obtain ⟨hr, hb⟩ := firedCells_keeps_chan c
  have hp := phaseShown_shown s c src reverse
  have hv' := phaseShown_flag s c src reverse F.BR_CH_STAT_VALID rfl (by decide)
  rw [phaseUpdate_eq]
  generalize phaseShown s c src reverse = u at *
  cases hv : s.flag F.BR_CH_STAT_VALID c with
  | true =>
    rw [if_pos rfl]
    have hu := resyncShown_updated s hp (hv'.trans hv) resync
    generalize resyncShown u c resync = v at *
    exact hu.congr (.refl s) (phaseFire_within v c _ _ reverse resync) (by simp [firedParts, actParts]) hr hb
  | false =>
    rw [if_neg Bool.false_ne_true]
    have hu := firstShown_updated s hp resync hv
    generalize firstShown u c = v at *
    exact hu.congr (S := ∅) (ps := [.phase]) (.refl s) ((unheld_within v _).thenLogs (bearingTrace_logs _ c)) (by simp)
      (by simp) (by simp)

theorem phaseUpdate_within (c : Nat) (src : W32) (reverse resync : Bool) :
    Within (loudCells c) firedParts s (s.phaseUpdate c src reverse resync) := by
  have h := (phaseShown_within s c src reverse).mono (chanCells_subset_loud c) (show [Part.phase] ⊆ firedParts by simp [firedParts])
  rw [phaseUpdate_eq]
  generalize phaseShown s c src reverse = u at *
  refine .ite _ ?_ ?_
  · exact (h.next (resyncShown_within u c resync) (chanCells_subset_loud c) (List.nil_subset _)).next (phaseFire_within _ _ _ _ _ _)
      (fun _ hx => .inr (.inl hx)) (List.Subset.refl _)
  · exact ((h.next (firstShown_within u c) (chanCells_subset_loud c) (List.nil_subset _)).thenParts (unheld_within _ _)
      (by simp [firedParts])).thenLogs (bearingTrace_logs _ c)

/-! ## Events that no alarm is armed on -/

/-- Only channels' cells and holds change from `s` to `t`: no window and no part of the hub. -/
structure Still (S : Set Cell) (s t : State) : Prop where
  within : Within S [.phase] s t
  windows : t.windows = s.windows

namespace Still

variable {S S' : Set Cell} {s t u : State}

theorem refl (s : State) : Still S s s := ⟨.refl s, rfl⟩

theorem trans (h : Still S s t) (g : Still S t u) : Still S s u := ⟨h.within.trans g.within, g.windows.trans h.windows⟩

theorem mono (h : Still S s t) (hS : S ⊆ S') : Still S' s t := ⟨h.within.mono hS (List.Subset.refl _), h.windows⟩

theorem ite (c : Prop) [Decidable c] (ht : Still S s t) (hu : Still S s u) : Still S s (if c then t else u) := by
  split <;> assumption

theorem thenFset (h : Still S s t) (f : Fld) (k v : Nat) (hS : .reg f.r k ∈ S) (hr : logReg f.r = false := by rfl) :
    Still S s (t.fset f k v) := ⟨h.within.thenFset f k v hS hr, h.windows⟩

theorem thenLogs (h : Still S s t) (g : Logs t u) : Still S s u :=
  ⟨h.within.thenLogs g, (by rw [g.shape] : u.windows = t.windows).trans h.windows⟩

theorem thenBearing (h : Still S s t) (c : Nat) (v : Bearing) (hS : .bearing c ∈ S) : Still S s (t.setBearing c v) :=
  ⟨h.within.next (setBearing_within t c v) (by rintro _ rfl; exact hS) (List.Subset.refl _), h.windows⟩

/-- A loop of passes that are still, each where the slots armed are those of the start. -/
theorem forEach {α : Type} (f : α → State → State) (l : List α) (hf : ∀ a ∈ l, ∀ u, Within S [.phase] s u → Still S u (f a u)) :
    Still S s (Machine.forEach l f s) :=
  ⟨forEach_within f l fun a ha u hu => (hf a ha u hu).within,
    forEach_keeps s State.windows f l fun a ha u hu => ⟨(hf a ha u hu).within, (hf a ha u hu).windows⟩⟩

end Still

theorem phaseUpdate_still (c : Nat) (src : W32) (reverse resync : Bool) (hq : s.phaseAlarms c = []) :
    Still (chanCells c) s (s.phaseUpdate c src reverse resync) := by
  have al : ∀ {S : Set Cell} {ps : List Part} {u v : State}, Within S ps u v → S ⊆ chanCells c → v.phaseAlarms c = u.phaseAlarms c :=
    fun h hS => h.phaseAlarms c fun k => ⟨fun e => by simpa [chanCells, chanRegs] using hS e,
      fun e => by simpa [chanCells, chanRegs] using hS e⟩
  have h0 : Still (chanCells c) s (phaseShown s c src reverse) := ⟨phaseShown_within s c src reverse, rfl⟩
  rw [phaseUpdate_eq]
  generalize phaseShown s c src reverse = u at *
  have hu : u.phaseAlarms c = [] := (al h0.within subset_rfl).trans hq
  refine .ite _ ?_ ?_
  · rw [phaseFire_quiet _ c _ _ _ _ ((al (resyncShown_within u c resync) subset_rfl).trans hu)]
    exact .ite _ ((h0.thenFset F.BR_CH_STAT_RESYNC c 1 (.inl (by simp [chanRegs]))).thenLogs (bearingTrace_logs _ c)) h0
  · rw [(al (firstShown_within u c) subset_rfl).trans hu]
    have h1 := h0.thenFset F.BR_CH_STAT_VALID c 1 (.inl (by simp [chanRegs]))
    exact (Still.ite _ h1 (h1.thenFset F.BR_CH_STAT_PLL_LOCKED c 1 (.inl (by simp [chanRegs])))).thenLogs (bearingTrace_logs _ c)

end Sys2Proof.Proofs
end

section
/-! Channels that lose their source or are configured anew (R41, R44, R60). -/

namespace Sys2Proof.Proofs

open Sys2Proof Sys2Proof.Machine Sys2Proof.Machine.State Sys2Proof.Safety

variable (s : State)

/-- The registers of every slot that its firings and misses change. -/
def slotCells : Set Cell := {x | ∃ k ∈ List.range 256, x ∈ regCells alarmRegs k}

@[simp] theorem reg_mem_slotCells (q : Reg) (k : Nat) : Cell.reg q k ∈ slotCells ↔ q ∈ alarmRegs ∧ k < 256 := by
  simp [slotCells, and_comm]

@[simp] theorem bearing_mem_slotCells (c : Nat) : Cell.bearing c ∉ slotCells := by simp [slotCells]

@[simp] theorem win_mem_slotCells (w : Nat) : Cell.win w ∉ slotCells := by simp [slotCells]

@[simp] theorem port_mem_slotCells (p : Nat) : Cell.port p ∉ slotCells := by simp [slotCells]

/-! ## A channel falls invalid -/

/-- VALID and PLL_LOCKED cleared. -/
def invalidShown (c : Nat) : State := (s.fset F.BR_CH_STAT_VALID c 0).fset F.BR_CH_STAT_PLL_LOCKED c 0

theorem invalidShown_within (c : Nat) : Within (regCells [.BR_CH_STAT] c) [] s (invalidShown s c) :=
  (fset_within s F.BR_CH_STAT_VALID c 0).thenFset F.BR_CH_STAT_PLL_LOCKED c 0 (by simp)

theorem invalidShown_flag (c : Nat) (f : Fld) (hr : f.r = .BR_CH_STAT) (hf : 2 ≤ f.lo) :
    (invalidShown s c).flag f c = s.flag f c := by
  have h0 : F.BR_CH_STAT_VALID.lo + F.BR_CH_STAT_VALID.w ≤ f.lo := by show 0 + 1 ≤ f.lo; omega
  rw [invalidShown, flag_fset_field _ F.BR_CH_STAT_PLL_LOCKED f c 0 hr (.inl hf), flag_fset_field s F.BR_CH_STAT_VALID f c 0 hr (.inl h0)]

theorem invalidShown_valid (c : Nat) : (invalidShown s c).flag F.BR_CH_STAT_VALID c = false := by
  rw [invalidShown, flag_fset_field _ F.BR_CH_STAT_PLL_LOCKED F.BR_CH_STAT_VALID c 0 rfl (by decide),
    flag_fset_zero s F.BR_CH_STAT_VALID c rfl (by decide)]

/-- A phase alarm notes that its channel is not valid (R48). -/
def missAlarm (k : Nat) (s : State) : State :=
  (s.fset F.BR_AL_STAT_MISSED_INVALID k 1).count 0x133 (some k) (some (s.fget F.BR_AL_CFG_PART k)) 1

theorem missAlarm_within (k : Nat) : Within (regCells [.BR_AL_STAT] k) [] s (missAlarm k s) :=
  fset_count_within s F.BR_AL_STAT_MISSED_INVALID k 1 0x133 (some (s.fget F.BR_AL_CFG_PART k))

theorem channelInvalid_eq (c : Nat) : s.channelInvalid c = if s.flag F.BR_CH_STAT_VALID c then
    forEach ((invalidShown s c).phaseAlarms c) missAlarm (invalidShown s c) else s := by
  show (if !(s.flag F.BR_CH_STAT_VALID c) then s else _) = _
  cases s.flag F.BR_CH_STAT_VALID c <;> rfl

theorem missAlarms_within (c : Nat) : Within slotCells [] s (forEach (s.phaseAlarms c) missAlarm s) :=
  forEach_within _ _ fun k hk u _ => (missAlarm_within u k).mono
    (fun _ hx => ⟨k, phaseAlarms_range s c hk, regCells_mono (by simp [alarmRegs]) k hx⟩) (List.Subset.refl _)

/-- What a channel that falls invalid changes: its status, and its alarms'. -/
theorem channelInvalid_within (c : Nat) :
    Within (regCells [.BR_CH_STAT] c ∪ slotCells) [] s (s.channelInvalid c) := by
  rw [channelInvalid_eq]
  exact .ite _ (((invalidShown_within s c).mono Set.subset_union_left (List.Subset.refl _)).next (missAlarms_within _ c)
    Set.subset_union_right (List.Subset.refl _)) (.refl s)

theorem channelInvalid_valid (c : Nat) : (s.channelInvalid c).flag F.BR_CH_STAT_VALID c = false := by
  rw [channelInvalid_eq]
  split
  · rw [(missAlarms_within _ c).flag _ _ rfl (by simp [alarmRegs]), invalidShown_valid]
  next h => exact Bool.eq_false_iff.2 h

theorem channelInvalid_flag (c : Nat) (f : Fld) (hr : f.r = .BR_CH_STAT) (hf : 2 ≤ f.lo) :
    (s.channelInvalid c).flag f c = s.flag f c := by
  rw [channelInvalid_eq]
  split
  · rw [(missAlarms_within _ c).flag f c (by rw [hr]; rfl) (by simp [hr, alarmRegs]), invalidShown_flag s c f hr hf]
  · rfl

/-- A channel that is not valid, or that no alarm is armed on, changes alone. -/
theorem channelInvalid_quiet (c : Nat) (h : s.flag F.BR_CH_STAT_VALID c = false ∨ s.phaseAlarms c = []) :
    Within (regCells [.BR_CH_STAT] c) [] s (s.channelInvalid c) := by
  rw [channelInvalid_eq]
  split
  next hv =>
    have hq : (invalidShown s c).phaseAlarms c = [] :=
      ((invalidShown_within s c).phaseAlarms c (by simp)).trans (h.resolve_left (by rw [hv]; decide))
    rw [hq]
    exact invalidShown_within s c
  · exact .refl s

/-! ## A lost source -/

/-- A channel after its windows have closed: the loss shown, its misses forgotten, and the fault recorded (R44, R262). -/
def lossRecorded (cause c : Nat) : State :=
  let u := s.fset F.BR_CH_STAT_SRC_LOST c 1
  let v := u.setBearing c { u.bearing c with missed := 0 }
  v.fault { cls := 8, unit := c, cause := cause, info0 := BitVec.ofNat 64 (v.fget F.BR_CH_PHASE_PHASE c) }

theorem sourceLost_eq (cause c : Nat) :
    sourceLost cause c s = (lossRecorded ((s.channelInvalid c).windowsLost c) cause c).bearingTrace c := rfl

theorem lossRecorded_within (cause c : Nat) :
    Within (regCells [.BR_CH_STAT] c ∪ {.bearing c}) [.phase] s (lossRecorded s cause c) := by
  have h : Within (regCells [.BR_CH_STAT] c ∪ {.bearing c}) [.phase] s (s.fset F.BR_CH_STAT_SRC_LOST c 1) :=
    (fset_within s F.BR_CH_STAT_SRC_LOST c 1).mono Set.subset_union_left (List.nil_subset _)
  exact (h.next (setBearing_within _ c _) Set.subset_union_right (List.Subset.refl _)).thenLogs (fault_logs _ _)

/-- What the loss of a channel's source leaves of the channel (R44). -/
structure SourceGone (s t : State) (c : Nat) : Prop where
  lost : Lost t c
  bearing : t.bearing c = { s.bearing c with missed := 0 }

theorem lossRecorded_gone (cause c : Nat) (hv : s.flag F.BR_CH_STAT_VALID c = false) : SourceGone s (lossRecorded s cause c) c := by
  have h1 := (flag_fset_field s F.BR_CH_STAT_SRC_LOST F.BR_CH_STAT_VALID c 1 rfl (by decide)).trans hv
  have h2 := flag_fset_one s F.BR_CH_STAT_SRC_LOST c rfl (by decide)
  have hb := (fset_within s F.BR_CH_STAT_SRC_LOST c 1).bearing c (by simp)
  unfold lossRecorded
  dsimp only
  generalize s.fset F.BR_CH_STAT_SRC_LOST c 1 = u at *
  have h3 := bearing_setBearing u c { u.bearing c with missed := 0 }
  have h4 : ∀ f : Fld, (u.setBearing c { u.bearing c with missed := 0 }).flag f c = u.flag f c := fun _ => rfl
  generalize u.setBearing c { u.bearing c with missed := 0 } = v at *
  have hw := within_of_logs (fault_logs v
    { cls := 8, unit := c, cause := cause, info0 := BitVec.ofNat 64 (v.fget F.BR_CH_PHASE_PHASE c) })
  exact ⟨⟨(hw.flag _ _ rfl (by simp)).trans ((h4 _).trans h1), (hw.flag _ _ rfl (by simp)).trans ((h4 _).trans h2)⟩,
    by rw [hw.bearing c (by simp), h3, hb]⟩

theorem lossRecorded_newest (cause c : Nat) : Newest (lossRecorded s cause c) 8 cause := fault_newest _ _

/-- What a lost source may change: its channel, its alarms' status and its windows, as they are configured in `s` (R44, R48, R60). -/
def lostCells (c : Nat) : Set Cell :=
  regCells [.BR_CH_STAT] c ∪ {.bearing c} ∪ slotCells ∪ channelWindows s c

theorem channelWindows_congr {s t : State} (c : Nat) (h : ∀ w, t.rget .BR_WIN_CFG w = s.rget .BR_WIN_CFG w) :
    channelWindows t c = channelWindows s c := by
  have hf : ∀ f : Fld, f.r = .BR_WIN_CFG → ∀ w, t.fget f w = s.fget f w := fun f hf w => fget_congr s (by rw [hf]; exact h w)
  unfold channelWindows
  ext x
  simp only [hf F.BR_WIN_CFG_CHANNEL rfl, hf F.BR_WIN_CFG_GATE_DESC rfl]

theorem sourceLost_within (cause c : Nat) : Within (lostCells s c) [.phase, .ingress] s (sourceLost cause c s) := by
  have h1 := channelInvalid_within s c
  have hcw : channelWindows (s.channelInvalid c) c = channelWindows s c :=
    channelWindows_congr c fun w => h1.reg _ _ rfl (by simp [alarmRegs])
  have h2 := windowsLost_within (s.channelInvalid c) c
  rw [hcw] at h2
  have h12 : Within (lostCells s c) [.phase, .ingress] s ((s.channelInvalid c).windowsLost c) :=
    (h1.mono (by
      rintro x (hx | hx)
      · exact .inl (.inl (.inl hx))
      · exact .inl (.inr hx)) (List.nil_subset _)).next h2 Set.subset_union_right (List.Subset.refl _)
  rw [sourceLost_eq]
  exact (h12.next (lossRecorded_within _ cause c) (fun x hx => .inl (.inl hx)) (by simp)).thenLogs (bearingTrace_logs _ c)

theorem channelWindows_keeps (c : Nat) {q : Reg} {k : Nat} (hq : q ∉ winRegs) (hd : q ≠ .ING_D_CNT1) :
    Cell.reg q k ∉ channelWindows s c := by
  rintro ⟨w, -, hx⟩
  rw [reg_mem_doneCells] at hx
  exact hx.elim (fun h => hq h.1) fun h => hd h.1

theorem sourceLost_gone (cause c : Nat) : SourceGone s (sourceLost cause c s) c := by
  have h1 := channelInvalid_within s c
  have h2 := windowsLost_within (s.channelInvalid c) c
  have hv : ((s.channelInvalid c).windowsLost c).flag F.BR_CH_STAT_VALID c = false := by
    rw [h2.flag _ _ rfl (channelWindows_keeps _ c (by decide) (by decide)), channelInvalid_valid]
  have hb : ((s.channelInvalid c).windowsLost c).bearing c = s.bearing c := by
    have hno : Cell.bearing c ∉ channelWindows (s.channelInvalid c) c := by
      rintro ⟨w, -, hx⟩
      simp [doneCells] at hx
    rw [h2.bearing c hno, h1.bearing c (by simp)]
  rw [sourceLost_eq]
  generalize (s.channelInvalid c).windowsLost c = u at *
  obtain ⟨⟨hval, hlost⟩, hbear⟩ := lossRecorded_gone u cause c hv
  have hw := within_of_logs (bearingTrace_logs (lossRecorded u cause c) c)
  exact ⟨⟨(hw.flag _ _ rfl (by simp)).trans hval, (hw.flag _ _ rfl (by simp)).trans hlost⟩,
    by rw [hw.bearing c (by simp), hbear, hb]⟩

theorem sourceLost_newest (cause c : Nat) : Newest (sourceLost cause c s) 8 cause := by
  rw [sourceLost_eq]
  exact newest_of_faults (lossRecorded_newest _ cause c) (traceEv_faults _ _ _ _ _)

/-- A lost source that no alarm and no window is armed on. -/
theorem sourceLost_still (cause c : Nat) (hq : s.phaseAlarms c = []) (hw : ∀ w, w < 32 → s.flag F.BR_WIN_STAT_ARMED w = true →
    s.flag F.BR_WIN_CFG_DOMAIN w = true → s.fget F.BR_WIN_CFG_CHANNEL w ≠ c) :
    Within (regCells [.BR_CH_STAT] c ∪ {.bearing c}) [.phase] s (sourceLost cause c s) := by
  have h1 := channelInvalid_quiet s c (.inr hq)
  have hno : (s.channelInvalid c).windowsLost c = s.channelInvalid c := by
    refine windowsLost_none _ c fun w hlt ha hd => ?_
    rw [h1.flag _ _ rfl (by simp)] at ha hd
    rw [h1.fget _ _ rfl (by simp)]
    exact hw w hlt ha hd
  rw [sourceLost_eq, hno]
  exact ((h1.mono Set.subset_union_left (List.nil_subset _)).trans (lossRecorded_within _ cause c)).thenLogs (bearingTrace_logs _ c)

/-- An armed phase window of the channel that lacks a stamp closes (R60). -/
theorem sourceLost_closes (cause c w : Nat) (hw : w < 32) (ha : s.flag F.BR_WIN_STAT_ARMED w = true)
    (hd : s.flag F.BR_WIN_CFG_DOMAIN w = true) (hc : s.fget F.BR_WIN_CFG_CHANNEL w = c)
    (hv : (s.win w).start = none ∨ (s.win w).stop = none) : ClosedAs s (sourceLost cause c s) w := by
  set S : Set Cell := regCells [.BR_CH_STAT] c ∪ {.bearing c} ∪ slotCells with hS
  have h1 : Within S [.phase] s (s.channelInvalid c) := (channelInvalid_within s c).mono (by
    rintro x (hx | hx)
    · exact .inl (.inl hx)
    · exact .inr hx) (List.nil_subset _)
  have hclose := windowsLost_closes (s.channelInvalid c) c w hw ((h1.flag _ _ rfl (by simp [hS, alarmRegs])).trans ha)
    ((h1.flag _ _ rfl (by simp [hS, alarmRegs])).trans hd) ((h1.fget _ _ rfl (by simp [hS, alarmRegs])).trans hc)
    (by rwa [h1.win w (by simp [hS])])
  rw [sourceLost_eq]
  generalize (s.channelInvalid c).windowsLost c = u at *
  exact hclose.congr h1 (((lossRecorded_within u cause c).mono Set.subset_union_left (List.Subset.refl _)).thenLogs
    (bearingTrace_logs _ c)) (by simp [hS, alarmRegs])

theorem lostCells_subset_loud (c : Nat) : lostCells s c ⊆ loudCells c := by
  rintro x (((hx | hx) | hx) | hx)
  · exact .inl (.inl (regCells_mono (by simp [chanRegs]) c hx))
  · exact .inl (.inr hx)
  · exact .inr (.inl (.inl (.inl hx)))
  · exact windowCells_subset_loud c (channelWindows_subset s c hx)

theorem sourceLost_loud (cause c : Nat) : Within (loudCells c) firedParts s (sourceLost cause c s) :=
  (sourceLost_within s cause c).mono (lostCells_subset_loud s c) (by simp [firedParts, actParts])

end Sys2Proof.Proofs
end

section
/-! Channels configured, quadrature edges and index pulses, and loops that lose sources (R39-R44, R60). -/

namespace Sys2Proof.Proofs

open Sys2Proof Sys2Proof.Machine Sys2Proof.Machine.State Sys2Proof.Safety

variable (s : State)

/-! ## Loops where nothing is armed -/

theorem unwatched_congr {S : Set Cell} {ps : List Part} {s u : State} {cs : List Nat} (h : Unwatched s cs) (hu : Within S ps s u)
    (hr : ∀ w, Cell.reg .BR_WIN_STAT w ∉ S ∧ Cell.reg .BR_WIN_CFG w ∉ S) : Unwatched u cs := by
  intro w hlt ha hd
  obtain ⟨hstat, hcfg⟩ := hr w
  rw [hu.flag _ _ rfl hstat] at ha
  rw [hu.flag _ _ rfl hcfg] at hd
  rw [hu.fget _ _ rfl hcfg]
  exact h w hlt ha hd

/-- Where no alarm and no window is armed on the channels, they change alone. -/
theorem lone_forEach (rs : List Reg) (hrs : .BR_AL_STAT ∉ rs ∧ .BR_AL_CFG ∉ rs ∧ .BR_WIN_STAT ∉ rs ∧ .BR_WIN_CFG ∉ rs)
    (f : Nat → State → State) (hf : ∀ c u, u.phaseAlarms c = [] → (∀ w, w < 32 → u.flag F.BR_WIN_STAT_ARMED w = true →
      u.flag F.BR_WIN_CFG_DOMAIN w = true → u.fget F.BR_WIN_CFG_CHANNEL w ≠ c) →
      Within (regCells rs c ∪ {.bearing c}) [.phase] u (f c u)) {cs : List Nat} (hq : Quiet s cs) (hw : Unwatched s cs) :
    Within (allCells rs cs) [.phase] s (forEach cs f s) := by
  obtain ⟨h1, h2, h3, h4⟩ := hrs
  refine forEach_within f cs fun c hc u hu => (hf c u ?_ ?_).mono (subset_allCells rs cs c hc) (List.Subset.refl _)
  · exact (hu.phaseAlarms c fun k => by simp [h1, h2]).trans (hq c hc)
  · have hun := unwatched_congr hw hu fun w => by simp [h3, h4]
    exact fun w hlt ha hd e => hun w hlt ha hd (e ▸ hc)

/-! ## Loops that lose sources -/

/-- A pass that loses the source of its channel, whatever else it does to the channel itself (R44). -/
structure LossPass (f : Nat → State → State) : Prop where
  within : ∀ c u, Within (lostCells u c) [.phase, .ingress] u (f c u)
  lost : ∀ c u, Lost (f c u) c
  closes : ∀ c u w, w < 32 → u.flag F.BR_WIN_STAT_ARMED w = true → u.flag F.BR_WIN_CFG_DOMAIN w = true →
    u.fget F.BR_WIN_CFG_CHANNEL w = c → ((u.win w).start = none ∨ (u.win w).stop = none) → ClosedAs u (f c u) w
  still : ∀ c u, u.phaseAlarms c = [] → (∀ w, w < 32 → u.flag F.BR_WIN_STAT_ARMED w = true →
    u.flag F.BR_WIN_CFG_DOMAIN w = true → u.fget F.BR_WIN_CFG_CHANNEL w ≠ c) →
    Within (regCells [.BR_CH_STAT] c ∪ {.bearing c}) [.phase] u (f c u)

theorem sourceLost_lossPass (cause : Nat) : LossPass (sourceLost cause) where
  within c u := sourceLost_within u cause c
  lost c u := (sourceLost_gone u cause c).lost
  closes c u := sourceLost_closes u cause c
  still c u := sourceLost_still u cause c

/-- The cells that the losses of other channels than `c` change leave `c` and the windows on it alone. -/
theorem lostCells_other (b c : Nat) (hb : b ≠ c) :
    (∀ q, q ∉ alarmRegs → q ∉ winRegs → q ≠ .ING_D_CNT1 → Cell.reg q c ∉ lostCells s b) ∧
    Cell.bearing c ∉ lostCells s b ∧ ∀ w, s.fget F.BR_WIN_CFG_CHANNEL w = c →
      (∀ q ∈ .BR_WIN_CFG :: winRegs, Cell.reg q w ∉ lostCells s b) ∧ Cell.win w ∉ lostCells s b := by
  refine ⟨fun q ha hw hd => ?_, ?_, fun w hc => ⟨fun q hq => ?_, ?_⟩⟩
  · rintro (((hx | hx) | hx) | hx)
    · exact hb ((reg_mem_regCells _ b c q).1 hx).2.symm
    · simp at hx
    · exact ha ((reg_mem_slotCells q c).1 hx).1
    · exact channelWindows_keeps s b hw hd hx
  · rintro (((hx | hx) | hx) | ⟨w, -, hx⟩)
    · simp at hx
    · exact hb (by simpa using hx.symm)
    · simp at hx
    · simp [doneCells] at hx
  · have hq' : q ∉ [Reg.BR_CH_STAT] ∧ q ∉ alarmRegs ∧ q ≠ .ING_D_CNT1 := by revert q; decide
    rintro (((hx | hx) | hx) | ⟨x, hx, hm⟩)
    · exact hq'.1 ((reg_mem_regCells _ b w q).1 hx).1
    · simp at hx
    · exact hq'.2.1 ((reg_mem_slotCells q w).1 hx).1
    · rw [reg_mem_doneCells] at hm
      rcases hm with ⟨-, rfl⟩ | ⟨h, -⟩
      · exact hb (hx.symm.trans hc)
      · exact hq'.2.2 h
  · rintro (((hx | hx) | hx) | ⟨x, hx, hm⟩)
    · simp at hx
    · simp at hx
    · simp at hx
    · rw [win_mem_doneCells] at hm
      exact hb (hx.symm.trans (hm ▸ hc))

theorem lostCells_congr {s t : State} (c : Nat) (h : ∀ w, t.rget .BR_WIN_CFG w = s.rget .BR_WIN_CFG w) :
    lostCells t c = lostCells s c := by
  rw [lostCells, lostCells, channelWindows_congr c h]

theorem winCfg_not_mem_lostCells (b w : Nat) : Cell.reg .BR_WIN_CFG w ∉ lostCells s b := by
  rintro (((hx | hx) | hx) | hx)
  · simp at hx
  · simp at hx
  · simp [alarmRegs] at hx
  · exact channelWindows_keeps s b (by decide) (by decide) hx

namespace LossPass

variable {f : Nat → State → State} (h : LossPass f) {cs : List Nat} (hn : cs.Nodup)

include h

/-- Where no alarm and no window is armed on the channels, they change alone. -/
theorem all_still (hq : Quiet s cs) (hw : Unwatched s cs) : Within (allCells [.BR_CH_STAT] cs) [.phase] s (forEach cs f s) :=
  lone_forEach s [.BR_CH_STAT] (by decide) f h.still hq hw

include hn

/-- The pass of channel `c` in a loop that loses sources. -/
theorem pass (c : Nat) (hc : c ∈ cs) : ∃ u R, R = {x | ∃ b ∈ cs, b ≠ c ∧ x ∈ lostCells s b} ∧
    Within R [.phase, .ingress] s u ∧ Within R [.phase, .ingress] (f c u) (forEach cs f s) := by
  obtain ⟨u, hu, ht⟩ := forEach_pass (s := s) (S := lostCells s) (ps := [.phase, .ingress]) f cs hn c hc (fun b _ u hu => by
    have hcfg : ∀ w, u.rget .BR_WIN_CFG w = s.rget .BR_WIN_CFG w := fun w => hu.reg _ w rfl (by
      rintro ⟨b, -, hx⟩
      exact winCfg_not_mem_lostCells s b w hx)
    rw [← lostCells_congr b hcfg]
    exact h.within b u)
  exact ⟨u, _, rfl, hu, ht⟩

theorem all_lost : ∀ c ∈ cs, Lost (forEach cs f s) c := by
  intro c hc
  obtain ⟨u, R, rfl, -, ht⟩ := h.pass s hn c hc
  have hno : Cell.reg .BR_CH_STAT c ∉ {x | ∃ b ∈ cs, b ≠ c ∧ x ∈ lostCells s b} := by
    rintro ⟨b, -, hb, hx⟩
    exact (lostCells_other s b c hb).1 _ (by decide) (by decide) (by decide) hx
  obtain ⟨hv, hl⟩ := h.lost c u
  exact ⟨(ht.flag _ _ rfl hno).trans hv, (ht.flag _ _ rfl hno).trans hl⟩

theorem all_closed : WindowsClosed s (forEach cs f s) cs := by
  intro w hw ha hd hc hv
  obtain ⟨u, R, rfl, hu, ht⟩ := h.pass s hn _ hc
  set R := {x | ∃ b ∈ cs, b ≠ s.fget F.BR_WIN_CFG_CHANNEL w ∧ x ∈ lostCells s b} with hR
  have hreg : ∀ q ∈ .BR_WIN_CFG :: winRegs, Cell.reg q w ∉ R := by
    rintro q hq ⟨b, -, hb, hx⟩
    exact ((lostCells_other s b _ hb).2.2 w rfl).1 q hq hx
  have hwin : Cell.win w ∉ R := by
    rintro ⟨b, -, hb, hx⟩
    exact ((lostCells_other s b _ hb).2.2 w rfl).2 hx
  have hstat := hreg .BR_WIN_STAT (by simp [winRegs])
  have hcfg := hreg .BR_WIN_CFG (by simp)
  have hclose := h.closes _ u w hw ((hu.flag _ _ rfl hstat).trans ha) ((hu.flag _ _ rfl hcfg).trans hd) (hu.fget _ _ rfl hcfg)
    (by rwa [hu.win w hwin])
  exact hclose.congr hu ht fun q hq => hreg q (by fin_cases hq <;> simp [winRegs])

end LossPass

/-! ## Configuration -/

theorem channelBad_iff (src cyc : Nat) : channelBad src cyc = true ↔
    4 < src ∨ ((src = 1 ∨ src = 4) ∧ cyc = 0) ∨ (src = 2 ∧ (cyc % 64 = 0 ∨ 32 < cyc % 64)) ∨ (src = 3 ∧ cyc % 4 = 3) := by
  have h6 : natBits cyc 0 6 = cyc % 64 := by simp [natBits]
  have h2 : natBits cyc 0 2 = cyc % 4 := by simp [natBits]
  simp only [channelBad, h6, h2, Bool.or_eq_true, Bool.and_eq_true, decide_eq_true_eq, beq_iff_eq, or_assoc]

/-- A channel's configuration taken, its quantum not yet known (R41, R42). -/
def cfgTaken (c : Nat) (v : W32) : State :=
  (((s.channelInvalid c).setBearing c {}).rset .BR_CH_CFG c (v.setWidth 64)).fset F.BR_CH_QUANT_QUANT c 0

theorem channelCfg_eq (c : Nat) (v : W32) : s.channelCfg c v =
    if channelBad (v.toNat / 2 ^ 28 % 8) (v.toNat % 2 ^ 23) then
      ((cfgTaken s c v).fset F.BR_CH_CFG_EN c 0).fset F.BR_CH_STAT_CFG_ERR c 1
    else if !(v.getLsbD 31) then cfgTaken s c v
    else (cfgTaken s c v).fset F.BR_CH_QUANT_QUANT c (quantOf (v.toNat / 2 ^ 28 % 8) (v.toNat % 2 ^ 23)) := by
  have h1 : getBits (v.setWidth 64 : W64) 28 3 = v.toNat / 2 ^ 28 % 8 := getBits_image v 28 3
  have h2 : getBits (v.setWidth 64 : W64) 0 23 = v.toNat % 2 ^ 23 := by
    rw [getBits_image, pow_zero, Nat.div_one]
  rw [← h1, ← h2]
  rfl

/-- The registers that a configuration changes of its channel. -/
def cfgRegs : List Reg := [.BR_CH_CFG, .BR_CH_QUANT, .BR_CH_STAT]

theorem cfgTaken_within (c : Nat) (v : W32) (h : s.flag F.BR_CH_STAT_VALID c = false ∨ s.phaseAlarms c = []) :
    Within (regCells cfgRegs c ∪ {.bearing c}) [.phase] s (cfgTaken s c v) := by
  have h1 : Within (regCells cfgRegs c ∪ {.bearing c}) [.phase] s (s.channelInvalid c) :=
    (channelInvalid_quiet s c h).mono (fun x hx => .inl (regCells_mono (by simp [cfgRegs]) c hx)) (List.nil_subset _)
  have h2 := h1.next (setBearing_within _ c {}) Set.subset_union_right (List.Subset.refl _)
  have h3 := h2.next (rset_within _ .BR_CH_CFG c (v.setWidth 64)) (fun x hx => .inl (regCells_mono (by simp [cfgRegs]) c hx))
    (List.nil_subset _)
  exact h3.thenFset F.BR_CH_QUANT_QUANT c 0 (.inl (by simp [cfgRegs]))

theorem cfgTaken_cfg (c : Nat) (v : W32) : (cfgTaken s c v).rget .BR_CH_CFG c = v.setWidth 64 := by
  unfold cfgTaken fset
  rw [rget_rset_other _ _ _ _ _ _ (.inl (by decide)), rget_rset_same]

theorem cfgTaken_bearing (c : Nat) (v : W32) : (cfgTaken s c v).bearing c = {} := bearing_setBearing _ c {}

theorem cfgTaken_flag (c : Nat) (v : W32) (f : Fld) (hr : f.r = .BR_CH_STAT) :
    (cfgTaken s c v).flag f c = (s.channelInvalid c).flag f c := by
  have h1 := flag_fset_ne (((s.channelInvalid c).setBearing c {}).rset .BR_CH_CFG c (v.setWidth 64)) F.BR_CH_QUANT_QUANT f c c 0
    (by rw [hr]; decide)
  have h2 := (rset_within ((s.channelInvalid c).setBearing c {}) .BR_CH_CFG c (v.setWidth 64)).flag f c (by rw [hr]; rfl)
    (by simp [hr])
  exact h1.trans h2

/-- ENABLE apart, the register holds the image (R41). -/
theorem cfgMask (u : State) (c : Nat) (v : W32) (h : u.rget .BR_CH_CFG c = v.setWidth 64) :
    ((u.fset F.BR_CH_CFG_EN c 0).rget .BR_CH_CFG c &&& 0x7FFFFFFF#64) = (v.setWidth 64 &&& 0x7FFFFFFF#64) := by
  have hb : OnlyBits u (u.fset F.BR_CH_CFG_EN c 0) .BR_CH_CFG c [F.BR_CH_CFG_EN] := OnlyBits.refl.fset List.mem_cons_self
  refine BitVec.eq_of_getLsbD_eq fun i hi => ?_
  rw [BitVec.getLsbD_and, BitVec.getLsbD_and]
  by_cases h31 : i = 31
  · subst h31
    have hz : (0x7FFFFFFF#64).getLsbD 31 = false := by decide
    rw [hz, Bool.and_false, Bool.and_false]
  · rw [hb i (by simp; omega), h]

/-! ## Edges -/

/-- A channel is at a phase when an update has just given it that phase. -/
theorem Updated.atPhase {s t : State} {c y : Nat} {r : Bool} (h : Updated s t c (BitVec.ofNat 32 y) r) : AtPhase s t c y := by
  refine ⟨?_, h.shown.stamp, h.valid⟩
  rw [h.shown.phase, BitVec.toNat_ofNat, Nat.mod_add_mod]

theorem atPhase_congr {s s' t t' : State} {S : Set Cell} {ps : List Part} {c y : Nat} (h : AtPhase s' t' c y)
    (hs : Within S ps s s') (ht : Within S ps t' t) (hp : Part.time ∉ ps) (hr : ∀ q ∈ chanKept, Cell.reg q c ∉ S) :
    AtPhase s t c y := by
  obtain ⟨h1, h2, h3⟩ := h
  refine ⟨?_, ?_, (ht.flag _ _ rfl (hr .BR_CH_STAT (by simp [chanKept]))).trans h3⟩
  · rw [ht.fget _ _ rfl (hr .BR_CH_PHASE (by simp [chanKept])), h1, hs.fget _ _ rfl (hr .BR_CH_OFFSET (by simp [chanKept]))]
  · rw [ht.fget _ _ rfl (hr .BR_CH_STAMP (by simp [chanKept])), h2, (hs.time hp).1]

/-- The count of a channel after an edge (R40). -/
def edgeCount (c : Nat) (fwd : Bool) : Nat :=
  let n := s.fget F.BR_CH_CFG_CYCLE c
  if fwd != s.flag F.BR_CH_CFG_REV c then ((s.bearing c).count + 1) % n else ((s.bearing c).count + n - 1) % n

/-- The count of channel `c` moved, and with it its source phase (R39, R40). -/
def edgeCounted (c : Nat) (fwd : Bool) : State :=
  s.setBearing c { s.bearing c with count := edgeCount s c fwd, src := s.countPhase c (edgeCount s c fwd) }

/-- OVERSPEED noted (R41). -/
def speedShown (c : Nat) (fast : Bool) : State := if fast then s.fset F.BR_CH_STAT_OVERSPEED c 1 else s

theorem channelEdge_eq (fwd fast counted : Bool) (c : Nat) : channelEdge fwd fast counted c s =
    let u := speedShown s c fast
    if !counted then u
    else if (edgeCounted u c fwd).flag F.BR_CH_STAT_VALID c then
      (edgeCounted u c fwd).phaseUpdate c ((edgeCounted u c fwd).countPhase c (edgeCount u c fwd))
        (!(fwd != u.flag F.BR_CH_CFG_REV c)) false
    else edgeCounted u c fwd := rfl

theorem speedShown_within (c : Nat) (fast : Bool) : Within (regCells [.BR_CH_STAT] c) [] s (speedShown s c fast) :=
  .ite _ (fset_within s F.BR_CH_STAT_OVERSPEED c 1) (.refl s)

theorem edgeCounted_within (c : Nat) (fwd : Bool) : Within {.bearing c} [.phase] s (edgeCounted s c fwd) :=
  setBearing_within s c _

theorem channelEdge_loud (fwd fast counted : Bool) (c : Nat) :
    Within (loudCells c) firedParts s (channelEdge fwd fast counted c s) := by
  have h1 : Within (loudCells c) firedParts s (speedShown s c fast) := (speedShown_within s c fast).mono
    (fun x hx => .inl (.inl (regCells_mono (by simp [chanRegs]) c hx))) (List.nil_subset _)
  have h2 := h1.next (edgeCounted_within (speedShown s c fast) c fwd) (fun x hx => .inl (.inr hx)) (by simp [firedParts])
  rw [channelEdge_eq]
  exact .ite _ h1 (.ite _ (h2.trans (phaseUpdate_within _ c _ _ false)) h2)

theorem channelEdge_still (fwd fast counted : Bool) (c : Nat) (hq : s.phaseAlarms c = []) :
    Still (chanCells c) s (channelEdge fwd fast counted c s) := by
  have h1 : Still (chanCells c) s (speedShown s c fast) :=
    .ite _ ((Still.refl s).thenFset F.BR_CH_STAT_OVERSPEED c 1 (.inl (by simp [chanRegs]))) (.refl s)
  have h2 : Still (chanCells c) s (edgeCounted (speedShown s c fast) c fwd) := h1.thenBearing c _ (.inr rfl)
  have hq2 : (edgeCounted (speedShown s c fast) c fwd).phaseAlarms c = [] :=
    (h2.within.phaseAlarms c (by simp [chanCells, chanRegs])).trans hq
  rw [channelEdge_eq]
  exact .ite _ h1 (.ite _ (h2.trans (phaseUpdate_still _ c _ _ false hq2)) h2)

/-- What an edge leaves of a channel (R40, R41). -/
structure Edged (s t : State) (c : Nat) (fwd fast counted : Bool) : Prop where
  count : counted = true → (t.bearing c).count = edgeCount s c fwd
  phase : counted = true → s.flag F.BR_CH_STAT_VALID c = true →
    AtPhase s t c (edgeCount s c fwd * 2 ^ 32 / s.fget F.BR_CH_CFG_CYCLE c)
  kept : counted = false → (t.bearing c).count = (s.bearing c).count ∧ t.rget .BR_CH_PHASE c = s.rget .BR_CH_PHASE c
  overspeed : fast = true → t.flag F.BR_CH_STAT_OVERSPEED c = true

theorem edgeCount_congr {s t : State} (c : Nat) (fwd : Bool) (h : t.rget .BR_CH_CFG c = s.rget .BR_CH_CFG c)
    (hb : t.bearing c = s.bearing c) : edgeCount t c fwd = edgeCount s c fwd := by
  unfold edgeCount flag
  rw [fget_congr s (t := t) (f := F.BR_CH_CFG_CYCLE) h, fget_congr s (t := t) (f := F.BR_CH_CFG_REV) h, hb]

theorem Edged.congr {s s' t t' : State} {S : Set Cell} {ps : List Part} {c : Nat} {fwd fast counted : Bool}
    (h : Edged s' t' c fwd fast counted) (hs : Within S ps s s') (ht : Within S ps t' t) (hp : Part.time ∉ ps)
    (hr : ∀ q ∈ chanKept, Cell.reg q c ∉ S) (hb : Cell.bearing c ∉ S) : Edged s t c fwd fast counted := by
  have hstat : Cell.reg .BR_CH_STAT c ∉ S := hr _ (by simp [chanKept])
  have hcfg : Cell.reg .BR_CH_CFG c ∉ S := hr _ (by simp [chanKept])
  have hph : Cell.reg .BR_CH_PHASE c ∉ S := hr _ (by simp [chanKept])
  have he := edgeCount_congr c fwd (hs.reg _ _ rfl hcfg) (hs.bearing c hb)
  refine ⟨fun e => ?_, fun e hv => ?_, fun e => ⟨?_, ?_⟩, fun e => (ht.flag _ _ rfl hstat).trans (h.overspeed e)⟩
  · rw [ht.bearing c hb, h.count e, he]
  · have hat := atPhase_congr (h.phase e ((hs.flag _ _ rfl hstat).trans hv)) hs ht hp hr
    rwa [he, hs.fget _ _ rfl hcfg] at hat
  · rw [ht.bearing c hb, (h.kept e).1, hs.bearing c hb]
  · rw [ht.reg _ _ rfl hph, (h.kept e).2, hs.reg _ _ rfl hph]

theorem channelEdge_edged (fwd fast counted : Bool) (c : Nat) : Edged s (channelEdge fwd fast counted c s) c fwd fast counted := by
  have hsp := speedShown_within s c fast
  have hover : fast = true → (speedShown s c fast).flag F.BR_CH_STAT_OVERSPEED c = true := by
    rintro rfl
    exact flag_fset_one s F.BR_CH_STAT_OVERSPEED c rfl (by decide)
  have hvalid : (speedShown s c fast).flag F.BR_CH_STAT_VALID c = s.flag F.BR_CH_STAT_VALID c := by
    cases fast
    · rfl
    · exact flag_fset_field s F.BR_CH_STAT_OVERSPEED F.BR_CH_STAT_VALID c 1 rfl (by decide)
  rw [channelEdge_eq]
  dsimp only
  generalize speedShown s c fast = u at *
  have hbear : u.bearing c = s.bearing c := hsp.bearing c (by simp)
  have hcyc : u.fget F.BR_CH_CFG_CYCLE c = s.fget F.BR_CH_CFG_CYCLE c := hsp.fget _ _ rfl (by simp)
  have hk : edgeCount u c fwd = edgeCount s c fwd := edgeCount_congr c fwd (hsp.reg _ _ rfl (by simp)) hbear
  cases counted with
  | false =>
    rw [Bool.not_false, if_pos rfl]
    exact ⟨fun e => absurd e (by decide), fun e => absurd e (by decide), fun _ => ⟨by rw [hbear], hsp.reg _ _ rfl (by simp)⟩, hover⟩
  | true =>
    have hw := edgeCounted_within u c fwd
    have hcount : ((edgeCounted u c fwd).bearing c).count = edgeCount s c fwd := by
      rw [edgeCounted, bearing_setBearing, hk]
    have hphase : (edgeCounted u c fwd).countPhase c (edgeCount u c fwd) =
        BitVec.ofNat 32 (edgeCount s c fwd * 2 ^ 32 / s.fget F.BR_CH_CFG_CYCLE c) := by
      unfold countPhase
      rw [hw.fget _ _ rfl (by simp), hcyc, hk]
    rw [Bool.not_true, if_neg Bool.false_ne_true, hphase]
    generalize edgeCounted u c fwd = v at *
    have hv : v.flag F.BR_CH_STAT_VALID c = s.flag F.BR_CH_STAT_VALID c := (hw.flag _ _ rfl (by simp)).trans hvalid
    have ho : fast = true → v.flag F.BR_CH_STAT_OVERSPEED c = true := fun e => (hw.flag _ _ rfl (by simp)).trans (hover e)
    have hoff : v.fget F.BR_CH_OFFSET_OFFSET c = s.fget F.BR_CH_OFFSET_OFFSET c :=
      (hw.fget _ _ rfl (by simp)).trans (hsp.fget _ _ rfl (by simp))
    have hnow : v.now = s.now := (hw.time (by simp)).1.trans (hsp.time (by simp)).1
    rw [hv]
    split
    next hval =>
      have hup := phaseUpdate_updated v c
        (BitVec.ofNat 32 (edgeCount s c fwd * 2 ^ 32 / s.fget F.BR_CH_CFG_CYCLE c)) (!(fwd != u.flag F.BR_CH_CFG_REV c)) false
      obtain ⟨h1, h2, h3⟩ := hup.atPhase
      exact ⟨fun _ => by rw [hup.shown.bearing, hcount], fun _ _ => ⟨by rw [h1, hoff], by rw [h2, hnow], h3⟩,
        fun e => absurd e (by decide), fun e => hup.shown.overspeed.trans (ho e)⟩
    next hval => exact ⟨fun _ => hcount, fun _ e => absurd e hval, fun e => absurd e (by decide), ho⟩

/-! ## Index pulses -/

theorem phaseForce_loud (c : Nat) (x : W32) : Within (loudCells c) firedParts s (s.phaseForce c x) := phaseUpdate_within s c x _ _

theorem phaseForce_still (c : Nat) (x : W32) (hq : s.phaseAlarms c = []) : Still (chanCells c) s (s.phaseForce c x) :=
  phaseUpdate_still s c x _ _ hq

theorem phaseForce_updated (c : Nat) (x : W32) : Updated s (s.phaseForce c x) c x
    (decide (s.fget F.BR_CH_QUANT_QUANT c < (sdiff x (s.bearing c).src).natAbs)) := phaseUpdate_updated s c x _ _

theorem channelIndex_loud (c : Nat) : Within (loudCells c) firedParts s (State.channelIndex c s) := by
  have h := phaseForce_loud s c 0
  unfold State.channelIndex
  dsimp only
  generalize s.phaseForce c 0 = u at *
  exact h.next (setBearing_within u c _) (fun x hx => .inl (.inr hx)) (by simp [firedParts])

theorem channelIndex_still (c : Nat) (hq : s.phaseAlarms c = []) : Still (chanCells c) s (State.channelIndex c s) := by
  have h := phaseForce_still s c 0 hq
  unfold State.channelIndex
  dsimp only
  generalize s.phaseForce c 0 = u at *
  exact h.thenBearing c _ (.inr rfl)

/-- What an index pulse leaves of a channel (R40, R43). -/
structure Indexed (s t : State) (c : Nat) : Prop where
  count : (t.bearing c).count = 0
  phase : AtPhase s t c 0
  resynced : s.flag F.BR_CH_STAT_VALID c = true → s.fget F.BR_CH_QUANT_QUANT c < (sdiff 0 (s.bearing c).src).natAbs →
    t.flag F.BR_CH_STAT_RESYNC c = true

theorem channelIndex_indexed (c : Nat) : Indexed s (State.channelIndex c s) c := by
  have h := phaseForce_updated s c 0
  unfold State.channelIndex
  dsimp only
  generalize s.phaseForce c 0 = u at *
  have hb := bearing_setBearing u c { u.bearing c with count := 0 }
  have hw := setBearing_within u c { u.bearing c with count := 0 }
  generalize u.setBearing c { u.bearing c with count := 0 } = v at *
  exact ⟨by rw [hb], atPhase_congr (h.atPhase (y := 0)) (.refl s) hw (by simp) (by simp),
    fun hv hd => (hw.flag _ _ rfl (by simp)).trans (h.resynced (decide_eq_true hd) hv)⟩

theorem Indexed.congr {s s' t t' : State} {S : Set Cell} {ps : List Part} {c : Nat} (h : Indexed s' t' c) (hs : Within S ps s s')
    (ht : Within S ps t' t) (hp : Part.time ∉ ps) (hr : ∀ q ∈ chanKept, Cell.reg q c ∉ S) (hb : Cell.bearing c ∉ S) :
    Indexed s t c := by
  have hstat : Cell.reg .BR_CH_STAT c ∉ S := hr _ (by simp [chanKept])
  refine ⟨by rw [ht.bearing c hb, h.count], atPhase_congr h.phase hs ht hp hr, fun hv hd => ?_⟩
  refine (ht.flag _ _ rfl hstat).trans (h.resynced ((hs.flag _ _ rfl hstat).trans hv) ?_)
  rwa [hs.fget _ _ rfl (hr .BR_CH_QUANT (by simp [chanKept])), hs.bearing c hb]

end Sys2Proof.Proofs
end

section
/-! A sample taken by a descriptor that has room for it (R70, R72, R73, R76). -/

namespace Sys2Proof.Proofs

open Sys2Proof Sys2Proof.Machine Sys2Proof.Machine.State Sys2Proof.Safety

variable (s : State)

/-- What decides which windows gate a descriptor (R54, R56). -/
def gateRegs : List Reg := [.ING_D_CFG, .BR_WIN_CFG, .BR_WIN_OWN]

/-- Where a descriptor's records stand (R77). -/
def recordRegs : List Reg := [.ING_D_RPTR, .ING_D_REC]

theorem gating_congr {s t : State} (n : Nat) (h : ∀ q ∈ gateRegs, ∀ k, t.rget q k = s.rget q k) : t.gating n = s.gating n := by
  have hf : ∀ f : Fld, f.r ∈ gateRegs → ∀ k, t.fget f k = s.fget f k := fun f hf k => fget_congr s (h _ hf k)
  unfold gating
  congr 1
  funext w
  unfold flag
  rw [hf F.BR_WIN_CFG_GATE_EN (by decide), hf F.BR_WIN_CFG_GATE_DESC (by decide), hf F.BR_WIN_OWN_PART (by decide),
    hf F.ING_D_CFG_PART (by decide)]

theorem recordFree_congr {s t : State} (n : Nat) (h : ∀ q ∈ recordRegs, t.rget q n = s.rget q n) :
    t.recordFree n = s.recordFree n := by
  have hf : ∀ f : Fld, f.r ∈ recordRegs → t.fget f n = s.fget f n := fun f hf => fget_congr s (h _ hf)
  unfold recordFree
  rw [hf F.ING_D_RPTR_REC_PROD (by decide), hf F.ING_D_RPTR_REC_CONS (by decide), hf F.ING_D_REC_LOG2_RECS (by decide)]

/-- What decides whether a descriptor takes a unit, beside what is in the hub (R73). -/
def takeRegs : List Reg := .ING_D_CTRL :: (gateRegs ++ recordRegs)

theorem takes_congr {s t : State} {n len : Nat} (h : Takes s n len) (hr : ∀ q ∈ takeRegs, ∀ k, t.rget q k = s.rget q k)
    (hd : t.desc n = s.desc n) : Takes t n len := by
  obtain ⟨hstate, hrec, hskip, hgate, hcur, hroom⟩ := h
  have hs : t.fget F.ING_D_CTRL_STATE n = s.fget F.ING_D_CTRL_STATE n := fget_congr s (hr .ING_D_CTRL (by decide) n)
  have hg := gating_congr (s := s) (t := t) n fun q hq => hr q (by simp [takeRegs, hq])
  have hf := recordFree_congr (s := s) (t := t) n fun q hq => hr q (by simp [takeRegs, hq]) n
  exact ⟨by rwa [hs], hf.trans hrec, by rwa [hd], hg.trans hgate, by rwa [hd], by rwa [hd]⟩

/-- A descriptor that no window gates passes everything (R56). -/
theorem gateNow_ungated (n : Nat) (h : s.gating n = []) : s.gateNow n = {} := by
  unfold gateNow
  rw [h]
  rfl

/-- A unit taken under its number (R73). -/
theorem unitStart_takes (n flags info want : Nat) (g : Option Gating) {len : Nat} (h : Takes s n len) :
    (s.unitStart n flags info want g).fget F.ING_D_CTRL_STATE n = 2 ∧ (s.unitStart n flags info want g).desc n =
      { s.desc n with seq := (s.desc n).seq + 1, skipping := false,
                      cur := some { s.unitStamp n flags info with gate := g, seq := (s.desc n).seq } } := by
  obtain ⟨hstate, hrec, hskip, -, -, -⟩ := h
  have hw := fset_within s F.ING_D_CTRL_STATE n 2
  have h2 : (s.fset F.ING_D_CTRL_STATE n 2).fget F.ING_D_CTRL_STATE n = 2 := fget_fset_same s _ _ _ (by decide)
  have hd : (s.fset F.ING_D_CTRL_STATE n 2).desc n = s.desc n := rfl
  unfold unitStart unitTake
  rw [if_neg hstate]
  dsimp only
  generalize s.fset F.ING_D_CTRL_STATE n 2 = u at *
  have hfree : (u.setDesc n { u.desc n with seq := (u.desc n).seq + 1 }).recordFree n = true :=
    (recordFree_congr (s := s) n fun q hq => hw.reg q n (by fin_cases hq <;> rfl) (by fin_cases hq <;> simp)).trans hrec
  rw [hfree, hd, hskip]
  simp only [Bool.not_true, Bool.false_eq_true, if_false, Bool.false_and]
  exact ⟨h2, by rw [desc_setDesc, desc_setDesc]⟩

/-- A grain that the windows pass and the hub has room for (R56, R79). -/
theorem grain_fits (n : Nat) (bs : List Byte) (line : Bool) {u : UnitRec} (hu : (s.desc n).cur = some u)
    (hg : (u.gate.getD (s.gateNow n)).shut = false) (hc : u.cut = false) (hb : bs.length + backlogBytes (s.desc n) ≤ 32768) :
    s.grain n bs line = s.setDesc n { s.desc n with
      cur := some { u with inside := u.inside + 1
                           data := u.data ++ [{ data := bs, wins := (u.gate.getD (s.gateNow n)).wins, line := line }] } } := by
  have hfit : bs.length ≤ 32768 - backlogBytes (s.desc n) := by omega
  unfold grain
  simp only [hu, hg, hc, hfit, decide_true, Bool.and_true, List.take_of_length_le hfit, Bool.false_eq_true, if_false, if_true]

/-- A unit with a grain inside ends in the backlog (R76, R82). -/
theorem unitEnd_inside (n : Nat) {u : UnitRec} (hu : (s.desc n).cur = some u) (hi : u.inside ≠ 0) :
    s.unitEnd n = s.setDesc n { s.desc n with cur := none, backlog := (s.desc n).backlog ++ [s.unitClosed u] } := by
  unfold unitEnd
  simp only [hu, hi, if_false]

/-- A unit that has taken its one grain, through no window (R72, R80). -/
def oneGrain (n flags info : Nat) (bs : List Byte) : UnitRec :=
  { s.unitStamp n flags info with
    gate := none, seq := (s.desc n).seq, inside := 1, data := [{ data := bs, wins := [], line := false }] }

/-- A unit of one grain stands whole in the backlog (R72, R73). -/
theorem unitWhole_taken (n flags info : Nat) (bs : List Byte) (h : Takes s n bs.length) :
    Taken s (s.unitWhole n flags info bs) n flags info bs := by
  obtain ⟨hstate, hdesc⟩ := unitStart_takes s n flags info bs.length none h
  have hw := unitStart_within s n flags info bs.length none
  obtain ⟨-, -, -, hgate, hcur, hroom⟩ := h
  unfold unitWhole
  generalize s.unitStart n flags info bs.length none = t at *
  have hopen : t.gateNow n = {} := gateNow_ungated t n ((gating_congr n fun q hq k =>
    hw.reg q k (by fin_cases hq <;> rfl) (by fin_cases hq <;> simp)).trans hgate)
  have hback : backlogBytes (t.desc n) = backlogBytes (s.desc n) := by
    rw [hdesc, backlogBytes, backlogBytes, hcur]
    rfl
  have hcur' : (t.desc n).cur = some { s.unitStamp n flags info with gate := none, seq := (s.desc n).seq } := by rw [hdesc]
  have hgrain : t.grain n bs false = t.setDesc n { t.desc n with cur := some (oneGrain s n flags info bs) } := by
    rw [grain_fits t n bs false hcur' (by rw [hopen]; rfl) rfl (by rw [hback]; exact hroom), hopen]
    rfl
  have hnow : (t.setDesc n { t.desc n with cur := some (oneGrain s n flags info bs) }).now = s.now := (hw.time (by simp)).1
  have hd : (t.setDesc n { t.desc n with cur := some (oneGrain s n flags info bs) }).desc n =
      { t.desc n with cur := some (oneGrain s n flags info bs) } := desc_setDesc t n _
  have hs : (t.setDesc n { t.desc n with cur := some (oneGrain s n flags info bs) }).fget F.ING_D_CTRL_STATE n = 2 := hstate
  rw [hgrain]
  generalize t.setDesc n { t.desc n with cur := some (oneGrain s n flags info bs) } = u at *
  rw [unitEnd_inside u n (u := oneGrain s n flags info bs) (by rw [hd]) Nat.one_ne_zero, hd, hdesc]
  refine ⟨hs, by rw [desc_setDesc], by rw [desc_setDesc], u.unitClosed (oneGrain s n flags info bs), by rw [desc_setDesc], rfl, rfl,
    hnow, ?_, rfl, rfl, rfl⟩
  show (([{ data := bs, wins := [], line := false }] : List Grain).map (·.data)).flatten = bs
  simp

/-- What is taken is seen through what leaves the descriptor alone. -/
theorem taken_congr {s s' t t' : State} {n flags info : Nat} {bs : List Byte} (h : Taken s' t' n flags info bs)
    (hd : s'.desc n = s.desc n) (hnow : s'.now = s.now) (hen : s'.fget F.ING_D_CFG_PH_EN n = s.fget F.ING_D_CFG_PH_EN n)
    (hoff : s.flag F.ING_D_CFG_PH_EN n = false) (hlock : s'.fget F.TB_STATUS_TB_LOCKED 0 = s.fget F.TB_STATUS_TB_LOCKED 0)
    (hs : t.fget F.ING_D_CTRL_STATE n = t'.fget F.ING_D_CTRL_STATE n)
    (hcur : (t.desc n).cur = (t'.desc n).cur) (hseq : (t.desc n).seq = (t'.desc n).seq)
    (hback : (t.desc n).backlog = (t'.desc n).backlog) : Taken s t n flags info bs := by
  have hoff' : s'.flag F.ING_D_CFG_PH_EN n = false := by unfold flag at *; rwa [hen]
  have hlock' : s'.flag F.TB_STATUS_TB_LOCKED 0 = s.flag F.TB_STATUS_TB_LOCKED 0 := by unfold flag; rw [hlock]
  obtain ⟨h1, h2, h3, u, h4, h5, h6, h7, h8, h9, h10, h11⟩ := h
  rw [hd] at h3 h4 h5
  rw [hnow] at h6 h7
  rw [hoff', hlock'] at h11
  exact ⟨hs.trans h1, hcur.trans h2, hseq.trans h3, u, hback.trans h4, h5, h6, h7, h8, h9, h10, by simp only [h11, hoff, Bool.false_and]⟩

/-- A sample taken at once stands whole in the backlog; whoever samples again on this tick finds it taken (R70, R83). -/
theorem sampleAt_taken (n : Nat) (h : Takes s n (s.payload (s.fget F.ING_D_CFG_SRC n)).length)
    (hs : (s.desc n).sampled ≠ some (s.ticks, true)) (hp : s.flag F.ING_D_CFG_PH_EN n = false) :
    Taken s (s.sampleAt n false) n 0 0 (s.payload (s.fget F.ING_D_CFG_SRC n)) := by
  have ht := unitWhole_taken s n 0 0 _ h
  simp only [sampleAt, Bool.not_false, if_neg hs, Bool.false_eq_true, if_false]
  generalize s.unitWhole n 0 0 (s.payload (s.fget F.ING_D_CFG_SRC n)) = t at *
  refine taken_congr ht rfl rfl rfl hp rfl rfl ?_ ?_ ?_ <;> rw [desc_setDesc]

theorem naturals_src {src n : Nat} (h : n ∈ s.naturals src) : s.fget F.ING_D_CFG_SRC n = src := by
  simp only [naturals, List.mem_filter, Bool.and_eq_true, beq_iff_eq] at h
  exact h.2.1

theorem abzPayload_length (src : Nat) : (s.abzPayload src).length = 8 := by
  simp [abzPayload, leBytes_length]

theorem naturalSample_unmatched (src : Nat) (hr : s.rxOn src = true) (h : s.naturals src = []) :
    s.naturalSample src = s.unmatched src := by
  unfold naturalSample
  simp only [hr, h, Bool.not_true, Bool.false_eq_true, if_false]

/-- The one natural descriptor of an ABZ encoder takes its sample, and the overspeed bit goes with it (R70, R72). -/
theorem naturalSample_taken (src n : Nat) (hr : s.rxOn src = true) (hsrc : src < 0x20) (h : s.naturals src = [n])
    (ht : Takes s n 8) (hs : (s.desc n).sampled ≠ some (s.ticks, true)) (hp : s.flag F.ING_D_CFG_PH_EN n = false) :
    ((s.naturalSample src).port src).fast = false ∧ Taken s (s.naturalSample src) n 0 0 (s.abzPayload src) := by
  have hpay : s.payload (s.fget F.ING_D_CFG_SRC n) = s.abzPayload src := by
    rw [naturals_src s (src := src) (by rw [h]; exact List.mem_singleton_self n)]
    exact if_pos hsrc
  have htaken := sampleAt_taken s n (by rwa [hpay, abzPayload_length]) hs hp
  rw [hpay] at htaken
  unfold naturalSample
  simp only [hr, h, Bool.not_true, Bool.false_eq_true, if_false, forEach, List.foldl_cons, List.foldl_nil]
  generalize s.sampleAt n false = t at *
  exact ⟨by rw [port_setPort], htaken⟩

end Sys2Proof.Proofs
end

section
/-! Encoder channels: configuration, edges, index pulses and line breaks (O36). -/

namespace Sys2Proof.Proofs

open Sys2Proof Sys2Proof.Machine Sys2Proof.Machine.State Sys2Proof.Safety

variable (s : State)

/-! ## Loops over channels -/

/-- What an event on the channels of a list may change. -/
def allLoud (cs : List Nat) : Set Cell := {x | ∃ c ∈ cs, x ∈ loudCells c}

@[simp] theorem port_mem_allLoud (cs : List Nat) (p : Nat) : Cell.port p ∉ allLoud cs := by simp [allLoud]

/-- Registers that no event on a channel changes (R39-R60). -/
theorem reg_not_mem_allLoud (cs : List Nat) (q : Reg) (k : Nat)
    (hq : q ∉ .BR_CH_QUANT :: chanRegs ∧ q ∉ alarmRegs ∧ q ∉ winRegs ∧ q ∉ actRegs) : Cell.reg q k ∉ allLoud cs := by
  obtain ⟨h1, h2, h3, h4⟩ := hq
  rintro ⟨c, -, h⟩
  rw [reg_mem_loudCells] at h
  rcases h with ⟨h, -⟩ | ⟨h, -⟩ | h | h
  · exact h1 h
  · exact h2 h
  · exact h3 h
  · exact h4 h

theorem loud_forEach (f : Nat → State → State) (hf : ∀ c u, Within (loudCells c) firedParts u (f c u)) (cs : List Nat) :
    Within (allLoud cs) firedParts s (forEach cs f s) :=
  forEach_within f cs fun c hc u _ => (hf c u).mono (fun _ hx => ⟨c, hc, hx⟩) (List.Subset.refl _)

/-- Where no alarm is armed on the channels, they change alone. -/
theorem still_forEach (f : Nat → State → State) (hf : ∀ c u, u.phaseAlarms c = [] → Still (chanCells c) u (f c u)) {cs : List Nat}
    (hq : Quiet s cs) : Still (allCells chanRegs cs) s (forEach cs f s) := by
  refine Still.forEach f cs fun c hc u hu => (hf c u ?_).mono (subset_allCells chanRegs cs c hc)
  rw [hu.phaseAlarms c fun k => by simp [chanRegs]]
  exact hq c hc

/-- A change of ports leaves the channels quiet. -/
theorem Within.quiet {S : Set Cell} {ps : List Part} {s t : State} {cs : List Nat} (h : Within S ps s t) (hq : Quiet s cs)
    (hS : ∀ k, Cell.reg .BR_AL_STAT k ∉ S ∧ Cell.reg .BR_AL_CFG k ∉ S) : Quiet t cs :=
  fun c hc => (h.phaseAlarms c hS).trans (hq c hc)

theorem channels_congr {s t : State} (k i : Nat) (h : ∀ c, t.rget .BR_CH_CFG c = s.rget .BR_CH_CFG c) :
    t.channels k i = s.channels k i := by
  have hf : ∀ f : Fld, f.r = .BR_CH_CFG → ∀ c, t.fget f c = s.fget f c := fun f hf c => fget_congr s (by rw [hf]; exact h c)
  unfold channels
  congr 1
  funext c
  unfold flag
  rw [hf F.BR_CH_CFG_EN rfl, hf F.BR_CH_CFG_SRC rfl, hf F.BR_CH_CFG_SRC_IDX rfl]

/-- Windows that wait on channels are the same after what leaves them alone. -/
theorem windowsClosed_congr {S : Set Cell} {ps : List Part} {s u t : State} {cs : List Nat} (h : WindowsClosed u t cs)
    (hu : Within S ps s u) (hr : ∀ w, Cell.reg .BR_WIN_STAT w ∉ S ∧ Cell.reg .BR_WIN_CFG w ∉ S) (hw : ∀ w, Cell.win w ∉ S) :
    WindowsClosed s t cs := by
  intro w hlt ha hd hc hv
  obtain ⟨hstat, hcfg⟩ := hr w
  have hclose := h w hlt ((hu.flag _ _ rfl hstat).trans ha) ((hu.flag _ _ rfl hcfg).trans hd)
    (by rwa [hu.fget _ _ rfl hcfg]) (by rwa [hu.win w (hw w)])
  rwa [hu.fget F.BR_WIN_STAT_COUNT w rfl hstat, hu.flag F.BR_WIN_CFG_REPEAT w rfl hcfg] at hclose

/-! ## Configuration -/

theorem quantOf_mod {src cyc : Nat} (h : channelBad src cyc = false) : quantOf src cyc % 2 ^ F.BR_CH_QUANT_QUANT.w =
    if src = 1 ∨ src = 4 then (2 ^ 32 + cyc - 1) / cyc % 2 ^ 32 else if src = 2 then 2 ^ (32 - cyc % 64) else 0 := by
  have hbits : natBits cyc 0 6 = cyc % 64 := by simp [natBits]
  have hgood : ¬ (src = 2 ∧ (cyc % 64 = 0 ∨ 32 < cyc % 64)) := fun e => by
    have := (channelBad_iff src cyc).2 (.inr (.inr (.inl e)))
    rw [h] at this
    cases this
  show quantOf src cyc % 2 ^ 32 = _
  unfold quantOf ceilDiv
  rw [hbits]
  split
  · rfl
  · split
    next h2 =>
      refine Nat.mod_eq_of_lt (Nat.pow_lt_pow_right (by decide) ?_)
      have : cyc % 64 ≠ 0 := fun e => hgood ⟨h2, .inl e⟩
      omega
    · rfl

theorem cfgTaken_enable (c : Nat) (v : W32) (u : State) (h : u.rget .BR_CH_CFG c = v.setWidth 64) :
    u.flag F.BR_CH_CFG_EN c = v.getLsbD 31 := by
  have hb : v.getLsbD 31 = (v.setWidth 64 : W64).getLsbD 31 := by simp
  rw [hb, getLsbD_eq_getBits, ← h]
  rfl

/-- What a configuration leaves of a channel, and what it may change (R41, R42). -/
structure Configured (s t : State) (c : Nat) (v : W32) (bad : Prop) (quant : Nat) : Prop where
  invalid : t.flag F.BR_CH_STAT_VALID c = false
  fresh : t.bearing c = {}
  image : (t.rget .BR_CH_CFG c &&& 0x7FFFFFFF#64) = (v.setWidth 64 &&& 0x7FFFFFFF#64)
  refused : bad → t.flag F.BR_CH_CFG_EN c = false ∧ t.flag F.BR_CH_STAT_CFG_ERR c = true
  taken : ¬ bad → t.flag F.BR_CH_CFG_EN c = v.getLsbD 31 ∧ t.flag F.BR_CH_STAT_CFG_ERR c = s.flag F.BR_CH_STAT_CFG_ERR c
  quantum : ¬ bad → v.getLsbD 31 = true → t.fget F.BR_CH_QUANT_QUANT c = quant
  within : s.flag F.BR_CH_STAT_VALID c = false ∨ s.phaseAlarms c = [] → Within (regCells cfgRegs c ∪ {.bearing c}) [.phase] s t

theorem channelCfg_configured (c : Nat) (v : W32) : Configured s (s.channelCfg c v) c v
    (channelBad (v.toNat / 2 ^ 28 % 8) (v.toNat % 2 ^ 23) = true)
    (quantOf (v.toNat / 2 ^ 28 % 8) (v.toNat % 2 ^ 23) % 2 ^ F.BR_CH_QUANT_QUANT.w) := by
  have hw := cfgTaken_within s c v
  have hcfg := cfgTaken_cfg s c v
  have hb := cfgTaken_bearing s c v
  have hv := (cfgTaken_flag s c v F.BR_CH_STAT_VALID rfl).trans (channelInvalid_valid s c)
  have he := (cfgTaken_flag s c v F.BR_CH_STAT_CFG_ERR rfl).trans (channelInvalid_flag s c F.BR_CH_STAT_CFG_ERR rfl (by decide))
  rw [channelCfg_eq]
  generalize cfgTaken s c v = u at *
  have hen := cfgTaken_enable c v u hcfg
  cases hbad : channelBad (v.toNat / 2 ^ 28 % 8) (v.toNat % 2 ^ 23) with
  | true =>
    rw [if_pos rfl]
    have himage := cfgMask u c v hcfg
    have hoff := flag_fset_zero u F.BR_CH_CFG_EN c rfl (by decide)
    have hinv : (u.fset F.BR_CH_CFG_EN c 0).flag F.BR_CH_STAT_VALID c = false :=
      (flag_fset_ne u F.BR_CH_CFG_EN F.BR_CH_STAT_VALID c c 0 (by decide)).trans hv
    have hfresh : (u.fset F.BR_CH_CFG_EN c 0).bearing c = {} := hb
    have hbound := fun h => (hw h).thenFset F.BR_CH_CFG_EN c 0 (.inl (by simp [cfgRegs]))
    generalize u.fset F.BR_CH_CFG_EN c 0 = t at *
    exact {
      invalid := (flag_fset_field t F.BR_CH_STAT_CFG_ERR F.BR_CH_STAT_VALID c 1 rfl (by decide)).trans hinv
      fresh := hfresh
      image := by rw [(fset_within t F.BR_CH_STAT_CFG_ERR c 1).reg _ _ rfl (by simp), himage]
      refused := fun _ => ⟨(flag_fset_ne t F.BR_CH_STAT_CFG_ERR F.BR_CH_CFG_EN c c 1 (by decide)).trans hoff,
        flag_fset_one t F.BR_CH_STAT_CFG_ERR c rfl (by decide)⟩
      taken := fun e => absurd rfl e
      quantum := fun e => absurd rfl e
      within := fun h => (hbound h).thenFset F.BR_CH_STAT_CFG_ERR c 1 (.inl (by simp [cfgRegs])) }
  | false =>
    rw [if_neg Bool.false_ne_true]
    split
    next hon => exact ⟨hv, hb, by rw [hcfg], fun e => absurd e (by decide), fun _ => ⟨hen, he⟩,
      fun _ e => absurd hon (by rw [e]; decide), hw⟩
    next hon =>
      have hq := fset_within u F.BR_CH_QUANT_QUANT c (quantOf (v.toNat / 2 ^ 28 % 8) (v.toNat % 2 ^ 23))
      exact {
        invalid := (hq.flag _ _ rfl (by simp)).trans hv
        fresh := hb
        image := by rw [hq.reg _ _ rfl (by simp), hcfg]
        refused := fun e => absurd e (by decide)
        taken := fun _ => ⟨(hq.flag _ _ rfl (by simp)).trans hen, (hq.flag _ _ rfl (by simp)).trans he⟩
        quantum := fun _ _ => fget_fset_same u F.BR_CH_QUANT_QUANT c _ (by decide)
        within := fun h => (hw h).thenFset F.BR_CH_QUANT_QUANT c _ (.inl (by simp [cfgRegs])) }

theorem execBrChCfgWrite_live (c : Fin 16) (v : W32) (h : Live s) : exec (.brChCfgWrite c v) s = .next (s.channelCfg c v) :=
  congrArg _ (bar_live s _ h)

/-! ## Edges -/

/-- The count of an encoder's port after an edge (R70). -/
def portCount (e : Nat) (fwd counted : Bool) : W32 :=
  let n := (s.port (0x10 + e)).count
  if counted then (if fwd then n + 1 else n - 1) else n

/-- The port of an encoder after an edge. -/
def edgePort (e : Nat) (fwd fast counted : Bool) : State :=
  let p := (s.port (0x10 + e))
  let p := if counted then { p with count := if fwd then p.count + 1 else p.count - 1 } else p
  { s with draws := s.draws + if fast then 1 else 0 }.setPort (0x10 + e) { p with fast := p.fast || fast }

theorem edgePort_within (e : Nat) (fwd fast counted : Bool) :
    Within {.port (0x10 + e)} [.ingress] s (edgePort s e fwd fast counted) := by
  have h : Within {.port (0x10 + e)} [.ingress] s { s with draws := s.draws + if fast then 1 else 0 } :=
    within_of_regs rfl rfl rfl rfl rfl (fun p hp => by cases p <;> simp_all [Same]) (fun _ _ => rfl) (fun _ _ => rfl)
      (fun _ _ => rfl)
  exact h.trans (setPort_within _ _ _)

theorem edgePort_count (e : Nat) (fwd fast counted : Bool) :
    ((edgePort s e fwd fast counted).port (0x10 + e)).count = portCount s e fwd counted := by
  unfold edgePort portCount
  rw [port_setPort]
  cases counted <;> rfl

theorem execQuadratureEdge_on (e : Fin 16) (fwd fast : Bool) (h : s.abzOn e = true) : exec (.quadratureEdge e fwd fast) s =
    .next (forEach (s.channels 1 e) (channelEdge fwd fast (!fast || Config.edgeCounted s.draws))
      (edgePort s e fwd fast (!fast || Config.edgeCounted s.draws))) := by
  show Host.Outcome.next (if !(s.abzOn e) then s else _) = _
  rw [h, Bool.not_true, if_neg Bool.false_ne_true]
  rfl
/-- An edge's loop over its channels, on any of them. -/
theorem edges_edged {cs : List Nat} (hn : cs.Nodup) (fwd fast counted : Bool) {c : Nat} (hc : c ∈ cs) :
    Edged s (forEach cs (channelEdge fwd fast counted) s) c fwd fast counted := by
  obtain ⟨u, hu, ht⟩ := chan_pass s (channelEdge fwd fast counted) (fun b u => channelEdge_loud u fwd fast counted b) cs hn c hc
  exact (channelEdge_edged u fwd fast counted c).congr hu ht (by simp [firedParts, actParts])
    (fun q hq => chanReg_not_mem_otherCells q c hq) (bearing_mem_otherCells c)

/-- What an edge leaves of its port, of each channel, and beside them (R39-R41, R70). -/
theorem execQuadratureEdge_follows (e : Fin 16) (fwd fast : Bool) (h : s.abzOn e = true) :
    let cs := s.channels 1 e
    let counted := !fast || Config.edgeCounted s.draws
    ∃ t, exec (.quadratureEdge e fwd fast) s = .next t ∧ (t.port (16 + e)).count = portCount s e fwd counted ∧
      (∀ c ∈ cs, Edged s t c fwd fast counted) ∧
      (Quiet s cs → Within (allCells chanRegs cs ∪ {.port (16 + e)}) [.phase, .ingress] s t ∧ t.windows = s.windows ∧
        t.descs = s.descs ∧ ∀ c, c ∉ cs → t.bearing c = s.bearing c) := by
  intro cs counted
  have hp := edgePort_within s e fwd fast counted
  have hcount := edgePort_count s e fwd fast counted
  have hwin : (edgePort s e fwd fast counted).windows = s.windows := rfl
  have hdesc : (edgePort s e fwd fast counted).descs = s.descs := rfl
  refine ⟨_, execQuadratureEdge_on s e fwd fast h, ?_⟩
  show _ ∧ _
  generalize edgePort s e fwd fast counted = u at *
  have hn : cs.Nodup := channels_nodup s 1 e
  refine ⟨?_, fun c hc => ?_, fun hq => ?_⟩
  · have hl := loud_forEach u (channelEdge fwd fast counted) (fun c u => channelEdge_loud u fwd fast counted c) cs
    exact (congrArg Prod.fst (hl.port (0x10 + e) (by simp))).trans hcount
  · exact (edges_edged u hn fwd fast counted hc).congr hp (.refl _) (by simp) (by simp) (by simp)
  · have hs := still_forEach u (channelEdge fwd fast counted) (fun c u => channelEdge_still u fwd fast counted c)
      (hp.quiet hq (by simp))
    refine ⟨(hp.mono Set.subset_union_right (by simp)).next hs.within Set.subset_union_left (by simp), hs.windows.trans hwin,
      ((hs.within.same .ingress (by simp)).2.1).trans hdesc, fun c hc => ?_⟩
    rw [hs.within.bearing c (by simpa using hc), hp.bearing c (by simp)]

/-! ## Index pulses -/

theorem Within.rxOn {S : Set Cell} {ps : List Part} {s t : State} (h : Within S ps s t) (n : Nat) (hp : Part.power ∉ ps)
    (hS : Cell.reg .ING_PORT_CFG n ∉ S) : t.rxOn n = s.rxOn n := by
  have hpow : t.power = s.power := h.same .power hp
  unfold State.rxOn
  rw [hpow, h.flag F.ING_PORT_CFG_OFF n rfl hS]

theorem naturals_congr {s t : State} (src : Nat) (h : ∀ n, t.rget .ING_D_CFG n = s.rget .ING_D_CFG n) :
    t.naturals src = s.naturals src := by
  unfold naturals
  congr 1
  funext n
  rw [fget_congr s (t := t) (f := F.ING_D_CFG_SRC) (h n), fget_congr s (t := t) (f := F.ING_D_CFG_SAMPLE) (h n)]

/-- An index pulse counted at its port (R70). -/
def zPort (e : Nat) : State := s.setPort (0x10 + e) { s.port (0x10 + e) with zCount := (s.port (0x10 + e)).zCount + 1 }

/-- The channels that an index pulse sets: none after a line break (R44). -/
def zChannels (e : Nat) : List Nat := if (s.port (16 + e)).broken then [] else s.channels 1 e

theorem execZPulse_on (e : Fin 16) (h : s.abzMode e = true) : exec (.zPulse e) s =
    .next ((forEach (zChannels s e) State.channelIndex (zPort s e)).naturalSample (0x10 + e)) := by
  have hport : (zPort s e).port (0x10 + e) = { s.port (0x10 + e) with zCount := (s.port (0x10 + e)).zCount + 1 } := port_setPort s _ _
  show Host.Outcome.next (if !(s.abzMode e) then s else (if ((zPort s e).port (0x10 + e)).broken then zPort s e else
    forEach (s.channels 1 e) State.channelIndex (zPort s e)).naturalSample (0x10 + e)) = _
  rw [h, Bool.not_true, if_neg Bool.false_ne_true, hport, zChannels]
  cases (s.port (0x10 + e)).broken <;> rfl

theorem zChannels_nodup (e : Nat) : (zChannels s e).Nodup := by
  unfold zChannels
  split
  · exact List.nodup_nil
  · exact channels_nodup s 1 e

theorem indexes_indexed {cs : List Nat} (hn : cs.Nodup) {c : Nat} (hc : c ∈ cs) :
    Indexed s (forEach cs State.channelIndex s) c := by
  obtain ⟨u, hu, ht⟩ := chan_pass s State.channelIndex (fun b u => channelIndex_loud u b) cs hn c hc
  exact (channelIndex_indexed u c).congr hu ht (by simp [firedParts, actParts])
    (fun q hq => chanReg_not_mem_otherCells q c hq) (bearing_mem_otherCells c)

/-- What an index pulse leaves before its natural sample. -/
structure IndexSet (s t : State) (e : Nat) : Prop where
  zCount : (t.port (0x10 + e)).zCount = (s.port (0x10 + e)).zCount + 1
  indexed : ∀ c ∈ zChannels s e, Indexed s t c
  loud : Within (allLoud (zChannels s e) ∪ {.port (0x10 + e)}) firedParts s t
  still : Quiet s (zChannels s e) → Within (allCells chanRegs (zChannels s e) ∪ {.port (0x10 + e)}) [.phase, .ingress] s t ∧
    t.descs = s.descs ∧ t.ports = (zPort s e).ports

theorem indexes_set (e : Nat) : IndexSet s (forEach (zChannels s e) State.channelIndex (zPort s e)) e := by
  have hp : Within {.port (0x10 + e)} [.ingress] s (zPort s e) := setPort_within s _ _
  have hz : (zPort s e).port (0x10 + e) = { s.port (0x10 + e) with zCount := (s.port (0x10 + e)).zCount + 1 } := port_setPort s _ _
  have hdesc : (zPort s e).descs = s.descs := rfl
  have hn := zChannels_nodup s e
  generalize hu : zPort s e = u at *
  have hl := loud_forEach u State.channelIndex (fun c u => channelIndex_loud u c) (zChannels s e)
  have hs := fun hq : Quiet s (zChannels s e) => still_forEach u State.channelIndex (fun c u => channelIndex_still u c) (hp.quiet hq (by simp))
  refine ⟨?_, fun c hc => ?_, ?_, fun hq => ⟨?_, ?_, ?_⟩⟩
  · exact (congrArg (fun m => m.2.1) (hl.port (0x10 + e) (by simp))).trans (congrArg Port.zCount hz)
  · exact (indexes_indexed u hn hc).congr hp (.refl _) (by simp) (by simp) (by simp)
  · exact (hp.mono Set.subset_union_right (by simp [firedParts, actParts])).next hl Set.subset_union_left (List.Subset.refl _)
  · exact (hp.mono Set.subset_union_right (by simp)).next (hs hq).within Set.subset_union_left (by simp)
  · exact ((hs hq).within.same .ingress (by simp)).2.1.trans hdesc
  · exact ((hs hq).within.same .ingress (by simp)).1.trans (congrArg State.ports hu.symm)

/-- The natural sample of an index pulse, by the one descriptor that takes it. -/
theorem indexSet_taken {s t : State} {e : Nat} (h : IndexSet s t e) (he : e < 16) (hr : s.rxOn (0x10 + e) = true) {n : Nat}
    (hq : Quiet s (zChannels s e)) (hn : s.naturals (0x10 + e) = [n]) (ht : Takes s n 8)
    (hs : (s.desc n).sampled ≠ some (s.ticks, true)) (hp : s.flag F.ING_D_CFG_PH_EN n = false) :
    ((t.naturalSample (0x10 + e)).port (0x10 + e)).fast = false ∧
      Taken s (t.naturalSample (0x10 + e)) n 0 0 ((zPort s e).abzPayload (0x10 + e)) := by
  obtain ⟨hw, hdescs, hports⟩ := h.still hq
  have hreg : ∀ q ∈ [Reg.ING_D_CFG, .ING_PORT_CFG, .TB_STATUS] ++ takeRegs, ∀ k,
      Cell.reg q k ∉ allCells chanRegs (zChannels s e) ∪ {.port (0x10 + e)} := by
    intro q hq k
    fin_cases hq <;> simp [chanRegs]
  have hkeep : ∀ q ∈ [Reg.ING_D_CFG, .ING_PORT_CFG, .TB_STATUS] ++ takeRegs, ∀ k, t.rget q k = s.rget q k :=
    fun q hq k => hw.reg q k (by fin_cases hq <;> rfl) (hreg q hq k)
  have hdesc : t.desc n = s.desc n := by unfold State.desc; rw [hdescs]
  obtain ⟨hnow, hticks⟩ := hw.time (by simp)
  have hen : t.fget F.ING_D_CFG_PH_EN n = s.fget F.ING_D_CFG_PH_EN n := fget_congr s (hkeep .ING_D_CFG (by simp) n)
  have hpay : t.abzPayload (0x10 + e) = (zPort s e).abzPayload (0x10 + e) := by
    unfold abzPayload State.port
    rw [hports]
  obtain ⟨hfast, htaken⟩ := naturalSample_taken t (0x10 + e) n
    ((hw.rxOn _ (by simp) (hreg .ING_PORT_CFG (by simp) _)).trans hr) (by omega)
    ((naturals_congr _ fun m => hkeep .ING_D_CFG (by simp) m).trans hn)
    (takes_congr ht (fun q hq k => hkeep q (by simp [hq]) k) hdesc) (by rwa [hdesc, hticks])
    (by unfold flag at *; rwa [hen])
  rw [hpay] at htaken
  exact ⟨hfast, taken_congr htaken hdesc hnow hen hp (fget_congr s (hkeep .TB_STATUS (by simp) 0)) rfl rfl rfl rfl⟩

/-! ## Line breaks -/

/-- A line break noted at its port (R44, R64). -/
def brokenPort (e : Nat) : State :=
  ((s.setPort (0x10 + e) { s.port (0x10 + e) with broken := true }).fset F.ING_PORT_STAT_LINK (0x10 + e) 0).portError (0x10 + e)

/-- The cells of a line break's port. -/
def brokenCells (e : Nat) : Set Cell := regCells [.ING_PORT_STAT, .ING_PORT_CNT] (0x10 + e) ∪ {.port (0x10 + e)}

theorem brokenPort_within (e : Nat) : Within (brokenCells e) [.ingress] s (brokenPort s e) := by
  have h : Within (brokenCells e) [.ingress] s (s.setPort (0x10 + e) { s.port (0x10 + e) with broken := true }) :=
    (setPort_within s _ _).mono Set.subset_union_right (List.Subset.refl _)
  exact (h.thenFset F.ING_PORT_STAT_LINK (0x10 + e) 0 (.inl (by simp))).next (portError_within _ _) Set.subset_union_left
    (List.nil_subset _)

theorem execLineBreak_on (e : Fin 16) (h : s.abzOn e = true) : exec (.lineBreak e) s =
    .next (forEach (s.channels 1 e) (sourceLost 1) (brokenPort s e)) := by
  show Host.Outcome.next (if !(s.abzOn e) then s else _) = _
  rw [h, Bool.not_true, if_neg Bool.false_ne_true, ← channels_congr (s := s) (t := brokenPort s e) 1 e fun c =>
    (brokenPort_within s e).reg _ _ rfl (by simp [brokenCells])]
  rfl

theorem portError_flag (n : Nat) (f : Fld) (hr : f.r = .ING_PORT_STAT)
    (hf : F.ING_PORT_STAT_ERR.lo + F.ING_PORT_STAT_ERR.w ≤ f.lo ∨ f.lo + f.w ≤ F.ING_PORT_STAT_ERR.lo) :
    (s.portError n).flag f n = s.flag f n := by
  unfold portError
  rw [flag_fset_field _ F.ING_PORT_STAT_ERR f n 1 hr hf]
  exact (fadd_within s F.ING_PORT_CNT_ERRORS n 1).flag f n (by rw [hr]; rfl) (by simp [hr])

theorem brokenPort_shown (e : Nat) : ((brokenPort s e).port (0x10 + e)).broken = true ∧
    (brokenPort s e).flag F.ING_PORT_STAT_LINK (0x10 + e) = false ∧ (brokenPort s e).flag F.ING_PORT_STAT_ERR (0x10 + e) = true := by
  refine ⟨?_, ?_, flag_fset_one _ F.ING_PORT_STAT_ERR _ rfl (by decide)⟩
  · exact congrArg Port.broken (port_setPort s (0x10 + e) { s.port (0x10 + e) with broken := true })
  · unfold brokenPort
    rw [portError_flag _ _ F.ING_PORT_STAT_LINK rfl (by decide)]
    exact flag_fset_zero _ F.ING_PORT_STAT_LINK _ rfl (by decide)

/-- What a line break leaves of its port, of each channel, and beside them (R44, R60, R64). -/
theorem execLineBreak_loses (e : Fin 16) (hon : s.abzOn e = true) : let cs := s.channels 1 e
    (∃ t, exec (.lineBreak e) s = .next t ∧ (t.port (16 + e)).broken = true ∧ t.flag F.ING_PORT_STAT_LINK (16 + e) = false ∧
      t.flag F.ING_PORT_STAT_ERR (16 + e) = true ∧ (∀ c ∈ cs, Lost t c) ∧ WindowsClosed s t cs ∧
      (Quiet s cs → Unwatched s cs → Frame (fun q k => regsAt [.BR_CH_STAT] cs q k ∨ theRegs [.ING_PORT_STAT, .ING_PORT_CNT] (16 + e) q k)
        [.phase, .ingress] s t)) := by
  intro cs
  obtain ⟨hbroken, hlink, herr⟩ := brokenPort_shown s e
  have hp := brokenPort_within s e
  have hx := execLineBreak_on s e hon
  have hl := sourceLost_lossPass 1
  have hn : cs.Nodup := channels_nodup s 1 e
  generalize brokenPort s e = u at *
  have hall := loud_forEach u (sourceLost 1) (fun c u => sourceLost_loud u 1 c) cs
  refine ⟨_, hx, ?_, ?_, ?_, hl.all_lost u hn, ?_, fun hq hw => ?_⟩
  · exact (congrArg (fun m => m.2.2.1) (hall.port (0x10 + e) (by simp))).trans hbroken
  · exact (hall.flag _ _ rfl (reg_not_mem_allLoud _ _ _ (by decide))).trans hlink
  · exact (hall.flag _ _ rfl (reg_not_mem_allLoud _ _ _ (by decide))).trans herr
  · exact windowsClosed_congr (hl.all_closed u hn) hp (by simp [brokenCells]) (by simp [brokenCells])
  · have hs := hl.all_still u (hp.quiet hq (by simp [brokenCells])) (unwatched_congr hw hp (by simp [brokenCells]))
    have h := (hp.mono (S' := brokenCells e ∪ allCells [.BR_CH_STAT] cs) Set.subset_union_left (by simp)).next hs
      Set.subset_union_right (show [Part.phase] ⊆ [.phase, .ingress] by simp)
    refine h.frame (fun q k hk => ?_) (List.Subset.refl _)
    rcases hk with (hk | hk) | hk
    · exact .inr ((reg_mem_regCells _ _ k q).1 hk)
    · simp at hk
    · exact .inl ((reg_mem_allCells _ _ q k).1 hk)

/-- Settles O36: a configuration, an edge, an index pulse and a line break, each by what its loop over the channels leaves. -/
theorem encoderChannelsFollowTheShaft : Obligations.EncoderChannelsFollowTheShaft := by
  unfold Obligations.EncoderChannelsFollowTheShaft
  refine ⟨?_, ?_, ?_, ?_⟩
  · intro c v s hl src cyc bad
    have hbad : channelBad src cyc = true ↔ bad := channelBad_iff src cyc
    have h := channelCfg_configured s c v
    refine ⟨_, execBrChCfgWrite_live s c v hl, h.invalid, h.fresh, h.image, fun e => h.refused (hbad.2 e),
      fun e => h.taken fun e' => e (hbad.1 e'), fun e hon => ?_, fun hq => ?_⟩
    · have hno : ¬ channelBad src cyc = true := fun e' => e (hbad.1 e')
      exact (h.quantum hno hon).trans (quantOf_mod (Bool.eq_false_iff.2 hno))
    · exact (h.within hq).frame (by simp [theRegs, cfgRegs]) (List.Subset.refl _)
  · intro e fwd fast s hon cs counted
    obtain ⟨t, hx, hcount, hedge, hquiet⟩ := execQuadratureEdge_follows s e fwd fast hon
    refine ⟨t, hx, hcount, fun c hc => ?_, fun hq => ?_⟩
    · have h := hedge c hc
      exact ⟨fun hk => ⟨h.count hk, h.phase hk⟩, h.kept, h.overspeed⟩
    · obtain ⟨hw, hwin, hdesc, hbear⟩ := hquiet hq
      exact ⟨hw.frame (fun q k hk => (reg_mem_allCells _ _ q k).1 (hk.resolve_right (by simp))) (List.Subset.refl _), hwin, hdesc,
        hbear⟩
  · intro e s hon cs
    have hset := indexes_set s e
    have hr : s.rxOn (0x10 + e) = true := by
      unfold abzMode at hon
      exact (Bool.and_eq_true_iff.1 hon).1
    have hx := execZPulse_on s e hon
    generalize forEach (zChannels s e) State.channelIndex (zPort s e) = u at *
    have hn := naturalSample_within u (0x10 + e)
    refine ⟨_, hx, ?_, fun c hc => ?_, fun hq hnone => ?_, fun n hq hone ht hs hp => ?_⟩
    · exact (congrArg (fun m => m.2.1) (hn.port (0x10 + e) (by simp))).trans hset.zCount
    · have h := (hset.indexed c hc).congr (.refl s) hn (by simp) (by simp [chanKept]) (by simp)
      exact ⟨h.count, h.phase, h.resynced⟩
    · obtain ⟨hw, -⟩ := hset.still hq
      have hr' : u.rxOn (0x10 + e) = true := (hw.rxOn _ (by simp) (by simp [chanRegs])).trans hr
      have hnone' : u.naturals (0x10 + e) = [] :=
        (naturals_congr _ fun m => hw.reg _ _ rfl (by simp [chanRegs])).trans hnone
      rw [naturalSample_unmatched u _ hr' hnone']
      have h := (hw.mono Set.subset_union_left (List.Subset.refl _)).next (unmatched_within u (0x10 + e)) Set.subset_union_right
        (List.nil_subset _)
      refine h.frame (fun q k hk => ?_) (List.Subset.refl _)
      rcases hk with (hk | hk) | hk
      · exact .inl ((reg_mem_allCells _ _ q k).1 hk)
      · simp at hk
      · exact .inr (by simpa [oneReg] using hk)
    · exact indexSet_taken hset e.isLt hr hq hone ht hs hp
  · exact fun e s hon => execLineBreak_loses s e hon

end Sys2Proof.Proofs
end

section
/-! What keeps the transactions of the ports (R70, R83): windows that close, and units taken by descriptors. -/

namespace Sys2Proof.Proofs

open Sys2Proof Sys2Proof.Machine Sys2Proof.Machine.State Sys2Proof.Safety

variable (s : State)

theorem Within.ports {S : Set Cell} {ps : List Part} {s t : State} (h : Within S ps s t) (hp : Part.ingress ∉ ps) :
    t.ports = s.ports := (h.same .ingress hp).1

theorem ports_of_logs {s t : State} (h : Logs s t) : t.ports = s.ports := by rw [h.shape]

theorem port_of_ports {s t : State} (h : t.ports = s.ports) (p : Nat) : t.port p = s.port p := by
  unfold State.port
  rw [h]

theorem forEach_ports {α : Type} (f : α → State → State) (hf : ∀ a u, (f a u).ports = u.ports) (l : List α) :
    (forEach l f s).ports = s.ports := by
  induction l using List.reverseRecOn with
  | nil => rfl
  | append_singleton l a ih =>
    rw [forEach_append]
    exact (hf a _).trans ih

/-! ## Windows -/

theorem windowVoid_ports (n : Nat) (k : Nat × Nat) : (s.windowVoid n k).ports = s.ports := by
  unfold windowVoid
  dsimp only
  split
  · rfl
  · exact (ports_of_logs (count_logs _ _ _ _ _)).trans rfl

theorem windowRecord_ports (w : Nat) (a b len : W32) (inv sub inc : Bool) :
    (s.windowRecord w a b len inv sub inc).ports = s.ports := by
  unfold windowRecord
  dsimp only
  split
  · rfl
  · show (if inv || sub || inc then s.windowVoid _ _ else s).ports = s.ports
    split
    · exact windowVoid_ports s _ _
    · rfl

theorem shown_ports (w : Nat) : (shown s w).ports = s.ports := by
  have h := windowRecord_ports s w (reading s w).a (reading s w).b (reading s w).len (reading s w).inv (reading s w).sub
    (reading s w).inc
  unfold shown
  dsimp only
  generalize s.windowRecord w _ _ _ _ _ _ = u at *
  exact ((showWindow_within u w _ _ _ _ _ _).ports (by simp)).trans h

theorem windowDone_ports (w : Nat) (byStart again : Bool) : (s.windowDone w byStart again).ports = s.ports := by
  have h := shown_ports s w
  rw [windowDone_eq]
  generalize shown s w = u at *
  split
  · exact ((setWin_within u w _).ports (by simp)).trans h
  · exact ((setWin_within _ w _).ports (by simp)).trans (((fset_within u F.BR_WIN_STAT_ARMED w 0).ports (by simp)).trans h)

theorem windowsLost_ports (c : Nat) : (s.windowsLost c).ports = s.ports :=
  forEach_ports s (fun w s => s.windowDone w false true) (fun w u => windowDone_ports u w false true) _

theorem sourceLost_ports (cause c : Nat) : (sourceLost cause c s).ports = s.ports := by
  rw [sourceLost_eq]
  exact (ports_of_logs (bearingTrace_logs _ c)).trans (((lossRecorded_within _ cause c).ports (by simp)).trans
    ((windowsLost_ports _ c).trans ((channelInvalid_within s c).ports (by simp))))

/-! ## Units -/

theorem dropUnit_ports (n cause : Nat) : (s.dropUnit n cause).ports = s.ports := by
  unfold dropUnit
  refine (ports_of_logs (traceEv_logs _ _ _ _ _)).trans ?_
  have h := fun u : State => ports_of_logs (count_logs u 0x121 (some n) (some (s.fget F.ING_D_CFG_PART n)) 1)
  split <;> exact h _

theorem unitStart_ports (n flags info want : Nat) (g : Option Gating) : (s.unitStart n flags info want g).ports = s.ports := by
  unfold unitStart
  split
  · exact (ports_of_logs (count_logs (s.fadd F.ING_D_CNT1_QUIET n 1) 0x122 (some n) (some (s.fget F.ING_D_CFG_PART n)) 1)).trans rfl
  · unfold unitTake
    dsimp only
    split
    · exact dropUnit_ports _ n 4
    · split
      · exact dropUnit_ports _ n _
      · rfl

theorem grain_ports (n : Nat) (bs : List Byte) (line : Bool) : (s.grain n bs line).ports = s.ports := by
  unfold grain
  dsimp only
  split
  · rfl
  · split
    · exact (ports_of_logs (count_logs (s.fadd F.ING_D_CNT1_GATED n 1) 0x123 (some n) (some (s.fget F.ING_D_CFG_PART n)) 1)).trans rfl
    · split
      · rfl
      · split
        · rfl
        · exact dropUnit_ports _ n 3

theorem unitEnd_ports (n : Nat) : (s.unitEnd n).ports = s.ports := by
  unfold unitEnd
  dsimp only
  split
  · rfl
  · split <;> rfl

/-! ## Transactions -/

/-- A transaction ends: the port is free (R70, R83). -/
theorem serialEnd_port (src : Nat) (bs : List Byte) :
    (s.serialEnd src bs).port src = { s.port src with busy := false, serving := [] } := by
  have h := forEach_ports (s.setPort src { s.port src with busy := false, serving := [] }) (fun n s => (s.grain n bs false).unitEnd n)
    (fun n u => (unitEnd_ports _ n).trans (grain_ports u n bs false)) (s.port src).serving
  exact (port_of_ports h src).trans (port_setPort s src _)

/-- The start of what waits, where the port is free (R83). -/
def startAsk (src : Nat) (q : Ask) (rest : List Ask) : State :=
  forEach q.descs (fun n s => s.unitStart n (if q.latched.contains n then 256 else 0) 0 (s.serialBytes src) (some (s.gateNow n)))
    (s.setPort src { s.port src with waiting := rest, busy := true, serving := q.descs, began := s.ticks })

theorem startAsk_port (src : Nat) (q : Ask) (rest : List Ask) : (startAsk s src q rest).port src =
    { s.port src with waiting := rest, busy := true, serving := q.descs, began := s.ticks } := by
  have h := forEach_ports (s.setPort src { s.port src with waiting := rest, busy := true, serving := q.descs, began := s.ticks })
    (fun n s => s.unitStart n (if q.latched.contains n then 256 else 0) 0 (s.serialBytes src) (some (s.gateNow n)))
    (fun n u => unitStart_ports u n _ _ _ _) q.descs
  exact (port_of_ports h src).trans (port_setPort s src _)

theorem serialStart_none (src : Nat) (h : (s.port src).waiting = []) : s.serialStart src = s := by
  unfold serialStart
  simp only [h]

theorem serialStart_busy (src : Nat) (h : (s.port src).busy = true) : s.serialStart src = s := by
  unfold serialStart
  dsimp only
  split
  · rfl
  · exact if_pos h

theorem serialStart_free (src : Nat) (q : Ask) (rest : List Ask) (h : (s.port src).waiting = q :: rest)
    (hb : (s.port src).busy = false) : s.serialStart src = startAsk s src q rest := by
  unfold serialStart startAsk
  simp only [h, hb, Bool.false_eq_true, if_false]

end Sys2Proof.Proofs
end

section
/-! Mains and camera channels: PLL ticks, zero-crossings, and the loss of their sources (R39, R44, R70). -/

namespace Sys2Proof.Proofs

open Sys2Proof Sys2Proof.Machine Sys2Proof.Machine.State Sys2Proof.Safety

variable (s : State)

/-! ## Lost sources -/

/-- The pass of a mains timeout: the source is lost, and the next crossing counts as the first (R44). -/
def mainsGone (c : Nat) (s : State) : State := (sourceLost 3 c s).setBearing c { (sourceLost 3 c s).bearing c with seen := false }

theorem mainsGone_eq (c : Nat) : ∃ b, mainsGone c s = (sourceLost 3 c s).setBearing c b ∧ b.seen = false := ⟨_, rfl, rfl⟩

theorem mainsGone_lossPass : LossPass mainsGone where
  within c u := by
    obtain ⟨b, hb, -⟩ := mainsGone_eq u c
    rw [hb]
    exact (sourceLost_within u 3 c).next (setBearing_within _ c b) (fun _ hx => .inl (.inl (.inr hx))) (by simp)
  lost c u := by
    obtain ⟨b, hb, -⟩ := mainsGone_eq u c
    obtain ⟨hv, hl⟩ := (sourceLost_gone u 3 c).lost
    rw [hb]
    exact ⟨hv, hl⟩
  closes c u w hw ha hd hc hv := by
    obtain ⟨b, hb, -⟩ := mainsGone_eq u c
    have h := sourceLost_closes u 3 c w hw ha hd hc hv
    rw [hb]
    generalize sourceLost 3 c u = v at *
    exact h.congr (.refl u) (setBearing_within v c b) (by simp)
  still c u hq hw := by
    obtain ⟨b, hb, -⟩ := mainsGone_eq u c
    rw [hb]
    exact (sourceLost_still u 3 c hq hw).next (setBearing_within _ c b) Set.subset_union_right (List.Subset.refl _)

theorem LossPass.all_bearing {f : Nat → State → State} (h : LossPass f) {cs : List Nat} (hn : cs.Nodup) (c : Nat) (hc : c ∈ cs) :
    ∃ u, (forEach cs f s).bearing c = (f c u).bearing c := by
  obtain ⟨u, R, rfl, -, ht⟩ := h.pass s hn c hc
  refine ⟨u, ht.bearing c ?_⟩
  rintro ⟨b, -, hb, hx⟩
  exact (lostCells_other s b c hb).2.1 hx

theorem mainsGone_seen {cs : List Nat} (hn : cs.Nodup) : ∀ c ∈ cs, ((forEach cs mainsGone s).bearing c).seen = false := by
  intro c hc
  obtain ⟨u, hu⟩ := mainsGone_lossPass.all_bearing s hn c hc
  obtain ⟨b, hb, hseen⟩ := mainsGone_eq u c
  rw [hu, hb, bearing_setBearing, hseen]

theorem execMainsTimeout_eq (m : Fin 3) : exec (.mainsTimeout m) s =
    .next (forEach (s.channels 3 m) mainsGone (s.fset F.ING_PORT_STAT_LINK (0x28 + m) 0)) := by
  rw [← channels_congr (s := s) (t := s.fset F.ING_PORT_STAT_LINK (0x28 + m) 0) 3 m fun c =>
    (fset_within s F.ING_PORT_STAT_LINK (0x28 + m) 0).reg _ _ rfl (by simp)]
  rfl

/-- What a mains timeout leaves of its port, of each channel, and beside them (R44, R60, R64). -/
theorem execMainsTimeout_loses (m : Fin 3) : let cs := s.channels 3 m
    ∃ t, exec (.mainsTimeout m) s = .next t ∧ t.flag F.ING_PORT_STAT_LINK (40 + m) = false ∧
      (∀ c ∈ cs, Lost t c ∧ (t.bearing c).seen = false) ∧ WindowsClosed s t cs ∧
      (Quiet s cs → Unwatched s cs → Frame (fun q k => regsAt [.BR_CH_STAT] cs q k ∨ oneReg .ING_PORT_STAT (40 + m) q k) [.phase] s t) := by
  intro cs
  have hp := fset_within s F.ING_PORT_STAT_LINK (40 + m) 0
  have hlink := flag_fset_zero s F.ING_PORT_STAT_LINK (40 + m) rfl (by decide)
  have hx := execMainsTimeout_eq s m
  have hl := mainsGone_lossPass
  have hn : cs.Nodup := channels_nodup s 3 m
  change exec (.mainsTimeout m) s = .next (forEach cs mainsGone (s.fset F.ING_PORT_STAT_LINK (40 + m) 0)) at hx
  generalize s.fset F.ING_PORT_STAT_LINK (40 + m) 0 = u at *
  have hloud := loud_forEach u mainsGone (fun c u => (hl.within c u).mono (lostCells_subset_loud u c) (by simp [firedParts, actParts])) cs
  refine ⟨_, hx, ?_, fun c hc => ⟨hl.all_lost u hn c hc, mainsGone_seen u hn c hc⟩, ?_, fun hq hw => ?_⟩
  · exact (hloud.flag _ _ rfl (reg_not_mem_allLoud _ _ _ (by decide))).trans hlink
  · exact windowsClosed_congr (hl.all_closed u hn) hp (by simp) (by simp)
  · have hs := hl.all_still u (hp.quiet hq (by simp)) (unwatched_congr hw hp (by simp))
    have h := (hp.mono (S' := regCells [.ING_PORT_STAT] (40 + m) ∪ allCells [.BR_CH_STAT] cs) (ps' := [.phase])
      Set.subset_union_left (List.nil_subset _)).next hs Set.subset_union_right (List.Subset.refl _)
    refine h.frame (fun q k hk => ?_) (List.Subset.refl _)
    rcases hk with hk | hk
    · exact .inr (by simpa [oneReg] using hk)
    · exact .inl ((reg_mem_allCells _ _ q k).1 hk)

/-- The last loss of a loop is the newest fault (R262). -/
theorem losses_newest (cause : Nat) {cs : List Nat} (h : cs ≠ []) : Newest (forEach cs (sourceLost cause) s) 8 cause := by
  induction cs using List.reverseRecOn with
  | nil => exact absurd rfl h
  | append_singleton l c =>
    rw [forEach_append]
    exact sourceLost_newest _ cause c

/-! ## Ticks of the PLL -/

/-- The pass of a PLL tick (R39). -/
def pllStep (c : Nat) (s : State) : State := s.phaseUpdate c ((s.bearing c).src + (s.bearing c).inc) false false

theorem pllSteps_updated {cs : List Nat} (hn : cs.Nodup) {c : Nat} (hc : c ∈ cs) :
    Updated s (forEach cs pllStep s) c ((s.bearing c).src + (s.bearing c).inc) false := by
  obtain ⟨u, hu, ht⟩ := chan_pass s pllStep (fun b u => phaseUpdate_within u b _ false false) cs hn c hc
  have h := phaseUpdate_updated u c ((u.bearing c).src + (u.bearing c).inc) false false
  rw [hu.bearing c (bearing_mem_otherCells c)] at h
  have ht' : Within (otherCells c) firedParts (u.phaseUpdate c ((s.bearing c).src + (s.bearing c).inc) false false)
      (forEach cs pllStep s) := by
    rw [← hu.bearing c (bearing_mem_otherCells c)]
    exact ht
  exact h.congr hu ht' (by simp [firedParts, actParts]) (fun q hq => chanReg_not_mem_otherCells q c hq) (bearing_mem_otherCells c)

theorem pllSteps_still {cs : List Nat} (hq : Quiet s cs) : Still (allCells chanRegs cs) s (forEach cs pllStep s) :=
  still_forEach s pllStep (fun c u hu => phaseUpdate_still u c _ false false hu) hq

theorem execMainsPllTick_eq (m : Fin 3) : exec (.mainsPllTick m) s =
    .next (forEach ((s.channels 3 m).filter (fun c => s.flag F.BR_CH_STAT_VALID c)) pllStep s) := rfl

/-! ## Zero-crossings -/

/-- A zero-crossing whose period is out of 45-65 Hz (R44). -/
def outOfBand (ns : W32) (b : Bearing) : Prop := b.seen = true ∧ (ns.toNat < 15384616 ∨ 22222222 < ns.toNat)

/-- The increment of the PLL after a zero-crossing (R39; log entry 15). -/
def nextInc (c : Nat) (ns : W32) : W32 := Config.pllNext (s.fget F.BR_CH_CFG_CYCLE c % 4) (s.bearing c).inc (s.bearing c).src ns

/-- Whether the PLL is locked after a zero-crossing (R39; log entry 15). -/
def nowLocked (c : Nat) (ns : W32) : Bool := Config.pllLocked (s.fget F.BR_CH_CFG_CYCLE c % 4) (s.bearing c).inc (s.bearing c).src ns

/-- A channel's PLL trimmed (R39). -/
def pllTrimmed (c : Nat) (ns : W32) : State :=
  (s.setBearing c { s.bearing c with inc := nextInc s c ns, seen := true }).fset F.BR_CH_QUANT_QUANT c (nextInc s c ns).toNat

/-- The first zero-crossing makes a channel valid at phase 0 (R39). -/
def firstCrossing (c : Nat) (s : State) : State := if s.flag F.BR_CH_STAT_VALID c then s else s.phaseUpdate c 0 false false

theorem natBits_two (x : Nat) : natBits x 0 2 = x % 4 := by simp [natBits]

theorem channelMains_out (ns : W32) (c : Nat) (h : outOfBand ns (s.bearing c)) :
    channelMains ns c s = if s.flag F.BR_CH_STAT_VALID c then sourceLost 3 c s else s := by
  obtain ⟨hseen, hout⟩ := h
  have hdec : (decide (ns.toNat < 15384616) || decide (22222222 < ns.toNat)) = true := by simpa using hout
  unfold channelMains
  simp only [hseen, hdec, Bool.and_true, if_true]

theorem channelMains_in (ns : W32) (c : Nat) (h : ¬ outOfBand ns (s.bearing c)) : channelMains ns c s =
    (firstCrossing c (pllTrimmed s c ns)).fset F.BR_CH_STAT_PLL_LOCKED c (if nowLocked s c ns then 1 else 0) := by
  have hno : ((s.bearing c).seen && (decide (ns.toNat < 15384616) || decide (22222222 < ns.toNat))) = false := by
    rw [Bool.eq_false_iff]
    simpa [outOfBand] using h
  unfold channelMains firstCrossing pllTrimmed nowLocked nextInc
  simp only [hno, Bool.false_eq_true, if_false, natBits_two]

/-- What a zero-crossing leaves of a channel (R39, R44). -/
structure Crossed (s t : State) (c : Nat) (ns : W32) : Prop where
  lost : outOfBand ns (s.bearing c) → s.flag F.BR_CH_STAT_VALID c = true → Lost t c
  stays : outOfBand ns (s.bearing c) → s.flag F.BR_CH_STAT_VALID c = false → t.flag F.BR_CH_STAT_VALID c = false
  inc : ¬ outOfBand ns (s.bearing c) → (t.bearing c).inc = nextInc s c ns
  locked : ¬ outOfBand ns (s.bearing c) → t.flag F.BR_CH_STAT_PLL_LOCKED c = nowLocked s c ns
  valid : ¬ outOfBand ns (s.bearing c) → t.flag F.BR_CH_STAT_VALID c = true
  first : ¬ outOfBand ns (s.bearing c) → s.flag F.BR_CH_STAT_VALID c = false → AtPhase s t c 0

theorem Crossed.congr {s s' t t' : State} {S : Set Cell} {ps : List Part} {c : Nat} {ns : W32} (h : Crossed s' t' c ns)
    (hs : Within S ps s s') (ht : Within S ps t' t) (hp : Part.time ∉ ps) (hr : ∀ q ∈ chanKept, Cell.reg q c ∉ S)
    (hb : Cell.bearing c ∉ S) : Crossed s t c ns := by
  have hstat : Cell.reg .BR_CH_STAT c ∉ S := hr _ (by simp [chanKept])
  have hbear := hs.bearing c hb
  have hcyc := hs.fget F.BR_CH_CFG_CYCLE c rfl (hr .BR_CH_CFG (by simp [chanKept]))
  have hinc : nextInc s' c ns = nextInc s c ns := by rw [nextInc, nextInc, hbear, hcyc]
  have hlock : nowLocked s' c ns = nowLocked s c ns := by rw [nowLocked, nowLocked, hbear, hcyc]
  have hv := hs.flag F.BR_CH_STAT_VALID c rfl hstat
  obtain ⟨h1, h2, h3, h4, h5, h6⟩ := h
  rw [hbear, hv] at h1 h2 h6
  rw [hbear] at h3 h4 h5
  refine ⟨fun e e' => ?_, fun e e' => ?_, fun e => ?_, fun e => ?_, fun e => ?_, fun e e' => atPhase_congr (h6 e e') hs ht hp hr⟩
  · obtain ⟨hval, hlost⟩ := h1 e e'
    exact ⟨(ht.flag _ _ rfl hstat).trans hval, (ht.flag _ _ rfl hstat).trans hlost⟩
  · rw [ht.flag _ _ rfl hstat, h2 e e']
  · rw [ht.bearing c hb, h3 e, hinc]
  · rw [ht.flag _ _ rfl hstat, h4 e, hlock]
  · rw [ht.flag _ _ rfl hstat, h5 e]

/-- The registers of a mains channel that a zero-crossing changes. -/
def mainsRegs : List Reg := [.BR_CH_PHASE, .BR_CH_STAMP, .BR_CH_STAT, .BR_CH_QUANT]

theorem pllTrimmed_within (c : Nat) (ns : W32) : Within (regCells [.BR_CH_QUANT] c ∪ {.bearing c}) [.phase] s (pllTrimmed s c ns) :=
  ((setBearing_within s c _).mono Set.subset_union_right (List.Subset.refl _)).thenFset F.BR_CH_QUANT_QUANT c _ (.inl (by simp))

theorem pllTrimmed_bearing (c : Nat) (ns : W32) :
    (pllTrimmed s c ns).bearing c = { s.bearing c with inc := nextInc s c ns, seen := true } := bearing_setBearing s c _

/-- A channel after its crossing, before its lock is shown. -/
theorem firstCrossing_crossed (c : Nat) (x : W32) (h : (s.bearing c).inc = x) : ((firstCrossing c s).bearing c).inc = x ∧
    (firstCrossing c s).flag F.BR_CH_STAT_VALID c = true ∧
    (s.flag F.BR_CH_STAT_VALID c = false → AtPhase s (firstCrossing c s) c 0) := by
  have hup := phaseUpdate_updated s c 0 false false
  unfold firstCrossing
  split
  next hv => exact ⟨h, hv, fun e => absurd hv (by rw [e]; decide)⟩
  · exact ⟨by rw [hup.shown.bearing]; exact h, hup.valid, fun _ => hup.atPhase (y := 0)⟩

theorem channelMains_crossed (ns : W32) (c : Nat) : Crossed s (channelMains ns c s) c ns := by
  by_cases h : outOfBand ns (s.bearing c)
  · rw [channelMains_out s ns c h]
    have hno : ∀ {P : Prop}, ¬ outOfBand ns (s.bearing c) → P := fun e => absurd h e
    refine ⟨fun _ hv => ?_, fun _ hv => ?_, hno, hno, hno, hno⟩
    · rw [if_pos hv]
      exact (sourceLost_gone s 3 c).lost
    · rw [hv, if_neg Bool.false_ne_true, hv]
  · rw [channelMains_in s ns c h]
    have hw := pllTrimmed_within s c ns
    obtain ⟨hinc, hvalid, hfirst⟩ := firstCrossing_crossed (pllTrimmed s c ns) c (nextInc s c ns) (by rw [pllTrimmed_bearing])
    generalize pllTrimmed s c ns = u at *
    have hval : u.flag F.BR_CH_STAT_VALID c = s.flag F.BR_CH_STAT_VALID c := hw.flag _ _ rfl (by simp)
    have hoff : u.fget F.BR_CH_OFFSET_OFFSET c = s.fget F.BR_CH_OFFSET_OFFSET c := hw.fget _ _ rfl (by simp)
    have hnow := (hw.time (by simp)).1
    generalize firstCrossing c u = v at *
    have hf := fset_within v F.BR_CH_STAT_PLL_LOCKED c (if nowLocked s c ns then 1 else 0)
    have hkeep := (flag_fset_field v F.BR_CH_STAT_PLL_LOCKED F.BR_CH_STAT_VALID c (if nowLocked s c ns then 1 else 0) rfl
      (by decide)).trans hvalid
    refine ⟨fun e => absurd e h, fun e => absurd e h, fun _ => ?_, fun _ => ?_, fun _ => hkeep, fun _ e => ⟨?_, ?_, hkeep⟩⟩
    · rw [hf.bearing c (by simp), hinc]
    · exact flag_fset_bit v F.BR_CH_STAT_PLL_LOCKED c _ rfl (by decide)
    · rw [hf.fget _ _ rfl (by simp), (hfirst (hval.trans e)).1, hoff]
    · rw [hf.fget _ _ rfl (by simp), (hfirst (hval.trans e)).2.1, hnow]

theorem channelMains_loud (ns : W32) (c : Nat) : Within (loudCells c) firedParts s (channelMains ns c s) := by
  by_cases h : outOfBand ns (s.bearing c)
  · rw [channelMains_out s ns c h]
    exact .ite _ (sourceLost_loud s 3 c) (.refl s)
  · rw [channelMains_in s ns c h]
    have hw : Within (loudCells c) firedParts s (pllTrimmed s c ns) := (pllTrimmed_within s c ns).mono (by
      rintro x (hx | hx)
      · exact .inr (.inr hx)
      · exact .inl (.inr hx)) (by simp [firedParts])
    have hf : Within (loudCells c) firedParts s (firstCrossing c (pllTrimmed s c ns)) :=
      .ite _ hw (hw.trans (phaseUpdate_within _ c 0 false false))
    exact hf.thenFset F.BR_CH_STAT_PLL_LOCKED c _ (.inl (.inl (by simp [chanRegs])))

theorem channelMains_lone (ns : W32) (c : Nat) (hq : s.phaseAlarms c = [])
    (hw : ∀ w, w < 32 → s.flag F.BR_WIN_STAT_ARMED w = true → s.flag F.BR_WIN_CFG_DOMAIN w = true → s.fget F.BR_WIN_CFG_CHANNEL w ≠ c) :
    Within (regCells mainsRegs c ∪ {.bearing c}) [.phase] s (channelMains ns c s) := by
  by_cases h : outOfBand ns (s.bearing c)
  · rw [channelMains_out s ns c h]
    exact .ite _ ((sourceLost_still s 3 c hq hw).mono
      (Set.union_subset_union_left _ (regCells_mono (by simp [mainsRegs]) c)) (List.Subset.refl _)) (.refl s)
  · rw [channelMains_in s ns c h]
    have ht := pllTrimmed_within s c ns
    have hq' : (pllTrimmed s c ns).phaseAlarms c = [] := (ht.phaseAlarms c (by simp)).trans hq
    have ht' := ht.mono (Set.union_subset_union_left _ (regCells_mono (show [Reg.BR_CH_QUANT] ⊆ mainsRegs by simp [mainsRegs]) c))
      (List.Subset.refl _)
    have hf : Within (regCells mainsRegs c ∪ {.bearing c}) [.phase] s (firstCrossing c (pllTrimmed s c ns)) :=
      .ite _ ht' (ht'.next (phaseUpdate_still _ c 0 false false hq').within
        (Set.union_subset_union_left _ (regCells_mono (by simp [mainsRegs, chanRegs]) c)) (List.Subset.refl _))
    exact hf.thenFset F.BR_CH_STAT_PLL_LOCKED c _ (.inl (by simp [mainsRegs]))

/-! ## The port of a zero-crossing -/

theorem mainsFreq_within (m : Nat) : Within ∅ [] s (s.mainsFreq m).2 := by
  unfold mainsFreq
  split
  · exact .refl s
  · exact within_of_regs rfl rfl rfl rfl rfl (fun p _ => by cases p <;> simp [Same, draw]) (fun _ _ => rfl) (fun _ _ => rfl)
      (fun _ _ => rfl)

/-- A zero-crossing at its port: LINK, the period, and the frequency of the first channel's PLL (R64, R70). -/
def crossingPort (m : Nat) (ns : W32) : State :=
  ((s.mainsFreq m).2.setPort (0x28 + m) { (s.mainsFreq m).2.port (0x28 + m) with period := ns, freq := (s.mainsFreq m).1 }).fset
    F.ING_PORT_STAT_LINK (0x28 + m) 1

theorem crossingPort_within (m : Nat) (ns : W32) :
    Within (regCells [.ING_PORT_STAT] (0x28 + m) ∪ {.port (0x28 + m)}) [.ingress] s (crossingPort s m ns) := by
  have h := (mainsFreq_within s m).mono (Set.empty_subset (regCells [.ING_PORT_STAT] (0x28 + m) ∪ {.port (0x28 + m)}))
    (List.nil_subset [.ingress])
  exact (h.next (setPort_within _ _ _) Set.subset_union_right (List.Subset.refl _)).thenFset F.ING_PORT_STAT_LINK _ 1
    (.inl (by simp))

theorem crossingPort_shown (m : Nat) (ns : W32) : ((crossingPort s m ns).port (0x28 + m)).period = ns ∧
    (crossingPort s m ns).flag F.ING_PORT_STAT_LINK (0x28 + m) = true :=
  ⟨congrArg Port.period (port_setPort (s.mainsFreq m).2 (0x28 + m) _), flag_fset_one _ F.ING_PORT_STAT_LINK _ rfl (by decide)⟩

theorem execZeroCrossing_on (m : Fin 3) (ns : W32) (h : s.rxOn (0x28 + m) = true) : exec (.zeroCrossing m ns) s =
    .next ((crossingPort (forEach (s.channels 3 m) (channelMains ns) s) m ns).naturalSample (0x28 + m)) := by
  show Host.Outcome.next (if !(s.rxOn (0x28 + m)) then s else _) = _
  rw [h, Bool.not_true, if_neg Bool.false_ne_true]
  rfl

theorem crossings_crossed (ns : W32) {cs : List Nat} (hn : cs.Nodup) {c : Nat} (hc : c ∈ cs) :
    Crossed s (forEach cs (channelMains ns) s) c ns := by
  obtain ⟨u, hu, ht⟩ := chan_pass s (channelMains ns) (fun b u => channelMains_loud u ns b) cs hn c hc
  exact (channelMains_crossed u ns c).congr hu ht (by simp [firedParts, actParts])
    (fun q hq => chanReg_not_mem_otherCells q c hq) (bearing_mem_otherCells c)

/-- What a zero-crossing leaves of its port, of each channel, and beside them (R39, R44, R64, R70). -/
theorem execZeroCrossing_crosses (m : Fin 3) (ns : W32) (h : s.rxOn (40 + m) = true) :
    let cs := s.channels 3 m
    ∃ t, exec (.zeroCrossing m ns) s = .next t ∧ (t.port (40 + m)).period = ns ∧ t.flag F.ING_PORT_STAT_LINK (40 + m) = true ∧
      (∀ c ∈ cs, Crossed s t c ns) ∧ (Quiet s cs → Unwatched s cs → s.naturals (40 + m) = [] →
        Within (allCells mainsRegs cs ∪ (regCells [.ING_PORT_STAT, .ING_PORT_CNT] (40 + m) ∪ {.port (40 + m)}))
          [.phase, .ingress] s t) := by
  intro cs
  have hx := execZeroCrossing_on s m ns h
  have hcross := fun c (hc : c ∈ cs) => crossings_crossed s ns (channels_nodup s 3 m) hc
  have hlone := lone_forEach s mainsRegs (by decide) (channelMains ns) (fun c u => channelMains_lone u ns c) (cs := cs)
  change exec (.zeroCrossing m ns) s = .next ((crossingPort (forEach cs (channelMains ns) s) m ns).naturalSample (0x28 + m)) at hx
  generalize forEach cs (channelMains ns) s = u at *
  have hp := crossingPort_within u m ns
  obtain ⟨hperiod, hlink⟩ := crossingPort_shown u m ns
  generalize crossingPort u m ns = v at *
  have hn := naturalSample_within v (0x28 + m)
  refine ⟨_, hx, ?_, ?_, fun c hc => ?_, fun hq hw hnone => ?_⟩
  · exact (congrArg (fun x => x.2.2.2.2) (hn.port (0x28 + m) (by simp))).trans hperiod
  · exact (hn.flag _ _ rfl (by simp)).trans hlink
  · exact ((hcross c hc).congr (.refl s) hp (by simp) (by simp [chanKept]) (by simp)).congr (.refl s) hn (by simp)
      (by simp [chanKept]) (by simp)
  · have huv := (hlone hq hw).mono (S' := allCells mainsRegs cs ∪ (regCells [.ING_PORT_STAT, .ING_PORT_CNT] (40 + m) ∪ {.port (40 + m)}))
      (ps' := [.phase, .ingress]) Set.subset_union_left (by simp)
    have hv := huv.next hp (Set.subset_union_of_subset_right (Set.union_subset_union_left _ (regCells_mono (by simp) _)) _) (by simp)
    have hr : v.rxOn (0x28 + m) = true := (hv.rxOn _ (by simp) (by simp [mainsRegs])).trans h
    have hnat : v.naturals (0x28 + m) = [] := (naturals_congr _ fun n => hv.reg _ _ rfl (by simp [mainsRegs])).trans hnone
    rw [naturalSample_unmatched v _ hr hnat]
    exact hv.next (unmatched_within v _) (Set.subset_union_of_subset_right
      (Set.subset_union_of_subset_left (regCells_mono (by simp) _) _) _) (List.nil_subset _)

end Sys2Proof.Proofs
end

section
/-! SSI encoders: frames and polls (R40, R44, R70, R72, R83); and O37. -/

namespace Sys2Proof.Proofs

open Sys2Proof Sys2Proof.Machine Sys2Proof.Machine.State Sys2Proof.Safety

variable (s : State)

/-! ## A position, or a miss, of one channel -/

/-- The source phase of a position, at the channel's own resolution (R40). -/
def ssiPhase (c v : Nat) : Nat := v * 2 ^ (32 - s.fget F.BR_CH_CFG_CYCLE c % 64)

theorem channelSsi_some (v c : Nat) : channelSsi (some v) c s = s.phaseForce c (BitVec.ofNat 32 (ssiPhase s c v)) := by
  have h : ∀ x : Nat, natBits x 0 6 = x % 64 := fun x => by simp [natBits]
  show s.phaseForce c (BitVec.ofNat 32 (v * 2 ^ (32 - natBits (s.fget F.BR_CH_CFG_CYCLE c) 0 6))) = _
  rw [h]
  rfl

theorem channelSsi_none (c : Nat) : channelSsi none c s = if (s.bearing c).missed = 2 then sourceLost 2 c s
    else s.setBearing c { s.bearing c with missed := (s.bearing c).missed + 1 } := rfl

/-- What a frame's position, or its want, leaves of a channel (R40, R44). -/
structure Polled (s t : State) (c : Nat) (pos : Option Nat) : Prop where
  shown : ∀ v, pos = some v → AtPhase s t c (ssiPhase s c v) ∧ (t.bearing c).missed = 0
  lost : pos = none → (s.bearing c).missed = 2 → Lost t c ∧ (t.bearing c).missed = 0
  missed : pos = none → (s.bearing c).missed ≠ 2 → (t.bearing c).missed = (s.bearing c).missed + 1 ∧
    t.rget .BR_CH_STAT c = s.rget .BR_CH_STAT c

theorem Polled.congr {s s' t t' : State} {S : Set Cell} {ps : List Part} {c : Nat} {pos : Option Nat} (h : Polled s' t' c pos)
    (hs : Within S ps s s') (ht : Within S ps t' t) (hp : Part.time ∉ ps) (hr : ∀ q ∈ chanKept, Cell.reg q c ∉ S)
    (hb : Cell.bearing c ∉ S) : Polled s t c pos := by
  have hstat : Cell.reg .BR_CH_STAT c ∉ S := hr _ (by simp [chanKept])
  have hbs := hs.bearing c hb
  have hbt := ht.bearing c hb
  obtain ⟨h1, h2, h3⟩ := h
  rw [hbs] at h2 h3
  refine ⟨fun v e => ?_, fun e hm => ?_, fun e hm => ?_⟩
  · obtain ⟨hat, hm⟩ := h1 v e
    have hx : ssiPhase s' c v = ssiPhase s c v := by
      rw [ssiPhase, ssiPhase, hs.fget F.BR_CH_CFG_CYCLE c rfl (hr .BR_CH_CFG (by simp [chanKept]))]
    rw [hx] at hat
    exact ⟨atPhase_congr hat hs ht hp hr, by rw [hbt, hm]⟩
  · obtain ⟨⟨hv, hl⟩, hm'⟩ := h2 e hm
    exact ⟨⟨(ht.flag _ _ rfl hstat).trans hv, (ht.flag _ _ rfl hstat).trans hl⟩, by rw [hbt, hm']⟩
  · obtain ⟨hm', hreg⟩ := h3 e hm
    exact ⟨by rw [hbt, hm'], by rw [ht.reg _ _ rfl hstat, hreg, hs.reg _ _ rfl hstat]⟩

theorem channelSsi_polled (pos : Option Nat) (c : Nat) : Polled s (channelSsi pos c s) c pos := by
  cases pos with
  | some v =>
    rw [channelSsi_some]
    have h := phaseForce_updated s c (BitVec.ofNat 32 (ssiPhase s c v))
    refine ⟨fun w e => ?_, fun e => absurd e (by simp), fun e => absurd e (by simp)⟩
    cases e
    exact ⟨h.atPhase, by rw [h.shown.bearing]⟩
  | none =>
    rw [channelSsi_none]
    refine ⟨fun w e => absurd e (by simp), fun _ hm => ?_, fun _ hm => ?_⟩
    · rw [if_pos hm]
      have h := sourceLost_gone s 2 c
      exact ⟨h.lost, by rw [h.bearing]⟩
    · rw [if_neg hm]
      exact ⟨by rw [bearing_setBearing], rfl⟩

theorem channelSsi_loud (pos : Option Nat) (c : Nat) : Within (loudCells c) firedParts s (channelSsi pos c s) := by
  cases pos with
  | some v =>
    rw [channelSsi_some]
    exact phaseForce_loud s c _
  | none =>
    rw [channelSsi_none]
    exact .ite _ (sourceLost_loud s 2 c) ((setBearing_within s c _).mono (fun _ hx => .inl (.inr hx)) (by simp [firedParts]))

theorem channelSsi_lone (pos : Option Nat) (c : Nat) (hq : s.phaseAlarms c = [])
    (hw : ∀ w, w < 32 → s.flag F.BR_WIN_STAT_ARMED w = true → s.flag F.BR_WIN_CFG_DOMAIN w = true → s.fget F.BR_WIN_CFG_CHANNEL w ≠ c) :
    Within (regCells chanRegs c ∪ {.bearing c}) [.phase] s (channelSsi pos c s) := by
  cases pos with
  | some v =>
    rw [channelSsi_some]
    exact (phaseForce_still s c _ hq).within
  | none =>
    rw [channelSsi_none]
    exact .ite _ ((sourceLost_still s 2 c hq hw).mono (Set.union_subset_union_left _ (regCells_mono (by simp [chanRegs]) c))
      (List.Subset.refl _)) ((setBearing_within s c _).mono Set.subset_union_right (List.Subset.refl _))

theorem polls_polled (pos : Option Nat) {cs : List Nat} (hn : cs.Nodup) {c : Nat} (hc : c ∈ cs) :
    Polled s (forEach cs (channelSsi pos) s) c pos := by
  obtain ⟨u, hu, ht⟩ := chan_pass s (channelSsi pos) (fun b u => channelSsi_loud u pos b) cs hn c hc
  exact (channelSsi_polled u pos c).congr hu ht (by simp [firedParts, actParts])
    (fun q hq => chanReg_not_mem_otherCells q c hq) (bearing_mem_otherCells c)

/-! ## The transactions stay while no alarm is armed on the channels -/

/-- What a channel without alarms may change when its windows close. -/
def quietCells (cs : List Nat) : Set Cell := allCells chanRegs cs ∪ windowCells

theorem sourceLost_quiet (cause c : Nat) (hq : s.phaseAlarms c = []) :
    Within (regCells [.BR_CH_STAT] c ∪ {.bearing c} ∪ windowCells) [.phase, .ingress] s (sourceLost cause c s) := by
  have h1 := (channelInvalid_quiet s c (.inr hq)).mono (S' := regCells [.BR_CH_STAT] c ∪ {.bearing c} ∪ windowCells)
    (ps' := [.phase, .ingress]) (fun _ hx => .inl (.inl hx)) (List.nil_subset _)
  have h2 := h1.next (windowsLost_within _ c) (fun _ hx => .inr (channelWindows_subset _ c hx)) (List.Subset.refl _)
  rw [sourceLost_eq]
  exact (h2.next (lossRecorded_within _ cause c) Set.subset_union_left (by simp)).thenLogs (bearingTrace_logs _ c)

theorem channelSsi_quiet (pos : Option Nat) (c : Nat) (hq : s.phaseAlarms c = []) :
    Within (regCells chanRegs c ∪ {.bearing c} ∪ windowCells) [.phase, .ingress] s (channelSsi pos c s) ∧
      (channelSsi pos c s).ports = s.ports := by
  cases pos with
  | some v =>
    rw [channelSsi_some]
    have h := (phaseForce_still s c (BitVec.ofNat 32 (ssiPhase s c v)) hq).within
    exact ⟨h.mono Set.subset_union_left (by simp), h.ports (by simp)⟩
  | none =>
    rw [channelSsi_none]
    split
    · exact ⟨(sourceLost_quiet s 2 c hq).mono (Set.union_subset_union_left _
        (Set.union_subset_union_left _ (regCells_mono (by simp [chanRegs]) c))) (List.Subset.refl _), sourceLost_ports s 2 c⟩
    · exact ⟨(setBearing_within s c _).mono (fun _ hx => .inl (.inr hx)) (by simp), rfl⟩

theorem polls_ports (pos : Option Nat) {cs : List Nat} (hq : Quiet s cs) : (forEach cs (channelSsi pos) s).ports = s.ports := by
  refine forEach_keeps (U := quietCells cs) (ps := [.phase, .ingress]) s State.ports (channelSsi pos) cs fun c hc u hu => ?_
  have hal := hu.phaseAlarms c fun k => by simp [quietCells, windowCells, chanRegs, winRegs]
  obtain ⟨hw, hp⟩ := channelSsi_quiet u pos c (hal.trans (hq c hc))
  exact ⟨hw.mono (Set.union_subset_union_left _ (subset_allCells chanRegs cs c hc)) (List.Subset.refl _), hp⟩

/-! ## Frames -/

/-- LINK says whether a frame held a position; a frame without one is an error (R44, R64). -/
def ssiPort (src : Nat) (ok : Bool) : State :=
  let u := s.fset F.ING_PORT_STAT_LINK src (if ok then 1 else 0)
  if ok then u else u.portError src

theorem ssiPort_within (src : Nat) (ok : Bool) : Within (regCells [.ING_PORT_STAT, .ING_PORT_CNT] src) [] s (ssiPort s src ok) := by
  have h : Within (regCells [.ING_PORT_STAT, .ING_PORT_CNT] src) [] s (s.fset F.ING_PORT_STAT_LINK src (if ok then 1 else 0)) :=
    (Within.refl s).thenFset F.ING_PORT_STAT_LINK src _ (by simp)
  exact .ite _ h (h.trans (portError_within _ src))

theorem ssiPort_link (src : Nat) (ok : Bool) : (ssiPort s src ok).flag F.ING_PORT_STAT_LINK src = ok := by
  have h := flag_fset_bit s F.ING_PORT_STAT_LINK src ok rfl (by decide)
  unfold ssiPort
  cases ok with
  | true => exact h
  | false => exact (portError_flag _ src F.ING_PORT_STAT_LINK rfl (by decide)).trans h

/-- The bits of a frame's position (R70). -/
def ssiRaw (par : Nat) (resp : Option W32) : Nat :=
  let n := par / 2 ^ 7 % 32 + 1
  let raw := (resp.getD 0).toNat % 2 ^ n
  if natBit par 12 then grayDecode raw n else raw

/-- Whether a frame holds a position (R44). -/
def ssiGood (par : Nat) (resp : Option W32) (pe : Bool) : Bool := resp.isSome && !(natBit par 13 && pe)

theorem execSsiFrame_on (e : Fin 16) (resp : Option W32) (pe : Bool) (hr : s.rxOn (0x10 + e) = true)
    (hb : (s.port (0x10 + e)).busy = true) (hssi : natBit (s.fget F.ING_PORT_CFG_PARAM (0x10 + e)) 0 = true) :
    let par := s.fget F.ING_PORT_CFG_PARAM (0x10 + e)
    ∃ bs, exec (.ssiFrame e resp pe) s = .next (((forEach (s.channels 2 e)
      (channelSsi (if ssiGood par resp pe then some (ssiRaw par resp) else none)) (ssiPort s (0x10 + e) (ssiGood par resp pe))).serialEnd
        (0x10 + e) bs).serialStart (0x10 + e)) := by
  intro par
  have hpass : (if ssiGood par resp pe then some (if resp = none then 0 else ssiRaw par resp) else none) =
      if ssiGood par resp pe then some (ssiRaw par resp) else none := by
    cases resp <;> rfl
  have hch := channels_congr (s := s) (t := ssiPort s (0x10 + e) (ssiGood par resp pe)) 2 e fun c =>
    (ssiPort_within s (0x10 + e) (ssiGood par resp pe)).reg _ _ rfl (by simp)
  rw [← hpass, ← hch]
  refine ⟨leBytes 4 (if resp = none then 0 else ssiRaw par resp) ++
    leBytes 4 ((if natBit par 13 && pe then 1 else 0) + if resp = none then 2 else 0), ?_⟩
  show Host.Outcome.next (if !(s.rxOn (0x10 + e)) || !(s.port (0x10 + e)).busy ||
    !(natBit (s.fget F.ING_PORT_CFG_PARAM (0x10 + e)) 0) then s else _) = _
  rw [hr, hb, hssi, Bool.not_true, Bool.or_self, Bool.or_self, if_neg Bool.false_ne_true]
  rfl

theorem serialEnd_idle (src : Nat) (bs : List Byte) (h : (s.port src).serving = []) :
    s.serialEnd src bs = s.setPort src { s.port src with busy := false, serving := [] } := by
  unfold serialEnd
  simp only [h, forEach, List.foldl_nil]

/-- A frame frees its port, and the next transaction that waits takes it (R83). -/
theorem serialStart_frees (src : Nat) (h : (s.port src).busy = false) :
    ((s.serialStart src).port src).busy = !((s.port src).waiting.isEmpty) := by
  cases hw : (s.port src).waiting with
  | nil => rw [serialStart_none s src hw, h, List.isEmpty_nil, Bool.not_true]
  | cons q rest => rw [serialStart_free s src q rest hw h, startAsk_port, List.isEmpty_cons, Bool.not_false]

/-- What a frame leaves of its port, of each channel, and beside them (R40, R44, R64, R83). -/
theorem execSsiFrame_polls (e : Fin 16) (resp : Option W32) (pe : Bool) (hr : s.rxOn (16 + e) = true)
    (hb : (s.port (16 + e)).busy = true) (hssi : natBit (s.fget F.ING_PORT_CFG_PARAM (16 + e)) 0 = true) :
    let par := s.fget F.ING_PORT_CFG_PARAM (16 + e)
    let cs := s.channels 2 e
    ∃ t, exec (.ssiFrame e resp pe) s = .next t ∧ t.flag F.ING_PORT_STAT_LINK (16 + e) = ssiGood par resp pe ∧
      (Quiet s cs → (t.port (16 + e)).busy = !((s.port (16 + e)).waiting.isEmpty)) ∧
      (∀ c ∈ cs, Polled s t c (if ssiGood par resp pe then some (ssiRaw par resp) else none)) ∧
      (Quiet s cs → Unwatched s cs → (s.port (16 + e)).serving = [] → (s.port (16 + e)).waiting = [] →
        Within (allCells chanRegs cs ∪ regCells [.ING_PORT_STAT, .ING_PORT_CNT] (16 + e)) [.phase, .ingress] s t) := by
  intro par cs
  obtain ⟨bs, hx⟩ := execSsiFrame_on s e resp pe hr hb hssi
  change exec (.ssiFrame e resp pe) s = .next (((forEach cs (channelSsi (if ssiGood par resp pe then some (ssiRaw par resp) else none))
    (ssiPort s (0x10 + e) (ssiGood par resp pe))).serialEnd (0x10 + e) bs).serialStart (0x10 + e)) at hx
  have hp := ssiPort_within s (0x10 + e) (ssiGood par resp pe)
  have hlink := ssiPort_link s (0x10 + e) (ssiGood par resp pe)
  generalize ssiPort s (0x10 + e) (ssiGood par resp pe) = u at *
  generalize (if ssiGood par resp pe then some (ssiRaw par resp) else none) = pos at *
  have hloud := loud_forEach u (channelSsi pos) (fun c u => channelSsi_loud u pos c) cs
  have hpoll := fun c (hc : c ∈ cs) => polls_polled u pos (channels_nodup s 2 e) hc
  have hports := fun hq : Quiet s cs => (polls_ports u pos (hp.quiet hq (by simp))).trans (hp.ports (by simp))
  have hlone := fun (hq : Quiet s cs) (hw : Unwatched s cs) => lone_forEach u chanRegs (by decide) (channelSsi pos)
    (fun c u => channelSsi_lone u pos c) (hp.quiet hq (by simp)) (unwatched_congr hw hp (by simp))
  generalize forEach cs (channelSsi pos) u = v at *
  have hend := serialEnd_within v (0x10 + e) bs
  have hstart := serialStart_within (v.serialEnd (0x10 + e) bs) (0x10 + e)
  have hport := serialEnd_port v (0x10 + e) bs
  refine ⟨_, hx, ?_, fun hq => ?_, fun c hc => ?_, fun hq hw hserve hwait => ?_⟩
  · rw [(hend.trans hstart).flag _ _ rfl (by simp), hloud.flag _ _ rfl (reg_not_mem_allLoud _ _ _ (by decide)), hlink]
  · rw [serialStart_frees _ _ (by rw [hport]), hport, port_of_ports (hports hq)]
  · exact ((hpoll c hc).congr hp (.refl _) (by simp) (by simp [chanKept]) (by simp)).congr (.refl s) (hend.trans hstart) (by simp)
      (by simp [chanKept]) (by simp)
  · have hpv := port_of_ports (hports hq) (0x10 + e)
    rw [serialStart_none _ _ (by rw [hport, hpv]; exact hwait), serialEnd_idle v _ bs (by rw [hpv]; exact hserve)]
    have h := (hp.mono (S' := allCells chanRegs cs ∪ regCells [.ING_PORT_STAT, .ING_PORT_CNT] (16 + e)) (ps' := [.phase, .ingress])
      Set.subset_union_right (List.nil_subset _)).next (hlone hq hw) Set.subset_union_left (by simp)
    exact h.thenPort _ _

/-! ## Polls -/

/-- A request of a new tick waits behind all others (R83). -/
theorem askInsert_last (a : Ask) (l : List Ask) (h : ∀ x ∈ l, x.tick ≠ a.tick) : askInsert a l = l ++ [a] := by
  have hb : ∀ x ∈ l, (!(x.tick == a.tick && decide (a.descs.headD 0 < x.descs.headD 0))) = true := fun x hx => by
    simp [beq_eq_false_iff_ne.2 (h x hx)]
  unfold askInsert
  dsimp only
  rw [List.takeWhile_eq_self_iff.2 hb, List.dropWhile_eq_nil_iff.2 hb]

/-- The poll of an encoder's natural descriptors, on a tick without latches (R72, R83). -/
def pollOf (src : Nat) : Ask := { tick := s.ticks, descs := s.naturals src, poll := true }

theorem pollAsk_last (src : Nat) (h : ∀ a ∈ (s.port src).waiting, a.tick ≠ s.ticks) :
    s.pollAsk src = s.setPort src { s.port src with waiting := (s.port src).waiting ++ [pollOf s src] } := by
  have hj : ∀ a ∈ (s.port src).waiting, (a.tick == s.ticks && a.descs.all (s.naturals src).contains) = false := fun a ha => by
    rw [beq_eq_false_iff_ne.2 (h a ha), Bool.false_and]
  have hnone : (s.port src).waiting.filter (fun a => a.tick == s.ticks && a.descs.all (s.naturals src).contains) = [] :=
    List.filter_eq_nil_iff.2 fun a ha => by rw [hj a ha]; decide
  have hall : (s.port src).waiting.filter (fun a => !(a.tick == s.ticks && a.descs.all (s.naturals src).contains)) =
      (s.port src).waiting := List.filter_eq_self.2 fun a ha => by rw [hj a ha]; rfl
  unfold pollAsk
  dsimp only
  rw [hnone, hall, askInsert_last _ _ h]
  rfl

theorem execSsiPoll_asks (e : Fin 16) (hr : s.rxOn (16 + e) = true)
    (hssi : natBit (s.fget F.ING_PORT_CFG_PARAM (16 + e)) 0 = true) (hn : ¬ (s.naturals (16 + e) = [] ∧ s.channels 2 e = [])) :
    exec (.ssiPoll e) s = .next (if (s.port (16 + e)).waiting.any (·.poll) then s
      else (s.pollAsk (16 + e)).serialStart (16 + e)) := by
  have hne : ((s.naturals (16 + e)).isEmpty && (s.channels 2 e).isEmpty) = false := by
    rw [Bool.eq_false_iff]
    simpa using hn
  show Host.Outcome.next (if !(s.rxOn (0x10 + e)) || !(natBit (s.fget F.ING_PORT_CFG_PARAM (0x10 + e)) 0) ||
    (s.naturals (0x10 + e)).isEmpty && (s.channels 2 e).isEmpty || (s.port (0x10 + e)).waiting.any (·.poll) then s else _) = _
  rw [hr, hssi, hne, Bool.not_true, Bool.or_self, Bool.or_self, Bool.false_or]

/-- A transaction without descriptors starts at its port alone. -/
theorem startAsk_empty (src : Nat) (q : Ask) (rest : List Ask) (h : q.descs = []) :
    Within ∅ [.ingress] s (startAsk s src q rest) := by
  unfold startAsk
  rw [h]
  exact (Within.refl s).thenPort src _

/-- A transaction of one descriptor that takes a unit begins it now (R73, R81, R83). -/
theorem startAsk_takes (src : Nat) (q : Ask) (rest : List Ask) {n : Nat} (hd : q.descs = [n]) (hl : q.latched = [])
    (ht : Takes s n 0) : ∃ u, ((startAsk s src q rest).desc n).cur = some u ∧ u.ts = s.now ∧ u.seq = (s.desc n).seq ∧ u.data = [] := by
  have hdesc : (s.setPort src { s.port src with waiting := rest, busy := true, serving := q.descs, began := s.ticks }).desc n =
      s.desc n := rfl
  have hnow : (s.setPort src { s.port src with waiting := rest, busy := true, serving := q.descs, began := s.ticks }).now = s.now := rfl
  have htake : Takes (s.setPort src { s.port src with waiting := rest, busy := true, serving := q.descs, began := s.ticks }) n 0 :=
    takes_congr ht (fun _ _ _ => rfl) rfl
  unfold startAsk
  generalize s.setPort src { s.port src with waiting := rest, busy := true, serving := q.descs, began := s.ticks } = v at *
  obtain ⟨-, h⟩ := unitStart_takes v n 0 0 (v.serialBytes src) (some (v.gateNow n)) htake
  rw [hd, hl]
  refine ⟨_, congrArg Desc.cur h, hnow, by rw [hdesc], rfl⟩

/-- What a poll of a free encoder starts (R72, R81, R83). -/
theorem pollAsk_starts (src : Nat) (hb : (s.port src).busy = false) (hw : (s.port src).waiting = []) :
    let t := (s.pollAsk src).serialStart src
    ((t.port src).busy = true ∧ (t.port src).waiting = [] ∧ (t.port src).serving = s.naturals src) ∧
      (s.naturals src = [] → Within ∅ [.ingress] s t) ∧
      (∀ n, s.naturals src = [n] → Takes s n 0 → ∃ u, (t.desc n).cur = some u ∧ u.ts = s.now ∧ u.seq = (s.desc n).seq ∧ u.data = []) := by
  intro t
  have hask := pollAsk_last s src (by rw [hw]; exact fun a ha => absurd ha List.not_mem_nil)
  rw [hw, List.nil_append] at hask
  have hport : (s.pollAsk src).port src = { s.port src with waiting := [pollOf s src] } := by rw [hask, port_setPort]
  have hwithin : Within ∅ [.ingress] s (s.pollAsk src) := by
    rw [hask]
    exact (Within.refl s).thenPort src _
  have htake : ∀ n, Takes s n 0 → Takes (s.pollAsk src) n 0 := fun n h => takes_congr h (fun _ _ _ => rfl) rfl
  have hdesc : ∀ n, (s.pollAsk src).desc n = s.desc n := fun _ => rfl
  have ht : t = startAsk (s.pollAsk src) src (pollOf s src) [] :=
    serialStart_free _ src (pollOf s src) [] (by rw [hport]) (by rw [hport]; exact hb)
  rw [ht]
  generalize s.pollAsk src = u at *
  refine ⟨?_, fun hn => ?_, fun n hn hk => ?_⟩
  · rw [startAsk_port]
    exact ⟨rfl, rfl, rfl⟩
  · exact hwithin.trans (startAsk_empty u src _ [] hn)
  · obtain ⟨x, hx, hts, hseq, hdata⟩ := startAsk_takes u src (pollOf s src) [] hn rfl (htake n hk)
    exact ⟨x, hx, hts.trans (hwithin.time (by simp)).1, by rw [hseq, hdesc], hdata⟩

/-- Settles O37: a frame, a poll, a crossing, a PLL tick and a timeout, each by what its loop over the channels leaves. -/
theorem serialAndMainsChannels : Obligations.SerialAndMainsChannels := by
  unfold Obligations.SerialAndMainsChannels
  refine ⟨?_, ?_, ?_, ?_, ?_⟩
  · intro e resp pe s hr hb hssi par n raw pos ok cs
    obtain ⟨t, hx, hlink, hbusy, hpoll, hquiet⟩ := execSsiFrame_polls s e resp pe hr hb hssi
    refine ⟨t, hx, hlink, hbusy, fun c hc => ?_, fun hq hw hs hwait => ?_⟩
    · have h := hpoll c hc
      have hok : ok = true → (if ssiGood par resp pe then some (ssiRaw par resp) else none) = some pos := fun e => if_pos e
      have hbad : ok = false → (if ssiGood par resp pe then some (ssiRaw par resp) else none) = none := fun e =>
        if_neg (fun e' => absurd (e.symm.trans e') (by decide))
      exact ⟨fun e => h.shown pos (hok e), fun e => h.lost (hbad e), fun e => h.missed (hbad e)⟩
    · refine (hquiet hq hw hs hwait).frame (fun q k hk => ?_) (List.Subset.refl _)
      rcases hk with hk | hk
      · exact .inl ((reg_mem_allCells _ _ q k).1 hk)
      · exact .inr ((reg_mem_regCells _ _ k q).1 hk)
  · intro e s hr hssi hn ns p
    have hx := execSsiPoll_asks s e hr hssi hn
    refine ⟨fun hb hw => ?_, fun hb hw => ?_, fun hpoll => ?_⟩
    · have hno : p.waiting.any (·.poll) = false := List.any_eq_false.2 fun a ha => by rw [(hw a ha).1]; decide
      have hask := pollAsk_last s (16 + e) fun a ha => (hw a ha).2
      have hport : (s.pollAsk (16 + e)).port (16 + e) = { p with waiting := p.waiting ++ [pollOf s (16 + e)] } := by
        rw [hask, port_setPort]
      have hwithin : Within ∅ [.ingress] s (s.pollAsk (16 + e)) := by
        rw [hask]
        exact (Within.refl s).thenPort _ _
      rw [hno, if_neg Bool.false_ne_true, serialStart_busy _ _ (by rw [hport]; exact hb)] at hx
      exact ⟨_, hx, by rw [hport]; rfl, hwithin.frame (by simp) (List.Subset.refl _)⟩
    · obtain ⟨⟨h1, h2, h3⟩, hempty, hone⟩ := pollAsk_starts s (16 + e) hb hw
      have hno : p.waiting.any (·.poll) = false := by
        show (s.port (16 + e)).waiting.any (·.poll) = false
        rw [hw]
        rfl
      rw [hno, if_neg Bool.false_ne_true] at hx
      exact ⟨_, hx, h1, h2, h3, fun h => (hempty h).frame (by simp) (List.Subset.refl _), hone⟩
    · have hyes : p.waiting.any (·.poll) = true := List.any_eq_true.2 hpoll
      rw [hx, hyes, if_pos rfl]
  · intro m ns s hr cs
    obtain ⟨t, hx, hperiod, hlink, hcross, hquiet⟩ := execZeroCrossing_crosses s m ns hr
    refine ⟨t, hx, hperiod, hlink, fun c hc => ?_, fun hq hw hn => ?_⟩
    · have h := hcross c hc
      exact ⟨h.lost, h.stays, fun e => ⟨h.inc e, h.locked e, h.valid e, h.first e⟩⟩
    · refine (hquiet hq hw hn).frame (fun q k hk => ?_) (List.Subset.refl _)
      rcases hk with hk | hk | hk
      · exact .inl ((reg_mem_allCells _ _ q k).1 hk)
      · exact .inr ((reg_mem_regCells _ _ k q).1 hk)
      · simp at hk
  · intro m s cs
    refine ⟨⟨_, execMainsPllTick_eq s m, fun c hc hv => ?_, fun hq => ?_⟩, ?_⟩
    · have hup := pllSteps_updated s ((channels_nodup s 3 m).filter _) (List.mem_filter.2 ⟨hc, hv⟩)
      refine ⟨Updated.atPhase (r := false) ?_, by rw [hup.shown.bearing]⟩
      rw [BitVec.ofNat_toNat, BitVec.setWidth_eq]
      exact hup
    · have hs := pllSteps_still s (cs := cs.filter (fun c => s.flag F.BR_CH_STAT_VALID c)) fun c hc => hq c (List.mem_of_mem_filter hc)
      refine hs.within.frame (fun q k hk => ?_) (List.Subset.refl _)
      obtain ⟨hq', hk'⟩ := (reg_mem_allCells _ _ q k).1 hk
      exact ⟨hq', List.mem_of_mem_filter hk'⟩
    · exact execMainsTimeout_loses s m
  · intro p s cs
    have hl := sourceLost_lossPass 4
    have hn : cs.Nodup := channels_nodup s 4 p
    refine ⟨forEach cs (sourceLost 4) s, rfl, hl.all_lost s hn, fun h => losses_newest s 4 h, hl.all_closed s hn, fun hq hw => ?_⟩
    exact (hl.all_still s hq hw).frame (fun q k hk => (reg_mem_allCells _ _ q k).1 hk) (List.Subset.refl _)

end Sys2Proof.Proofs
end

section
/-! PROOFS. Camera lines (03_plant_ingress.md R65-R67, R79): a unit whose stamp is cut short takes no bytes of its first line
packet. -/

namespace Sys2Proof.Proofs

open Sys2Proof Sys2Proof.Machine Sys2Proof.Machine.State Sys2Proof.Safety

/-- A camera descriptor that its frame start made ready for a unit, whose stamp is marked cut short already. -/
def cutCamera : State := Tests.camera { pend := some { cut := true } }

set_option maxRecDepth 8000 in
theorem cutCamera_accepts : cutCamera.rxOn 7 = true ∧ dtOk 0x2A = true ∧ cutCamera.vcOk 7 3 = true ∧
    (cutCamera.port 7).line = 0 ∧ cutCamera.csiDesc 7 3 0x2A = some 127 ∧ cutCamera.channels 4 7 = [] ∧
    (cutCamera.port 7).counted = [] ∧ (cutCamera.desc 127).pend = some { cut := true } := by decide

set_option maxRecDepth 8000 in
theorem cutCamera_takes : cutCamera.lineBytes 127 0x2A [1] = [1] ∧ Takes cutCamera 127 1 := by
  unfold Takes; decide

/-- The bytes of descriptor `n`'s unit in progress in the state an instruction leaves. -/
def unitBytesAfter (n : Nat) (s : State) (i : Instr) : Option (List Byte) :=
  match exec i s with
  | .next t => (t.desc n).cur.map unitData
  | _ => none

theorem unitBytesAfter_of_exec {n : Nat} {s t : State} {i : Instr} {x : UnitRec} (h : exec i s = .next t)
    (hx : (t.desc n).cur = some x) : unitBytesAfter n s i = some (unitData x) := by
  simp [unitBytesAfter, h, hx]

set_option maxRecDepth 8000 in
theorem cutCamera_linePacket_takes_nothing :
    unitBytesAfter 127 cutCamera (.linePacket 7 3 0x2A [1] false true) = some [] := by decide

/-- Refutes O43: the clause of a unit's first line packet does not ask that the stamp its frame start left is not cut
short, and a unit that is cut short takes none of the packet's bytes (R79). -/
theorem not_framesBecomeUnitsAndLand : ¬ Obligations.FramesBecomeUnitsAndLand := by
  unfold Obligations.FramesBecomeUnitsAndLand
  rintro ⟨-, -, hpacket, -⟩
  obtain ⟨hrx, hdt, hvc, hline, hdesc, hch, hcount, hpend⟩ := cutCamera_accepts
  obtain ⟨hbytes, htakes⟩ := cutCamera_takes
  have hp : ((7 : Fin 8) : Nat) = 7 := rfl
  have hk : (0x2A : BitVec 6).toNat = 0x2A := rfl
  obtain ⟨-, -, -, htaken⟩ := hpacket 7 3 0x2A [1] true cutCamera
  obtain ⟨t, hexec, -, hunit⟩ := (htaken hrx hdt hvc).2 (by decide) (by rw [hp, hline]; decide)
  obtain ⟨x, hcur, hx, -⟩ := (hunit 127 hdesc (by rw [hp, hch]; simp [Quiet])).2 { cut := true }
    (by rw [hp, hcount]; simp) hpend rfl rfl (by rw [hk, hbytes]; exact htakes)
  have htook : some (unitData x) = some [] :=
    (unitBytesAfter_of_exec hexec hcur).symm.trans cutCamera_linePacket_takes_nothing
  rw [hx, hk, hbytes] at htook
  cases htook

end Sys2Proof.Proofs
end

section
/-! PROOFS. The memories that the ingress hub writes, and the records it posts (R76-R80): what a landing leaves alone. -/

namespace Sys2Proof.Proofs

open Sys2Proof Sys2Proof.Machine Sys2Proof.Machine.State Sys2Proof.Safety

variable (s : State)

/-! ## HBM and Decks -/

theorem hbm_within (m : Memory) : Within ∅ [.hbm] s { s with hbm := m } :=
  within_of_regs rfl rfl rfl rfl rfl (fun p hp => by cases p <;> simp_all [Same]) (fun _ _ => rfl) (fun _ _ => rfl) (fun _ _ => rfl)

theorem deckWrite_within (t slot o : Nat) (bs : List Byte) : Within ∅ [.deck] s (s.deckWrite t slot o bs) :=
  within_of_regs rfl rfl rfl rfl rfl (fun p hp => by cases p <;> simp_all [Same, deckWrite]) (fun _ _ => rfl) (fun _ _ => rfl)
    (fun _ _ => rfl)

theorem setFull_within (t slot : Nat) (v : Bool) : Within ∅ [.deckTags] s (s.setFull t slot v) :=
  within_of_regs rfl rfl rfl rfl rfl (fun p hp => by cases p <;> simp_all [Same, setFull]) (fun _ _ => rfl) (fun _ _ => rfl)
    (fun _ _ => rfl)

theorem feedOut_within (t g : Nat) : Within ∅ [.deckTags] s (s.feedOut t g) :=
  .ite _ (within_of_regs rfl rfl rfl rfl rfl (fun p hp => by cases p <;> simp_all [Same]) (fun _ _ => rfl) (fun _ _ => rfl)
    (fun _ _ => rfl)) (.refl s)

theorem countBlocks_logs (code p o n : Nat) : Logs s (s.countBlocks code p o n) :=
  forEach_logs s _ (fun _ u => count_logs u _ _ _ _) _

theorem hbmWrite_within {p rt a : Nat} (bs : List Byte) (h : a / 2 ^ 36 = s.node) :
    Within ∅ [.hbm] s (s.hbmWrite p rt a bs).2 := by
  unfold hbmWrite
  dsimp only
  rw [if_pos h]
  split
  · exact .refl s
  · exact ((Within.refl s).thenLogs ((charge_logs s p 0 bs.length).trans (countBlocks_logs _ _ _ _ _))).thenParts
      (hbm_within _ _) (List.Subset.refl _)

/-- The hub writes this device's own HBM, or nothing where a pseudo-channel is retired (R284). -/
theorem hubWrite_within (p a : Nat) (bs : List Byte) : Within ∅ [.hbm] s (s.hubWrite p a bs) := by
  have hnode : (s.node * 2 ^ 36 + a % 2 ^ 36) / 2 ^ 36 = s.node := by
    generalize s.node = k
    omega
  rw [hubWrite_eq]
  exact hbmWrite_within s bs hnode

theorem ringWrite_within (n a : Nat) (bs : List Byte) : Within ∅ [.hbm] s (s.ringWrite n a bs) := by
  unfold ringWrite
  exact .ite _ (hubWrite_within s _ _ _) ((hubWrite_within s _ _ _).trans (hubWrite_within _ _ _ _))

theorem deckLand_within (n fuel a : Nat) (bs : List Byte) : Within ∅ [.deck, .deckTags] s (s.deckLand n fuel a bs).2 := by
  induction fuel generalizing s a bs with
  | zero => exact .refl s
  | succ fuel ih =>
    cases bs with
    | nil => exact .refl s
    | cons b bs =>
      unfold deckLand
      dsimp only
      split
      · exact .refl s
      · refine Within.trans ?_ (ih _ _ _)
        have hw := (Within.refl (S := ∅) (ps := [.deck, .deckTags]) s).thenParts
          (deckWrite_within s (s.ringTile n) (s.ringSlot n a) (a % 256) ((b :: bs).take (min (256 - a % 256) (b :: bs).length)))
          (by simp)
        exact .ite _ (hw.thenParts (setFull_within _ _ _ _) (by simp)) hw

theorem slotPut_within (n a : Nat) (bs : List Byte) : Within ∅ [.deck, .deckTags] s (s.slotPut n a bs).2 :=
  ((deckLand_within s n _ a bs).thenLogs (charge_logs _ _ _ _)).thenParts (feedOut_within _ _ _) (by simp)

/-- The kinds of state that a landing's bytes go to. -/
def landParts : List Part := [.hbm, .deck, .deckTags]

theorem padWrite_within (n a pad : Nat) : Within ∅ landParts s (s.padWrite n a pad) :=
  .ite _ (.refl s) (.ite _ ((slotPut_within s n a _).mono subset_rfl (by simp [landParts]))
    ((ringWrite_within s n a _).mono subset_rfl (by simp [landParts])))

/-! ## Records -/

theorem recordPost_within (n : Nat) (u : UnitRec) (ofs len : Nat) :
    Within (regCells [.ING_D_RPTR] n) [.ingress, .hbm] s (s.recordPost n u ofs len) := by
  unfold recordPost
  dsimp only
  exact ((((hubWrite_within s _ _ _).mono (Set.empty_subset _) (by simp)).thenDesc n _)).thenFadd F.ING_D_RPTR_REC_PROD n 1 (by simp)

theorem semAdd_within (k m : Nat) : Within (regCells [.SEM_STAT] k) [] s (s.semAdd k m) := by
  have hr : Within (regCells [.SEM_STAT] k) [] s s := .refl s
  unfold semAdd
  exact ((Within.ite _ hr (hr.thenFset F.SEM_STAT_OVERFLOW k 1 (by simp))).thenFset F.SEM_STAT_COUNT k _ (by simp)).thenLogs
    (count_logs _ _ _ _ _)

theorem signalFree_within (unit part k p : Nat) : Within (regCells [.SEM_STAT] k) [] s (s.signalFree unit part k p) :=
  .ite _ ((Within.refl s).thenLogs (fault_logs s _)) (.ite _ ((Within.refl s).thenLogs (fault_logs s _)) (semAdd_within s k 1))

theorem recordSem_within (n : Nat) : Within (regCellsAll [.SEM_STAT]) [] s (s.recordSem n) :=
  .ite _ ((signalFree_within s _ _ _ _).mono (regCells_subset_all _ _) (List.Subset.refl _)) (.refl s)

theorem recordPost_prod (n : Nat) (u : UnitRec) (ofs len : Nat) :
    (s.recordPost n u ofs len).fget F.ING_D_RPTR_REC_PROD n = (s.fget F.ING_D_RPTR_REC_PROD n + 1) % 2 ^ 16 := by
  unfold recordPost
  dsimp only
  rw [fadd_eq, fget_fset_same _ _ _ _ (by decide), setDesc_fget,
    (hubWrite_within s _ _ _).fget F.ING_D_RPTR_REC_PROD n rfl (by simp)]

/-! ## What is in the hub of a descriptor -/

/-- The unit in progress and the units that wait to land. -/
def hubUnits (n : Nat) (s : State) : Option UnitRec × List UnitRec := ((s.desc n).cur, (s.desc n).backlog)

theorem hubUnits_setDesc (n : Nat) (v : Desc) : hubUnits n (s.setDesc n v) = (v.cur, v.backlog) := by
  unfold hubUnits
  rw [desc_setDesc]

variable {s} in
theorem hubUnits_of_within {S : Set Cell} {ps : List Part} {t : State} (h : Within S ps s t) (hp : Part.ingress ∉ ps) (n : Nat) :
    hubUnits n t = hubUnits n s := by
  obtain ⟨-, hdescs, -⟩ := h.same .ingress hp
  unfold hubUnits desc
  rw [hdescs]

theorem hubUnits_fset (n : Nat) (f : Fld) (k v : Nat) : hubUnits n (s.fset f k v) = hubUnits n s := rfl

theorem hubUnits_fadd (n : Nat) (f : Fld) (k v : Nat) : hubUnits n (s.fadd f k v) = hubUnits n s := rfl

variable {s} in
theorem hubUnits_of_logs {t : State} (h : Logs s t) (n : Nat) : hubUnits n t = hubUnits n s :=
  hubUnits_of_within (within_of_logs h) List.not_mem_nil n

theorem dropUnit_hubUnits (n cause : Nat) : hubUnits n (s.dropUnit n cause) = hubUnits n s := by
  unfold dropUnit
  dsimp only
  rw [hubUnits_of_logs (traceEv_logs _ _ _ _ _)]
  have h : hubUnits n (((s.setDesc n { s.desc n with dropped := min ((s.desc n).dropped + 1) 0xFFFF }).fadd
      F.ING_D_CNT0_DROPS n 1).count 0x121 (some n) (some (s.fget F.ING_D_CFG_PART n)) 1) = hubUnits n s := by
    rw [hubUnits_of_logs (count_logs _ _ _ _ _)]
    exact hubUnits_setDesc s n _
  split
  · exact h
  · exact h

theorem dropOnce_hubUnits (n cause : Nat) (u : UnitRec) : hubUnits n (s.dropOnce n cause u) = hubUnits n s := by
  unfold dropOnce
  split
  · rfl
  · exact dropUnit_hubUnits s n cause

theorem recordPost_hubUnits (n : Nat) (u : UnitRec) (ofs len : Nat) : hubUnits n (s.recordPost n u ofs len) = hubUnits n s := by
  unfold recordPost
  dsimp only
  rw [hubUnits_fadd, hubUnits_setDesc]
  rfl

theorem recordSem_hubUnits (n : Nat) : hubUnits n (s.recordSem n) = hubUnits n s :=
  hubUnits_of_within (recordSem_within s n) List.not_mem_nil n

theorem windowPost_hubUnits (n : Nat) (u : UnitRec) : hubUnits n (s.windowPost n u) = hubUnits n s := by
  unfold windowPost
  dsimp only
  split
  · exact dropUnit_hubUnits s n 4
  · rw [recordSem_hubUnits, recordPost_hubUnits, hubUnits_setDesc]
    rfl

theorem unitDone_hubUnits (n a : Nat) (u : UnitRec) : hubUnits n (s.unitDone n a u) = hubUnits n s := by
  unfold unitDone
  dsimp only
  split
  · exact dropOnce_hubUnits s n 4 u
  · rw [hubUnits_of_logs (traceEv_logs _ _ _ _ _), recordSem_hubUnits, hubUnits_of_logs (count_logs _ _ _ _ _), hubUnits_fadd,
      hubUnits_fset, recordPost_hubUnits, hubUnits_of_within (padWrite_within s n _ _) (by simp [landParts])]

theorem disarmOne_hubUnits (n : Nat) (u : UnitRec) : hubUnits n (disarmOne n u s) = hubUnits n s := by
  unfold disarmOne
  split
  · exact windowPost_hubUnits s n u
  · split
    · rfl
    · rw [unitDone_hubUnits, dropOnce_hubUnits]

/-! ## A unit's end -/

/-- The registers of the record ring decide whether a slot is free, and a drop leaves them. -/
theorem dropOnce_recordFree (n cause : Nat) (u : UnitRec) : (s.dropOnce n cause u).recordFree n = s.recordFree n := by
  unfold dropOnce
  split
  · rfl
  · refine recordFree_congr n fun q hq => ?_
    rcases List.mem_pair.1 hq with rfl | rfl
    · exact (dropUnit_within s n cause).reg _ n rfl (by simp)
    · exact (dropUnit_within s n cause).reg _ n rfl (by simp)

theorem dropUnit_units (n cause : Nat) :
    (s.dropUnit n cause).fget F.ING_D_CNT0_UNITS n = s.fget F.ING_D_CNT0_UNITS n := by
  unfold dropUnit
  dsimp only
  rw [(within_of_logs (traceEv_logs _ _ _ _ _)).fget _ _ rfl (by simp)]
  have h : (((s.setDesc n { s.desc n with dropped := min ((s.desc n).dropped + 1) 0xFFFF }).fadd F.ING_D_CNT0_DROPS n 1).count
      0x121 (some n) (some (s.fget F.ING_D_CFG_PART n)) 1).fget F.ING_D_CNT0_UNITS n = s.fget F.ING_D_CNT0_UNITS n := by
    rw [(within_of_logs (count_logs _ _ _ _ _)).fget _ _ rfl (by simp), fadd_eq,
      fget_fset_field _ F.ING_D_CNT0_DROPS F.ING_D_CNT0_UNITS _ _ rfl (by decide), setDesc_fget]
  split
  · exact h
  · rw [fget_fset_ne _ _ _ _ _ _ (by decide), h]

theorem dropOnce_counts (n cause : Nat) (u : UnitRec) :
    (s.dropOnce n cause u).fget F.ING_D_CNT0_UNITS n = s.fget F.ING_D_CNT0_UNITS n ∧
    (s.dropOnce n cause u).fget F.ING_D_RPTR_REC_PROD n = s.fget F.ING_D_RPTR_REC_PROD n := by
  unfold dropOnce
  split
  · exact ⟨rfl, rfl⟩
  · exact ⟨dropUnit_units s n cause, (dropUnit_within s n cause).fget _ _ rfl (by simp)⟩

/-- A unit that ends with a record slot free counts, and its record too (R76). -/
theorem unitDone_counts (n a : Nat) (u : UnitRec) (h : s.recordFree n = true) :
    (s.unitDone n a u).fget F.ING_D_CNT0_UNITS n = (s.fget F.ING_D_CNT0_UNITS n + 1) % 2 ^ F.ING_D_CNT0_UNITS.w ∧
    (s.unitDone n a u).fget F.ING_D_RPTR_REC_PROD n = (s.fget F.ING_D_RPTR_REC_PROD n + 1) % 2 ^ 16 := by
  unfold unitDone
  rw [h, Bool.not_true, if_neg Bool.false_ne_true]
  dsimp only
  have hpad := padWrite_within s n (a + u.len) (s.padding n u.len)
  have hpost := recordPost_within (s.padWrite n (a + u.len) (s.padding n u.len)) n u a u.len
  have hprod := recordPost_prod (s.padWrite n (a + u.len) (s.padding n u.len)) n u a u.len
  rw [hpad.fget F.ING_D_RPTR_REC_PROD n rfl (by simp)] at hprod
  have hunits := (hpost.fget F.ING_D_CNT0_UNITS n rfl (by simp)).trans (hpad.fget F.ING_D_CNT0_UNITS n rfl (by simp))
  generalize (s.padWrite n (a + u.len) (s.padding n u.len)).recordPost n u a u.len = v at hprod hunits
  have hlast (f : Fld) (hf : ledger f.r = false) (hsem : f.r ≠ .SEM_STAT) (w : State) (fs : List (Nat × Nat)) :
      ((w.recordSem n).traceEv 0x20 0x30 (some (s.fget F.ING_D_CFG_PART n)) fs).fget f n = w.fget f n :=
    ((within_of_logs (traceEv_logs _ _ _ _ _)).fget f n hf (by simp)).trans
      ((recordSem_within w n).fget f n hf (by simpa using hsem))
  rw [hlast _ rfl (by decide), hlast _ rfl (by decide), (within_of_logs (count_logs _ _ _ _ _)).fget _ _ rfl (by simp),
    (within_of_logs (count_logs _ _ _ _ _)).fget _ _ rfl (by simp), fadd_eq, fget_fset_same _ _ _ _ (by decide),
    fget_fset_ne _ _ _ _ _ _ (by decide), fget_fset_ne _ _ _ _ _ _ (by decide), fget_fset_ne _ _ _ _ _ _ (by decide), hunits]
  exact ⟨rfl, hprod⟩

end Sys2Proof.Proofs
end

section
/-! PROOFS. Stream descriptors armed and disarmed by register and by command (R73-R75, R137, R139); and O41. -/

namespace Sys2Proof.Proofs

open Sys2Proof Sys2Proof.Machine Sys2Proof.Machine.State Sys2Proof.Safety

variable (s : State)

/-! ## An arm -/

theorem descCfgErr_frame (n : Nat) : (s.fset F.ING_D_CTRL_CFG_ERR n 1).flag F.ING_D_CTRL_CFG_ERR n = true ∧
    OnlyBits s (s.fset F.ING_D_CTRL_CFG_ERR n 1) .ING_D_CTRL n [F.ING_D_CTRL_CFG_ERR] ∧
    Frame (oneReg .ING_D_CTRL n) [] s (s.fset F.ING_D_CTRL_CFG_ERR n 1) :=
  ⟨flag_fset_one s _ n rfl (by decide), OnlyBits.refl.fset List.mem_cons_self,
    (fset_within s F.ING_D_CTRL_CFG_ERR n 1).frame (by simp [oneReg]) (List.Subset.refl _)⟩

/-- A descriptor's state as a claim names it. -/
theorem ctrlCell_frame {ps : List Part} {t : State} (n : Nat) (h : Within (regCells [.ING_D_CTRL] n) ps s t) :
    Frame (oneReg .ING_D_CTRL n) ps s t := h.frame (by simp [oneReg]) (List.Subset.refl _)

/-- A write of STATE and of what is in the hub. -/
theorem stateDesc_within (n x : Nat) (v : Desc) :
    Within (regCells [.ING_D_CTRL] n) [.ingress] s ((s.fset F.ING_D_CTRL_STATE n x).setDesc n v) :=
  ((Within.refl s).thenFset F.ING_D_CTRL_STATE n x (by simp)).thenDesc n v

theorem stateDesc_onlyBits (n x : Nat) (v : Desc) :
    OnlyBits s ((s.fset F.ING_D_CTRL_STATE n x).setDesc n v) .ING_D_CTRL n [F.ING_D_CTRL_STATE] :=
  onlyBits_trans (OnlyBits.refl.fset List.mem_cons_self) (onlyBits_of_within (setDesc_within _ n v) rfl (by simp))

theorem descArmed_state (n : Nat) : (s.descArmed n).fget F.ING_D_CTRL_STATE n = 1 :=
  fget_fset_same s F.ING_D_CTRL_STATE n 1 (by decide)

theorem descArmed_desc (n : Nat) : (s.descArmed n).desc n = {} := desc_setDesc _ n _

theorem descArmBit_armed (n : Nat) (h : s.fget F.ING_D_CTRL_STATE n ≠ 0) : s.descArmBit n = s := if_pos h

theorem descArmBit_refused (n : Nat) (h : s.fget F.ING_D_CTRL_STATE n = 0) (hr : s.descRefused n ≠ 0) :
    s.descArmBit n = s.fset F.ING_D_CTRL_CFG_ERR n 1 := by
  unfold descArmBit
  rw [if_neg (not_not_intro h), if_pos hr]

theorem descArmBit_taken (n : Nat) (h : s.fget F.ING_D_CTRL_STATE n = 0) (hr : s.descRefused n = 0) :
    s.descArmBit n = s.descArmed n := by
  unfold descArmBit
  rw [if_neg (not_not_intro h), if_neg (not_not_intro hr)]

/-! ## A disarm -/

theorem descDisarm_quiet (n : Nat) (h : s.fget F.ING_D_CTRL_STATE n = 0) : s.descDisarm n = s := if_pos h

/-- A disarm ends what is in the hub, unit by unit, and then the descriptor is QUIET (R75). -/
theorem descDisarm_active (n : Nat) (h : s.fget F.ING_D_CTRL_STATE n ≠ 0) : s.descDisarm n =
    (forEach ((s.desc n).backlog ++ (s.desc n).cur.toList) (disarmOne n) (s.hubClear n)).fset F.ING_D_CTRL_STATE n 0 := if_neg h

theorem hubClear_hubUnits (n : Nat) : hubUnits n (s.hubClear n) = (none, []) := hubUnits_setDesc s n _

theorem disarms_hubUnits (n : Nat) (us : List UnitRec) : hubUnits n (forEach us (disarmOne n) s) = hubUnits n s := by
  unfold forEach
  induction us generalizing s with
  | nil => rfl
  | cons u us ih => exact (ih (disarmOne n u s)).trans (disarmOne_hubUnits s n u)

theorem descDisarm_state (n : Nat) (h : s.fget F.ING_D_CTRL_STATE n ≠ 0) : (s.descDisarm n).fget F.ING_D_CTRL_STATE n = 0 := by
  rw [descDisarm_active s n h, fget_fset_same _ _ _ _ (by decide), Nat.zero_mod]

theorem descDisarm_hubUnits (n : Nat) (h : s.fget F.ING_D_CTRL_STATE n ≠ 0) : hubUnits n (s.descDisarm n) = (none, []) := by
  rw [descDisarm_active s n h, hubUnits_fset, disarms_hubUnits, hubClear_hubUnits]

/-- With nothing in the hub a disarm writes STATE alone. -/
theorem descDisarm_empty (n : Nat) (h : s.fget F.ING_D_CTRL_STATE n ≠ 0) (hc : (s.desc n).cur = none)
    (hb : (s.desc n).backlog = []) : s.descDisarm n = (s.hubClear n).fset F.ING_D_CTRL_STATE n 0 := by
  rw [descDisarm_active s n h, hc, hb]
  rfl

theorem clearedDesc_within (n : Nat) : Within (regCells [.ING_D_CTRL] n) [.ingress] s ((s.hubClear n).fset F.ING_D_CTRL_STATE n 0) :=
  ((setDesc_within s n _).mono (Set.empty_subset _) (List.Subset.refl _)).thenFset F.ING_D_CTRL_STATE n 0 (by simp)

theorem clearedDesc_onlyBits (n : Nat) :
    OnlyBits s ((s.hubClear n).fset F.ING_D_CTRL_STATE n 0) .ING_D_CTRL n [F.ING_D_CTRL_STATE] :=
  (onlyBits_of_within (setDesc_within s n _) rfl (by simp)).fset List.mem_cons_self

/-- A unit in progress that has grains inside its windows is posted with what has landed of it (R75). -/
theorem disarmOne_unit (n : Nat) (u : UnitRec) (hw : u.isWindow = false) (hi : u.inside ≠ 0) : disarmOne n u s =
    (s.dropOnce n 0 u).unitDone n (s.unitOfs n) (cutShort (if u.complete then u else s.unitClosed u)) := by
  unfold disarmOne
  rw [hw, if_neg Bool.false_ne_true, if_neg (fun h => hi h.1)]

/-- The unit in progress counts, and its record too. -/
theorem descDisarm_counts (n : Nat) (h : s.fget F.ING_D_CTRL_STATE n ≠ 0) (u : UnitRec) (hc : (s.desc n).cur = some u)
    (hi : u.inside ≠ 0) (hw : u.isWindow = false) (hb : (s.desc n).backlog = []) (hr : s.recordFree n = true) :
    (s.descDisarm n).fget F.ING_D_CNT0_UNITS n = (s.fget F.ING_D_CNT0_UNITS n + 1) % 2 ^ F.ING_D_CNT0_UNITS.w ∧
    (s.descDisarm n).fget F.ING_D_RPTR_REC_PROD n = (s.fget F.ING_D_RPTR_REC_PROD n + 1) % 2 ^ 16 := by
  have hone : s.descDisarm n = (disarmOne n u (s.hubClear n)).fset F.ING_D_CTRL_STATE n 0 := by
    rw [descDisarm_active s n h, hc, hb]
    rfl
  have hfree : ((s.hubClear n).dropOnce n 0 u).recordFree n = true := (dropOnce_recordFree _ n 0 u).trans hr
  obtain ⟨hunits, hprod⟩ := dropOnce_counts (s.hubClear n) n 0 u
  rw [hone, disarmOne_unit _ n u hw hi, fget_fset_ne _ _ _ _ _ _ (by decide), fget_fset_ne _ _ _ _ _ _ (by decide)]
  obtain ⟨hunits', hprod'⟩ := unitDone_counts _ n ((s.hubClear n).unitOfs n)
    (cutShort (if u.complete then u else (s.hubClear n).unitClosed u)) hfree
  rw [hunits] at hunits'
  rw [hprod] at hprod'
  exact ⟨hunits', hprod'⟩

/-! ## By register -/

theorem execDArm_refused (n : Fin 128) (hl : Live s)
    (h : s.flag F.ING_D_CFG_DEST n = true ∨ s.tdiLocked (s.fget F.ING_D_CFG_PART n) = true) :
    exec (.dArm n) s = .next (s.accessFault .pf 2 (0x301018 + n.val * 0x40) 0x80000000#64) := by
  show Host.Outcome.next (s.bar _) = _
  rw [bar_live s _ hl]
  rcases h with h | h
  · rw [if_pos h]
  · rw [if_pos h, ite_self]

theorem execDArm_taken (n : Fin 128) (hl : Live s) (hd : s.flag F.ING_D_CFG_DEST n = false)
    (hu : s.tdiLocked (s.fget F.ING_D_CFG_PART n) = false) : exec (.dArm n) s = .next (s.descArmBit n) := by
  show Host.Outcome.next (s.bar _) = _
  rw [bar_live s _ hl, hd, hu]
  rfl

theorem execDDisarm_refused (n : Fin 128) (hl : Live s) (h : s.tdiLocked (s.fget F.ING_D_CFG_PART n) = true) :
    exec (.dDisarm n) s = .next (s.accessFault .pf 2 (0x301018 + n.val * 0x40) 0x40000000#64) := by
  show Host.Outcome.next (s.bar _) = _
  rw [bar_live s _ hl, if_pos h]

theorem execDDisarm_taken (n : Fin 128) (hl : Live s) (hu : s.tdiLocked (s.fget F.ING_D_CFG_PART n) = false) :
    exec (.dDisarm n) s = .next (s.descDisarm n) := by
  show Host.Outcome.next (s.bar _) = _
  rw [bar_live s _ hl, hu]
  rfl

/-! ## The checks of DESC_ARM -/

theorem descCheck_cases (cfg sel : W32) (data rcd : W64) :
    s.descCheck cfg sel data rcd = 0 ∨ s.descCheck cfg sel data rcd = 0x0108 ∨ s.descCheck cfg sel data rcd = 0x0400 := by
  unfold descCheck
  dsimp only
  generalize (_ || _ : Bool) = refused
  cases refused
  · cases s.deckForeign cfg data
    · exact .inl rfl
    · exact .inr (.inr rfl)
  · exact .inr (.inl rfl)

section commands
variable {s} {r : Fin 128} {tag : Fin 512} {c : Cmd} {n : Nat} {cfg sel : W32} {data rcd : W64}

/-- The status of DESC_ARM (R74, R126). -/
theorem descArmCheck_eq (hp : c.par = .descArm n cfg sel data rcd) : s.descArmCheck c =
    firstBad [if s.descCheck cfg sel data rcd = 0x0108 then s.descCheck cfg sel data rcd else 0,
      if cfg.toNat / 2 ^ 28 % 8 ≠ c.part ∨ s.fget F.ING_D_CFG_PART n ≠ c.part then 0x0400 else 0, s.descCheck cfg sel data rcd,
      if s.fget F.ING_D_CTRL_STATE n ≠ 0 then 0x0602 else 0] := by
  have h28 : getBits (cfg.setWidth 64 : W64) 28 3 = cfg.toNat / 2 ^ 28 % 8 := getBits_image cfg 28 3
  unfold State.descArmCheck
  rw [hp]
  simp only [h28]

/-- The verdict of R74 comes first: only a Deck of another partition waits for the partition's check, with the same status. -/
theorem descArmCheck_refused (hp : c.par = .descArm n cfg sel data rcd) (h : s.descCheck cfg sel data rcd ≠ 0) :
    s.descArmCheck c = s.descCheck cfg sel data rcd := by
  rw [descArmCheck_eq hp]
  rcases descCheck_cases s cfg sel data rcd with h0 | h0 | h0
  · exact absurd h0 h
  · simp [firstBad_cons, h0]
  · simp [firstBad_cons, h0]

theorem descArmCheck_foreign (hp : c.par = .descArm n cfg sel data rcd) (h : s.descCheck cfg sel data rcd = 0)
    (hf : ¬ (cfg.toNat / 2 ^ 28 % 8 = c.part ∧ s.fget F.ING_D_CFG_PART n = c.part)) : s.descArmCheck c = 0x0400 := by
  rw [descArmCheck_eq hp, h, if_pos (Decidable.not_and_iff_or_not.1 hf)]
  rfl

theorem descArmCheck_mine (hp : c.par = .descArm n cfg sel data rcd) (h : s.descCheck cfg sel data rcd = 0)
    (hm : cfg.toNat / 2 ^ 28 % 8 = c.part ∧ s.fget F.ING_D_CFG_PART n = c.part) :
    s.descArmCheck c = if s.fget F.ING_D_CTRL_STATE n ≠ 0 then 0x0602 else 0 := by
  have hown : ¬ (cfg.toNat / 2 ^ 28 % 8 ≠ c.part ∨ s.fget F.ING_D_CFG_PART n ≠ c.part) := by tauto
  rw [descArmCheck_eq hp, h, if_neg hown]
  simp only [firstBad_cons, firstBad_nil, ite_self, if_true]
  split <;> rfl

/-! ## DESC_ARM -/

/-- CFG_ERR of a QUIET descriptor of the command's partition, for an arm refused under R74. -/
theorem descMark_eq (hp : c.par = .descArm n cfg sel data rcd) : s.descMark c =
    if s.descCheck cfg sel data rcd ≠ 0 ∧ s.fget F.ING_D_CTRL_STATE n = 0 ∧ s.fget F.ING_D_CFG_PART n = c.part then
      s.fset F.ING_D_CTRL_CFG_ERR n 1 else s := by
  unfold State.descMark
  rw [hp]

theorem descMark_cmds (hp : c.par = .descArm n cfg sel data rcd) : (s.descMark c).cmds = s.cmds := by
  rw [descMark_eq hp]
  split <;> rfl

/-- A DESC_ARM that is refused marks its descriptor and ends (R74). -/
theorem execDescArm_refused (h : Ready s r tag c) (hp : c.par = .descArm n cfg sel data rcd) (hst : s.descArmCheck c ≠ 0) :
    exec (.descArm r tag) s = .next ((s.descMark c).finish r tag (s.descArmCheck c) 0) := by
  obtain ⟨hr, ht⟩ := ready_ring h
  show Host.Outcome.next (s.withCmd _ _ _ _) = _
  rw [withCmd_ready h _ (by rw [hp])]
  have hif : (if s.fenceMet c && s.descArmCheck c != 0 then s.descMark c else s) = s.descMark c := by
    rw [ready_fence h]
    simp [hst]
  simp only [hif]
  rw [enter_refused _ c _ _ ((fenceMet_congr s (descMark_cmds hp) c).trans (ready_fence h)) hst, hr, ht]

/-- A DESC_ARM that passes its checks goes to work (R137). -/
theorem execDescArm_taken (h : Ready s r tag c) (hp : c.par = .descArm n cfg sel data rcd) (hst : s.descArmCheck c = 0) :
    exec (.descArm r tag) s = .next (State.descArmGo c (startedCmd s c)) := by
  show Host.Outcome.next (s.withCmd _ _ _ _) = _
  rw [withCmd_ready h _ (by rw [hp])]
  have hif : (if s.fenceMet c && s.descArmCheck c != 0 then s.descMark c else s) = s := by simp [hst]
  simp only [hif]
  rw [hst, enter_starts _ c _ (ready_fence h)]

/-- What a DESC_ARM refused under R74 leaves: its end, and CFG_ERR of a QUIET descriptor of its partition. -/
theorem descArm_bad (h : Ready s r tag c) (hs : c.signal = false) (hp : c.par = .descArm n cfg sel data rcd)
    (hb : s.descCheck cfg sel data rcd ≠ 0) : ∃ t, exec (.descArm r tag) s = .next t ∧
      Ended t r tag (s.descCheck cfg sel data rcd) 0 ∧
      (s.fget F.ING_D_CTRL_STATE n = 0 → s.fget F.ING_D_CFG_PART n = c.part → t.flag F.ING_D_CTRL_CFG_ERR n = true) ∧
      OnlyBits s t .ING_D_CTRL n [F.ING_D_CTRL_CFG_ERR] ∧ Frame (oneReg .ING_D_CTRL n) [.cmds] s t := by
  have hck := descArmCheck_refused hp hb
  have hx := execDescArm_refused h hp (by rw [hck]; exact hb)
  have hfind := (findCmd_congr s (descMark_cmds hp) r tag).trans h.1
  have hfin := finish_within _ hfind hs (s.descArmCheck c) 0
  have hend := finish_refused _ hfind hs (s.descArmCheck c)
  rw [hck] at hx hfin hend
  obtain ⟨hflag, hbits, -⟩ := descCfgErr_frame s n
  refine ⟨_, hx, hend, fun hq hm => ?_, ?_, ctrlCell_frame s n ?_⟩
  · rw [hfin.flag _ _ rfl (by simp), descMark_eq hp, if_pos ⟨hb, hq, hm⟩, hflag]
  · refine onlyBits_trans ?_ (onlyBits_of_within hfin rfl (by simp))
    rw [descMark_eq hp]
    split
    · exact hbits
    · exact .refl
  · refine Within.thenParts ?_ hfin (List.Subset.refl _)
    rw [descMark_eq hp]
    exact .ite _ ((fset_within s F.ING_D_CTRL_CFG_ERR n 1).mono subset_rfl (List.nil_subset _)) (.refl s)

/-- What a DESC_ARM refused for another reason leaves: its end. -/
theorem descArm_refused (h : Ready s r tag c) (hs : c.signal = false) (hp : c.par = .descArm n cfg sel data rcd)
    (hb : s.descCheck cfg sel data rcd = 0) {st : Nat} (hck : s.descArmCheck c = st) (hst : st ≠ 0) :
    ∃ t, exec (.descArm r tag) s = .next t ∧ Ended t r tag st 0 ∧ Frame noReg [.cmds] s t := by
  subst hck
  have hx := execDescArm_refused h hp hst
  rw [descMark_eq hp, if_neg (fun e => e.1 hb)] at hx
  exact ⟨_, hx, finish_refused s h.1 hs _, (finish_within s h.1 hs _ 0).frame (by simp) (List.Subset.refl _)⟩

/-- The four images written to the registers of a descriptor. -/
def descImaged (s : State) (n : Nat) (cfg sel : W32) (data rcd : W64) : State :=
  (((s.rset .ING_D_CFG n (cfg.setWidth 64)).rset .ING_D_SEL n (sel.setWidth 64)).rset .ING_D_DATA n data).rset .ING_D_REC n
    (rcd &&& 0x00000FFFFFFFFFFF#64)

/-- The registers that DESC_ARM writes. -/
def descRegs : List Reg := [.ING_D_CFG, .ING_D_SEL, .ING_D_DATA, .ING_D_REC, .ING_D_CTRL]

variable (s) in
theorem descImaged_within (n : Nat) (cfg sel : W32) (data rcd : W64) :
    Within (regCells descRegs n) [] s (descImaged s n cfg sel data rcd) := by
  have hrset (u : State) (q : Reg) (v : W64) (hq : q ∈ descRegs) (hl : logReg q = false) :
      Within (regCells descRegs n) [] u (u.rset q n v) :=
    (rset_within u q n v hl).mono (regCells_mono (by simpa using hq) n) (List.Subset.refl _)
  exact (((hrset s _ _ (by decide) rfl).trans (hrset _ _ _ (by decide) rfl)).trans (hrset _ _ _ (by decide) rfl)).trans
    (hrset _ _ _ (by decide) rfl)

variable (s) in
theorem descImaged_images (n : Nat) (cfg sel : W32) (data rcd : W64) : let t := descImaged s n cfg sel data rcd
    t.rget .ING_D_CFG n = cfg.setWidth 64 ∧ t.rget .ING_D_SEL n = sel.setWidth 64 ∧ t.rget .ING_D_DATA n = data ∧
      t.rget .ING_D_REC n = (rcd &&& 0x00000FFFFFFFFFFF#64) := by
  have hne (u : State) (q p : Reg) (v : W64) (h : p ≠ q) : (u.rset q n v).rget p n = u.rget p n :=
    rget_rset_other u q p n n v (.inl h)
  refine ⟨?_, ?_, ?_, rget_rset_same _ _ _ _⟩
  · exact (hne _ _ _ _ (by decide)).trans ((hne _ _ _ _ (by decide)).trans ((hne _ _ _ _ (by decide)).trans
      (rget_rset_same _ _ _ _)))
  · exact (hne _ _ _ _ (by decide)).trans ((hne _ _ _ _ (by decide)).trans (rget_rset_same _ _ _ _))
  · exact (hne _ _ _ _ (by decide)).trans (rget_rset_same _ _ _ _)

theorem descArmGo_eq (u : State) (hp : c.par = .descArm n cfg sel data rcd) :
    State.descArmGo c u = ((descImaged u n cfg sel data rcd).descArmed n).finish c.ring c.tag 0 0 := by
  unfold State.descArmGo
  rw [hp]
  rfl

/-- A DESC_ARM that passes its checks: the images are written and the descriptor is armed (R137). -/
theorem descArm_arms (h : Ready s r tag c) (hs : c.signal = false) (hp : c.par = .descArm n cfg sel data rcd)
    (hck : s.descArmCheck c = 0) : ∃ t, exec (.descArm r tag) s = .next t ∧ Ended t r tag 0 0 ∧
      t.fget F.ING_D_CTRL_STATE n = 1 ∧ t.desc n = {} ∧ t.rget .ING_D_CFG n = cfg.setWidth 64 ∧
      t.rget .ING_D_SEL n = sel.setWidth 64 ∧ t.rget .ING_D_DATA n = data ∧
      t.rget .ING_D_REC n = (rcd &&& 0x00000FFFFFFFFFFF#64) ∧ Frame (theRegs descRegs n) [.cmds, .ingress] s t := by
  have hstart := startedCmd_within s c
  have hfind := startedCmd_find h
  obtain ⟨hr, ht⟩ := ready_ring h
  have hx := execDescArm_taken h hp hck
  rw [descArmGo_eq _ hp, hr, ht] at hx
  generalize startedCmd s c = u at *
  have himaged := descImaged_within u n cfg sel data rcd
  have harmed := stateDesc_within (descImaged u n cfg sel data rcd) n 1 {}
  have hfind' : ((descImaged u n cfg sel data rcd).descArmed n).findCmd r tag = some { c with checked := true, started := true } :=
    hfind
  have hfin := finish_within _ hfind' hs 0 0
  have himage (q : Reg) (hq : q ∈ descRegs) (hc : q ≠ .ING_D_CTRL) :
      (((descImaged u n cfg sel data rcd).descArmed n).finish r tag 0 0).rget q n = (descImaged u n cfg sel data rcd).rget q n := by
    have hl : ledger q = false := by
      revert q
      decide
    exact (hfin.reg q n hl (by simp)).trans (harmed.reg q n hl (by simpa using hc))
  obtain ⟨hcfg, hsel, hdata, hrec⟩ := descImaged_images u n cfg sel data rcd
  refine ⟨_, hx, finish_succeeds _ hfind' hs 0, ?_, ?_, (himage _ (by decide) (by decide)).trans hcfg,
    (himage _ (by decide) (by decide)).trans hsel, (himage _ (by decide) (by decide)).trans hdata,
    (himage _ (by decide) (by decide)).trans hrec, ?_⟩
  · rw [hfin.fget _ _ rfl (by simp), descArmed_state]
  · obtain ⟨-, hdescs, -⟩ := hfin.same .ingress (by simp)
    rw [show ∀ v : State, v.desc n = tabGet {} v.descs n from fun _ => rfl, hdescs]
    exact descArmed_desc _ n
  · have hall : Within (regCells descRegs n) [.cmds, .ingress] s
        (((descImaged u n cfg sel data rcd).descArmed n).finish r tag 0 0) :=
      (((hstart.mono (Set.empty_subset _) (by simp)).next himaged subset_rfl (by simp)).next harmed
        (regCells_mono (by decide) n) (by simp)).thenParts hfin (by simp)
    exact hall.frame (fun q k hq => (reg_mem_regCells descRegs n k q).1 hq) (List.Subset.refl _)

/-! ## DESC_DISARM -/

/-- The result of DESC_DISARM: the SEQ of the last record, if any (R139). -/
def lastResult (v : Option W32) : Nat :=
  match v with
  | some q => q.toNat
  | none => 0xFFFFFFFF

theorem execDescDisarm_foreign (h : Ready s r tag c) (hs : c.signal = false) (hp : c.par = .descDisarm n)
    (hm : s.fget F.ING_D_CFG_PART n ≠ c.part) :
    ∃ t, exec (.descDisarm r tag) s = .next t ∧ Ended t r tag 0x0400 0 ∧ Frame noReg [.cmds] s t := by
  have hck : s.descDisarmCheck c = 0x0400 := by
    unfold State.descDisarmCheck
    rw [hp]
    exact if_pos hm
  obtain ⟨hr, ht⟩ := ready_ring h
  have hx : exec (.descDisarm r tag) s = .next (s.finish r tag 0x0400 0) := by
    show Host.Outcome.next (s.begin _ _ _ _ _ _) = _
    rw [begin_ready h _ (by rw [hp]), hck, enter_refused _ c _ _ (ready_fence h) (by decide), hr, ht]
  exact ⟨_, hx, finish_refused s h.1 hs _, (finish_within s h.1 hs _ 0).frame (by simp) (List.Subset.refl _)⟩

/-- The work of DESC_DISARM (R139). -/
theorem execDescDisarm_taken (h : Ready s r tag c) (hp : c.par = .descDisarm n) (hm : s.fget F.ING_D_CFG_PART n = c.part) :
    exec (.descDisarm r tag) s = .next (if s.fget F.ING_D_CTRL_STATE n = 0 then (startedCmd s c).finish r tag 0 0xFFFFFFFF
      else ((startedCmd s c).descDisarm n).finish r tag 0 (lastResult (((startedCmd s c).descDisarm n).desc n).lastSeq)) := by
  have hck : s.descDisarmCheck c = 0 := by
    unfold State.descDisarmCheck
    rw [hp]
    exact if_neg (not_not_intro hm)
  obtain ⟨hr, ht⟩ := ready_ring h
  have hstate : (startedCmd s c).fget F.ING_D_CTRL_STATE n = s.fget F.ING_D_CTRL_STATE n := rfl
  show Host.Outcome.next (s.begin _ _ _ _ _ _) = _
  rw [begin_ready h _ (by rw [hp]), hck, enter_starts _ c _ (ready_fence h), hp, hr, ht]
  dsimp only
  rw [hstate]
  rfl

theorem descDisarm_ofQuiet (h : Ready s r tag c) (hs : c.signal = false) (hp : c.par = .descDisarm n)
    (hm : s.fget F.ING_D_CFG_PART n = c.part) (hq : s.fget F.ING_D_CTRL_STATE n = 0) :
    ∃ t, exec (.descDisarm r tag) s = .next t ∧ Ended t r tag 0 0xFFFFFFFF ∧ Frame noReg [.cmds] s t := by
  have hx := execDescDisarm_taken h hp hm
  rw [if_pos hq] at hx
  have hfind := startedCmd_find h
  exact ⟨_, hx, finish_succeeds _ hfind hs _,
    ((startedCmd_within s c).trans (finish_within _ hfind hs _ _)).frame (by simp) (List.Subset.refl _)⟩

/-- A DESC_DISARM with nothing in the hub leaves the descriptor QUIET and ends with the SEQ of the last record (R75, R139). -/
theorem descDisarm_ofEmpty (h : Ready s r tag c) (hs : c.signal = false) (hp : c.par = .descDisarm n)
    (hm : s.fget F.ING_D_CFG_PART n = c.part) (hq : s.fget F.ING_D_CTRL_STATE n ≠ 0) (hc : (s.desc n).cur = none)
    (hb : (s.desc n).backlog = []) : ∃ t, exec (.descDisarm r tag) s = .next t ∧ t.fget F.ING_D_CTRL_STATE n = 0 ∧
      Ended t r tag 0 (lastResult (s.desc n).lastSeq) ∧ Frame (oneReg .ING_D_CTRL n) [.cmds, .ingress] s t := by
  have hstart := startedCmd_within s c
  have hfind := startedCmd_find h
  have hx := execDescDisarm_taken h hp hm
  have hdesc : (startedCmd s c).desc n = s.desc n := rfl
  have hstate : (startedCmd s c).fget F.ING_D_CTRL_STATE n = s.fget F.ING_D_CTRL_STATE n := rfl
  rw [if_neg hq, descDisarm_empty _ n (by rwa [hstate]) (by rwa [hdesc]) (by rwa [hdesc])] at hx
  generalize startedCmd s c = u at *
  have hcleared := clearedDesc_within u n
  have hlast : (((u.hubClear n).fset F.ING_D_CTRL_STATE n 0).desc n).lastSeq = (s.desc n).lastSeq :=
    (congrArg Desc.lastSeq (desc_setDesc u n _)).trans (by rw [hdesc])
  have hfind' : ((u.hubClear n).fset F.ING_D_CTRL_STATE n 0).findCmd r tag = some { c with checked := true, started := true } :=
    hfind
  rw [hlast] at hx
  have hfin := finish_within _ hfind' hs 0 (lastResult (s.desc n).lastSeq)
  refine ⟨_, hx, ?_, finish_succeeds _ hfind' hs _, ctrlCell_frame s n ?_⟩
  · rw [hfin.fget _ _ rfl (by simp), fget_fset_same _ _ _ _ (by decide), Nat.zero_mod]
  · exact ((hstart.mono (Set.empty_subset _) (by simp)).next hcleared subset_rfl (by simp)).thenParts hfin (by simp)

end commands

/-! ## The claim -/

/-- What the ARM bit leaves of a QUIET descriptor (R73, R74). -/
theorem descArmBit_quiet (n : Nat) (h : s.fget F.ING_D_CTRL_STATE n = 0) : let t := s.descArmBit n
    (s.descRefused n = 0 → t.fget F.ING_D_CTRL_STATE n = 1 ∧ t.desc n = {} ∧
      OnlyBits s t .ING_D_CTRL n [F.ING_D_CTRL_STATE] ∧ Frame (oneReg .ING_D_CTRL n) [.ingress] s t) ∧
    (s.descRefused n ≠ 0 → t.flag F.ING_D_CTRL_CFG_ERR n = true ∧ OnlyBits s t .ING_D_CTRL n [F.ING_D_CTRL_CFG_ERR] ∧
      Frame (oneReg .ING_D_CTRL n) [] s t) := by
  refine ⟨fun hr => ?_, fun hr => ?_⟩
  · rw [descArmBit_taken s n h hr]
    exact ⟨descArmed_state s n, descArmed_desc s n, stateDesc_onlyBits s n 1 {}, ctrlCell_frame s n (stateDesc_within s n 1 {})⟩
  · rw [descArmBit_refused s n h hr]
    exact descCfgErr_frame s n

/-- Settles O41: writes of ARM and DISARM by the state they find, each command by the verdict of its checks. -/
theorem descriptorsArmAndDisarm : Obligations.DescriptorsArmAndDisarm := by
  unfold Obligations.DescriptorsArmAndDisarm
  refine ⟨fun n s hl => ⟨fun h => ⟨_, execDArm_refused s n hl h, accessFault_recorded s _ _ _ _⟩,
    fun h => ⟨_, execDDisarm_refused s n hl h, accessFault_recorded s _ _ _ _⟩, fun hu => ⟨fun hd hq => ?_, fun hd hq => ?_,
      fun hq => ?_, fun hq => ?_⟩⟩, ?_, ?_⟩
  · exact ⟨_, execDArm_taken s n hl hd hu, descArmBit_quiet s n hq⟩
  · rw [execDArm_taken s n hl hd hu, descArmBit_armed s n hq]
  · rw [execDDisarm_taken s n hl hu, descDisarm_quiet s n hq]
  · obtain ⟨hcur, hback⟩ := Prod.ext_iff.1 (descDisarm_hubUnits s n hq)
    refine ⟨_, execDDisarm_taken s n hl hu, descDisarm_state s n hq, hcur, hback, fun hc hb => ?_, descDisarm_counts s n hq⟩
    rw [descDisarm_empty s n hq hc hb]
    exact ⟨clearedDesc_onlyBits s n, ctrlCell_frame s n (clearedDesc_within s n)⟩
  · intro r tag s c n cfg sel data rcd h hs hp
    refine ⟨fun hq hb hm => descArm_arms h hs hp ?_, descArm_bad h hs hp,
      fun hb hf => descArm_refused h hs hp hb (descArmCheck_foreign hp hb hf) (by decide),
      fun hb hm hq => descArm_refused h hs hp hb ?_ (by decide)⟩
    · rw [descArmCheck_mine hp hb hm, if_neg (not_not_intro hq)]
    · rw [descArmCheck_mine hp hb hm, if_pos hq]
  · intro r tag s c n h hs hp
    exact ⟨execDescDisarm_foreign h hs hp, descDisarm_ofQuiet h hs hp, descDisarm_ofEmpty h hs hp⟩

end Sys2Proof.Proofs
end

section
/-! PROOFS. What a unit changes of its own descriptor alone (R71-R79). -/

namespace Sys2Proof.Proofs

open Sys2Proof Sys2Proof.Machine Sys2Proof.Machine.State Sys2Proof.Safety

variable (s : State)

/-- The registers in which a drop shows (R71). -/
def dropRegs : List Reg := [.ING_D_CTRL, .ING_D_CNT0]

/-- The registers in which the start of a unit shows (R71, R73). -/
def startRegs : List Reg := [.ING_D_CTRL, .ING_D_CNT0, .ING_D_CNT1]

theorem dropUnit_within_own (n cause : Nat) : Within (regCells dropRegs n) [.ingress] s (s.dropUnit n cause) := by
  unfold dropUnit
  refine Within.thenLogs ?_ (traceEv_logs _ _ _ _ _)
  have h := (((Within.refl (S := regCells dropRegs n) (ps := [.ingress]) s).thenDesc n
    { s.desc n with dropped := min ((s.desc n).dropped + 1) 0xFFFF }).thenFadd F.ING_D_CNT0_DROPS n 1 (by simp [dropRegs])).thenLogs
    (count_logs _ 0x121 (some n) (some (s.fget F.ING_D_CFG_PART n)) 1)
  exact .ite _ h (h.thenFset F.ING_D_CTRL_LAST_DROP n cause (by simp [dropRegs]))

theorem unitStart_within_own (n flags info want : Nat) (g : Option Gating) :
    Within (regCells startRegs n) [.ingress] s (s.unitStart n flags info want g) := by
  have hdrop (u : State) (cause : Nat) : Within (regCells startRegs n) [.ingress] u (u.dropUnit n cause) :=
    (dropUnit_within_own u n cause).mono (regCells_mono (by decide) n) (List.Subset.refl _)
  have htake : Within (regCells startRegs n) [.ingress] s
      ((s.fset F.ING_D_CTRL_STATE n 2).setDesc n { s.desc n with seq := (s.desc n).seq + 1 }) :=
    ((Within.refl s).thenFset F.ING_D_CTRL_STATE n 2 (by simp [startRegs])).thenDesc n _
  unfold unitStart unitTake
  refine .ite _ ?_ (.ite _ (htake.trans (hdrop _ _)) (.ite _ (htake.trans (hdrop _ _)) (htake.thenDesc n _)))
  exact ((Within.refl s).thenFadd F.ING_D_CNT1_QUIET n 1 (by simp [startRegs])).thenLogs (count_logs _ _ _ _ _)

theorem unitEnd_within_parts (n : Nat) : Within ∅ [.ingress] s (s.unitEnd n) := by
  unfold unitEnd
  dsimp only
  split
  · exact .refl s
  · exact .ite _ (setDesc_within s n _) (setDesc_within s n _)

theorem unitCut_within_own (n : Nat) : Within (regCells dropRegs n) [.ingress] s (s.unitCut n) := by
  unfold unitCut
  split
  · exact .refl s
  next u _ =>
    have h : Within (regCells dropRegs n) [.ingress] s (s.setDesc n { s.desc n with cur := some (cutShort u) }) :=
      (Within.refl s).thenDesc n _
    exact (Within.ite _ h (h.trans (dropUnit_within_own _ n 5))).thenParts (unitEnd_within_parts _ n) (List.Subset.refl _)

theorem unitCut_ports (n : Nat) : (s.unitCut n).ports = s.ports := by
  unfold unitCut
  split
  · rfl
  · refine (unitEnd_ports _ n).trans ?_
    unfold dropOnce
    split
    · rfl
    · exact dropUnit_ports _ n 5

/-! ## A unit that is taken -/

/-- Nothing changes but STATE of descriptor `n` and what it holds in the hub. -/
structure StateOnly (n : Nat) (s t : State) : Prop where
  within : Within (regCells [.ING_D_CTRL] n) [.ingress] s t
  bits : OnlyBits s t .ING_D_CTRL n [F.ING_D_CTRL_STATE]
  others : ∀ m, m ≠ n → t.desc m = s.desc m

theorem desc_setDesc_other (n m : Nat) (v : Desc) (h : m ≠ n) : (s.setDesc n v).desc m = s.desc m := tabGet_tabSet_other _ _ _ _ _ h

namespace StateOnly

variable {s} {t : State} {n : Nat}

theorem ofState (x : Nat) : StateOnly n s (s.fset F.ING_D_CTRL_STATE n x) :=
  ⟨(Within.refl s).thenFset _ n x (by simp), OnlyBits.refl.fset List.mem_cons_self, fun _ _ => rfl⟩

theorem thenDesc (h : StateOnly n s t) (v : Desc) : StateOnly n s (t.setDesc n v) :=
  ⟨h.within.thenDesc n v, onlyBits_trans h.bits (onlyBits_of_within (setDesc_within t n v) rfl (by simp)),
    fun m hm => (desc_setDesc_other t n m v hm).trans (h.others m hm)⟩

theorem thenEnd (h : StateOnly n s t) : StateOnly n s (t.unitEnd n) := by
  unfold unitEnd
  dsimp only
  split
  · exact h
  · split
    · exact h.thenDesc _
    · exact h.thenDesc _

end StateOnly

/-- The start of a unit that is taken changes STATE, and the hub, of its descriptor alone (R73). -/
theorem unitStart_stateOnly (n flags info want : Nat) (g : Option Gating) {len : Nat} (h : Takes s n len) :
    StateOnly n s (s.unitStart n flags info want g) := by
  obtain ⟨hstate, hrec, hskip, -, -, -⟩ := h
  have hset : StateOnly n s ((s.fset F.ING_D_CTRL_STATE n 2).setDesc n { s.desc n with seq := (s.desc n).seq + 1 }) :=
    (StateOnly.ofState 2).thenDesc _
  have hfree : ((s.fset F.ING_D_CTRL_STATE n 2).setDesc n { s.desc n with seq := (s.desc n).seq + 1 }).recordFree n = true :=
    (recordFree_congr n fun q hq => hset.within.reg q n (by fin_cases hq <;> rfl) (by fin_cases hq <;> simp)).trans hrec
  have hd : (s.fset F.ING_D_CTRL_STATE n 2).desc n = s.desc n := rfl
  unfold unitStart unitTake
  dsimp only
  rw [if_neg hstate, hd, if_neg (by rw [hfree]; decide), if_neg (by rw [hskip]; simp)]
  exact hset.thenDesc _

/-- A unit of one grain that is taken changes STATE, and the hub, of its descriptor alone (R72, R73). -/
theorem unitWhole_stateOnly (n flags info : Nat) (bs : List Byte) (h : Takes s n bs.length) :
    StateOnly n s (s.unitWhole n flags info bs) := by
  obtain ⟨-, hdesc⟩ := unitStart_takes s n flags info bs.length none h
  have hstart := unitStart_stateOnly s n flags info bs.length none h
  obtain ⟨-, -, -, hgate, hcur, hroom⟩ := h
  unfold unitWhole
  generalize s.unitStart n flags info bs.length none = t at *
  have hopen : t.gateNow n = {} := gateNow_ungated t n ((gating_congr n fun q hq k =>
    hstart.within.reg q k (by fin_cases hq <;> rfl) (by fin_cases hq <;> simp)).trans hgate)
  have hback : backlogBytes (t.desc n) = backlogBytes (s.desc n) := by
    rw [hdesc, backlogBytes, backlogBytes, hcur]
    rfl
  rw [grain_fits t n bs false (congrArg Desc.cur hdesc) (by rw [hopen]; rfl) rfl (by rw [hback]; exact hroom)]
  exact (hstart.thenDesc _).thenEnd

/-- What was sampled last is no part of what is taken (R83). -/
theorem taken_sampled {s t : State} {n flags info : Nat} {bs : List Byte} (h : Taken s t n flags info bs)
    (x : Option (Nat × Bool)) : Taken s (t.setDesc n { t.desc n with sampled := x }) n flags info bs := by
  obtain ⟨hstate, hcur, hseq, hunit⟩ := h
  unfold Taken
  rw [desc_setDesc]
  exact ⟨hstate, hcur, hseq, hunit⟩

end Sys2Proof.Proofs
end

section
/-! PROOFS. Periodic samples, SPI transactions, port links and port configuration (R63, R64, R70, R73, R81, R83); and O42. -/

namespace Sys2Proof.Proofs

open Sys2Proof Sys2Proof.Machine Sys2Proof.Machine.State Sys2Proof.Safety

variable (s : State)

/-! ## Requests of a serial port -/

theorem serial_spi (src : Nat) (h : 32 ≤ src) (h' : src ≤ 39) : s.serial src = true := by
  unfold serial
  rw [decide_eq_true h, decide_eq_true h']
  rfl

variable {s} in
theorem serial_congr {t : State} {src : Nat} (h : t.rget .ING_PORT_CFG src = s.rget .ING_PORT_CFG src) :
    t.serial src = s.serial src := by
  unfold serial
  rw [fget_congr s (f := F.ING_PORT_CFG_PARAM) h]

/-- The first request of a tick waits behind all others (R83). -/
theorem ask_last (src n : Nat) (h : ∀ a ∈ (s.port src).waiting, a.tick ≠ s.ticks) : s.ask src n false =
    s.setPort src { s.port src with waiting := (s.port src).waiting ++ [{ tick := s.ticks, descs := [n] }] } := by
  have hnone : (s.port src).waiting.any (fun a => a.tick == s.ticks && a.descs.contains n && a.latched.contains n != false) = false :=
    List.any_eq_false.2 fun a ha => by rw [beq_eq_false_iff_ne.2 (h a ha)]; simp
  unfold ask
  simp only [Bool.and_false, Bool.false_eq_true, if_false, hnone]
  rw [askInsert_last _ _ h]

/-- What stands alone in a port's queue after the first request. -/
theorem ask_first (src n : Nat) (h : (s.port src).waiting = []) :
    (s.ask src n false).port src = { s.port src with waiting := [{ tick := s.ticks, descs := [n] }] } ∧
      Within ∅ [.ingress] s (s.ask src n false) := by
  rw [ask_last s src n (by simp [h]), h, List.nil_append]
  exact ⟨port_setPort s src _, (Within.refl s).thenPort src _⟩

/-- The port taken by the transaction of a request (R83). -/
def portTaken (src : Nat) (q : Ask) (rest : List Ask) : State :=
  s.setPort src { s.port src with waiting := rest, busy := true, serving := q.descs, began := s.ticks }

theorem portTaken_within (src : Nat) (q : Ask) (rest : List Ask) : Within ∅ [.ingress] s (portTaken s src q rest) :=
  (Within.refl s).thenPort src _

theorem startAsk_one (src : Nat) (q : Ask) (rest : List Ask) {n : Nat} (h : q.descs = [n]) : startAsk s src q rest =
    (portTaken s src q rest).unitStart n (if q.latched.contains n then 256 else 0) 0 ((portTaken s src q rest).serialBytes src)
      (some ((portTaken s src q rest).gateNow n)) := by
  unfold startAsk
  rw [h]
  unfold portTaken
  rw [h]
  rfl

/-- A transaction of one descriptor reaches no register but that descriptor's. -/
theorem startAsk_within_own (src : Nat) (q : Ask) (rest : List Ask) {n : Nat} (h : q.descs = [n]) :
    Within (regCells startRegs n) [.ingress] s (startAsk s src q rest) := by
  rw [startAsk_one s src q rest h]
  exact ((portTaken_within s src q rest).mono (Set.empty_subset _) (List.Subset.refl _)).trans (unitStart_within_own _ n _ _ _ _)

/-- LATCHED is bit 8 of FLAGS, whatever other flags a unit starts with (R80, R83). -/
theorem unitStamp_latched (n info : Nat) : natBit (s.unitStamp n 256 info).flags 8 = true := by
  show natBit (256 + (if s.flag F.ING_D_CFG_PH_EN n && (s.phaseOf (s.fget F.ING_D_CFG_BR_CH n)).isNone then 1 else 0) +
    (if s.flag F.TB_STATUS_TB_LOCKED 0 then 0 else 512)) 8 = true
  split <;> split <;> decide

/-- A transaction of one descriptor that takes a unit begins it now, LATCHED where a latch asked for it (R73, R81, R83). -/
theorem startAsk_begins (src : Nat) (q : Ask) (rest : List Ask) {n : Nat} (hd : q.descs = [n]) (ht : Takes s n 0) :
    ∃ u, ((startAsk s src q rest).desc n).cur = some u ∧ u.ts = s.now ∧ u.seq = (s.desc n).seq ∧ u.data = [] ∧
      (n ∈ q.latched → natBit u.flags 8 = true) ∧ (startAsk s src q rest).fget F.ING_D_CTRL_STATE n = 2 := by
  have hnow := ((portTaken_within s src q rest).time (by simp)).1
  have hdesc : (portTaken s src q rest).desc n = s.desc n := rfl
  have htake : Takes (portTaken s src q rest) n 0 := takes_congr ht (fun _ _ _ => rfl) rfl
  rw [startAsk_one s src q rest hd]
  generalize portTaken s src q rest = v at *
  obtain ⟨hstate, h⟩ :=
    unitStart_takes v n (if q.latched.contains n then 256 else 0) 0 (v.serialBytes src) (some (v.gateNow n)) htake
  refine ⟨_, congrArg Desc.cur h, hnow, by rw [hdesc], rfl, fun hl => ?_, hstate⟩
  rw [if_pos (List.contains_iff_mem.2 hl)]
  exact unitStamp_latched v n 0

/-! ## Periodic samples -/

/-- A periodic sample asks its source, and an SSI encoder that is free starts (R70, R83). -/
theorem execPeriodicSample_asks (n : Fin 128) (hstate : s.fget F.ING_D_CTRL_STATE n ≠ 0)
    (hsample : s.fget F.ING_D_CFG_SAMPLE n = 1) :
    exec (.periodicSample n) s = .next (if 16 ≤ s.fget F.ING_D_CFG_SRC n ∧ s.fget F.ING_D_CFG_SRC n < 32 ∧
      (s.sampleAsk n false).serial (s.fget F.ING_D_CFG_SRC n) then (s.sampleAsk n false).serialStart (s.fget F.ING_D_CFG_SRC n)
      else s.sampleAsk n false) := by
  show Host.Outcome.next (ite _ _ _) = _
  rw [if_pos ⟨hstate, hsample⟩]

theorem sampleAsk_once (n : Nat) (hr : s.rxOn (s.fget F.ING_D_CFG_SRC n) = true)
    (hs : s.serial (s.fget F.ING_D_CFG_SRC n) = false) : s.sampleAsk n false = s.sampleAt n false := by
  unfold sampleAsk
  dsimp only
  rw [hr, hs]
  rfl

theorem sampleAsk_serial (n : Nat) (hr : s.rxOn (s.fget F.ING_D_CFG_SRC n) = true)
    (hs : s.serial (s.fget F.ING_D_CFG_SRC n) = true) :
    s.sampleAsk n false = s.ask (s.fget F.ING_D_CFG_SRC n) n false := by
  unfold sampleAsk
  dsimp only
  rw [hr, hs]
  rfl

/-- A latch of this tick has taken the sample already (R83). -/
theorem sampleAt_again (n : Nat) (h : (s.desc n).sampled = some (s.ticks, true)) : s.sampleAt n false = s := by
  unfold sampleAt
  exact (if_pos h).trans (if_neg Bool.false_ne_true)

theorem sampleAt_first (n : Nat) (h : (s.desc n).sampled ≠ some (s.ticks, true)) : s.sampleAt n false =
    let t := s.unitWhole n 0 0 (s.payload (s.fget F.ING_D_CFG_SRC n))
    t.setDesc n { t.desc n with sampled := some (t.ticks, false) } := by
  unfold sampleAt
  exact if_neg h

section periodic
variable {s} {n : Fin 128} (hstate : s.fget F.ING_D_CTRL_STATE n ≠ 0) (hsample : s.fget F.ING_D_CFG_SAMPLE n = 1)
  (hr : s.rxOn (s.fget F.ING_D_CFG_SRC n) = true)
include hstate hsample hr

theorem execPeriodicSample_again (hs : s.serial (s.fget F.ING_D_CFG_SRC n) = false)
    (h : (s.desc n).sampled = some (s.ticks, true)) : exec (.periodicSample n) s = .next s := by
  rw [execPeriodicSample_asks s n hstate hsample, sampleAsk_once s n hr hs, sampleAt_again s n h, hs,
    if_neg (fun e => Bool.false_ne_true e.2.2)]

/-- A source sampled at once gives its payload as one whole unit (R70, R72). -/
theorem execPeriodicSample_takes (hs : s.serial (s.fget F.ING_D_CFG_SRC n) = false)
    (h : (s.desc n).sampled ≠ some (s.ticks, true)) (ht : Takes s n (s.payload (s.fget F.ING_D_CFG_SRC n)).length) :
    ∃ t, exec (.periodicSample n) s = .next t ∧ Taken s t n 0 0 (s.payload (s.fget F.ING_D_CFG_SRC n)) ∧ StateOnly n s t := by
  have hwhole := unitWhole_taken s n 0 0 _ ht
  have honly := unitWhole_stateOnly s n 0 0 _ ht
  have hx := execPeriodicSample_asks s n hstate hsample
  rw [sampleAsk_once s n hr hs, sampleAt_first s n h] at hx
  generalize s.unitWhole n 0 0 (s.payload (s.fget F.ING_D_CFG_SRC n)) = u at hwhole honly hx
  have htaken := taken_sampled hwhole (some (u.ticks, false))
  replace honly := honly.thenDesc { u.desc n with sampled := some (u.ticks, false) }
  dsimp only at hx
  generalize u.setDesc n { u.desc n with sampled := some (u.ticks, false) } = t at htaken honly hx
  have hserial : t.serial (s.fget F.ING_D_CFG_SRC n) = false :=
    (serial_congr (honly.within.reg .ING_PORT_CFG _ rfl (by simp))).trans hs
  rw [hserial, if_neg (fun e => Bool.false_ne_true e.2.2)] at hx
  exact ⟨t, hx, htaken, honly⟩

/-- An SSI encoder that is free starts the transaction at once (R70, R83). -/
theorem execPeriodicSample_ssi (hs : s.serial (s.fget F.ING_D_CFG_SRC n) = true) (hlo : 16 ≤ s.fget F.ING_D_CFG_SRC n)
    (hhi : s.fget F.ING_D_CFG_SRC n ≤ 31) (hb : (s.port (s.fget F.ING_D_CFG_SRC n)).busy = false)
    (hw : (s.port (s.fget F.ING_D_CFG_SRC n)).waiting = []) : ∃ t, exec (.periodicSample n) s = .next t ∧
      t.port (s.fget F.ING_D_CFG_SRC n) = { s.port (s.fget F.ING_D_CFG_SRC n) with
        waiting := [], busy := true, serving := [n.val], began := s.ticks } ∧ Within (regCells startRegs n) [.ingress] s t := by
  have hx := execPeriodicSample_asks s n hstate hsample
  rw [sampleAsk_serial s n hr hs] at hx
  generalize s.fget F.ING_D_CFG_SRC n = src at *
  obtain ⟨hport, hin⟩ := ask_first s src n hw
  generalize s.ask src n false = u at *
  have hserial := (serial_congr (src := src) (hin.reg .ING_PORT_CFG _ rfl (by simp))).trans hs
  rw [if_pos ⟨hlo, by omega, hserial⟩, serialStart_free u src _ [] (by rw [hport]) (by rw [hport]; exact hb)] at hx
  refine ⟨_, hx, ?_, (hin.mono (Set.empty_subset _) (List.Subset.refl _)).trans (startAsk_within_own u src _ [] rfl)⟩
  rw [startAsk_port, hport, (hin.time (by simp)).2]

/-- An SPI port has SPI_TRANSACTION_START for what waits (R70, R83). -/
theorem execPeriodicSample_spi (hlo : 32 ≤ s.fget F.ING_D_CFG_SRC n) (hhi : s.fget F.ING_D_CFG_SRC n ≤ 39)
    (h : ∀ a ∈ (s.port (s.fget F.ING_D_CFG_SRC n)).waiting, a.tick ≠ s.ticks) : exec (.periodicSample n) s =
      .next (s.setPort (s.fget F.ING_D_CFG_SRC n) { s.port (s.fget F.ING_D_CFG_SRC n) with
        waiting := (s.port (s.fget F.ING_D_CFG_SRC n)).waiting ++ [{ tick := s.ticks, descs := [n.val] }] }) := by
  rw [execPeriodicSample_asks s n hstate hsample, sampleAsk_serial s n hr (serial_spi s _ hlo hhi), ask_last s _ _ h,
    if_neg (fun e => absurd e.2.1 (by omega))]

end periodic

theorem execPeriodicSample_none (n : Fin 128) (h : s.fget F.ING_D_CTRL_STATE n = 0 ∨ s.fget F.ING_D_CFG_SAMPLE n ≠ 1) :
    exec (.periodicSample n) s = .next s := by
  show Host.Outcome.next (ite _ _ _) = _
  rw [if_neg (by tauto)]

/-! ## SPI transactions -/

theorem execSpiTransactionStart_on (p : Fin 8) (h : s.rxOn (32 + p) = true) :
    exec (.spiTransactionStart p) s = .next (s.serialStart (32 + p)) := by
  show Host.Outcome.next (ite _ _ _) = _
  rw [if_pos h]

theorem execSpiTransactionStart_none (p : Fin 8)
    (h : s.rxOn (32 + p) = false ∨ (s.port (32 + p)).waiting = [] ∨ (s.port (32 + p)).busy = true) :
    exec (.spiTransactionStart p) s = .next s := by
  cases hr : s.rxOn (32 + p) with
  | false =>
    show Host.Outcome.next (ite _ _ _) = _
    rw [if_neg (by rw [hr]; decide)]
  | true =>
    rw [execSpiTransactionStart_on s p hr]
    rcases h with h | h | h
    · rw [hr] at h
      cases h
    · rw [serialStart_none s _ h]
    · rw [serialStart_busy s _ h]

/-- The bytes of an SPI transfer: each word right-aligned in 4 bytes (R70). -/
def spiBytes (par : Nat) (ws : List W32) : List Byte :=
  ((ws.take (par / 2 ^ 13 % 8 + 1)).map (fun w => leBytes 4 (w.toNat % 2 ^ (par / 2 ^ 8 % 32 + 1)))).flatten

theorem execSpiTransferEnd_ends (p : Fin 8) (ws : List W32) (hr : s.rxOn (32 + p) = true) (hb : (s.port (32 + p)).busy = true) :
    exec (.spiTransferEnd p ws) s =
      .next (s.serialEnd (32 + p) (spiBytes (s.fget F.ING_PORT_CFG_PARAM (32 + p)) ws)) := by
  show Host.Outcome.next (ite _ _ _) = _
  rw [if_pos ⟨hr, hb⟩]
  rfl

theorem execSpiTransferEnd_none (p : Fin 8) (ws : List W32) (h : s.rxOn (32 + p) = false ∨ (s.port (32 + p)).busy = false) :
    exec (.spiTransferEnd p ws) s = .next s := by
  show Host.Outcome.next (ite _ _ _) = _
  rw [if_neg]
  rintro ⟨hr, hb⟩
  rcases h with h | h
  · exact Bool.false_ne_true (h.symm.trans hr)
  · exact Bool.false_ne_true (h.symm.trans hb)

/-- A unit without bytes as its one grain leaves it. -/
def withGrain (u : UnitRec) (g : Gating) (bs : List Byte) : UnitRec :=
  { u with inside := u.inside + 1, data := [{ data := bs, wins := g.wins, line := false }] }

theorem withGrain_data (u : UnitRec) (g : Gating) (bs : List Byte) : unitData (withGrain u g bs) = bs := by
  unfold unitData withGrain
  simp

/-- A unit without bytes takes a grain that fits, and ends (R76, R79). -/
theorem grain_completes (n : Nat) (bs : List Byte) {u : UnitRec} (hu : (s.desc n).cur = some u) (hd : u.data = [])
    (hc : u.cut = false) (hg : (u.gate.getD (s.gateNow n)).shut = false) (hb : bs.length + backlogBytes (s.desc n) ≤ 32768) :
    (∃ x, (((s.grain n bs false).unitEnd n).desc n).backlog = (s.desc n).backlog ++ [x] ∧ unitData x = bs ∧ x.complete = true ∧
      x.ts = u.ts ∧ x.tsEnd = s.now ∧ x.seq = u.seq) ∧ (((s.grain n bs false).unitEnd n).desc n).cur = none ∧
      Within ∅ [.ingress] s ((s.grain n bs false).unitEnd n) := by
  have hgrain : s.grain n bs false =
      s.setDesc n { s.desc n with cur := some (withGrain u (u.gate.getD (s.gateNow n)) bs) } := by
    rw [grain_fits s n bs false hu hg hc hb, hd]
    rfl
  have hdata := withGrain_data u (u.gate.getD (s.gateNow n)) bs
  have hdesc := desc_setDesc s n { s.desc n with cur := some (withGrain u (u.gate.getD (s.gateNow n)) bs) }
  have hin := setDesc_within s n { s.desc n with cur := some (withGrain u (u.gate.getD (s.gateNow n)) bs) }
  rw [hgrain]
  generalize s.setDesc n { s.desc n with cur := some (withGrain u (u.gate.getD (s.gateNow n)) bs) } = v at *
  rw [unitEnd_inside v n (congrArg Desc.cur hdesc) (Nat.succ_ne_zero _), hdesc, desc_setDesc]
  exact ⟨⟨_, rfl, hdata, rfl, rfl, (hin.time (by simp)).1, rfl⟩, rfl, hin.thenDesc n _⟩

/-- The transfer's end completes the unit of the one descriptor it serves (R70, R76, R79). -/
theorem serialEnd_completes (src : Nat) (bs : List Byte) {n : Nat} {u : UnitRec} (hs : (s.port src).serving = [n])
    (hu : (s.desc n).cur = some u) (hd : u.data = []) (hc : u.cut = false) (hg : (u.gate.getD (s.gateNow n)).shut = false)
    (hb : bs.length + backlogBytes (s.desc n) ≤ 32768) :
    (∃ x, ((s.serialEnd src bs).desc n).backlog = (s.desc n).backlog ++ [x] ∧ unitData x = bs ∧ x.complete = true ∧
      x.ts = u.ts ∧ x.tsEnd = s.now ∧ x.seq = u.seq) ∧ ((s.serialEnd src bs).desc n).cur = none ∧
      Within ∅ [.ingress] s (s.serialEnd src bs) := by
  have hend : s.serialEnd src bs =
      ((s.setPort src { s.port src with busy := false, serving := [] }).grain n bs false).unitEnd n := by
    unfold serialEnd
    dsimp only
    rw [hs]
    rfl
  have hfreed : Within ∅ [.ingress] s (s.setPort src { s.port src with busy := false, serving := [] }) :=
    (Within.refl s).thenPort src _
  obtain ⟨hunit, hcur, hin⟩ :=
    grain_completes (s.setPort src { s.port src with busy := false, serving := [] }) n bs hu hd hc hg hb
  rw [hend]
  exact ⟨hunit, hcur, hfreed.trans hin⟩

/-! ## Links -/

/-- A change of a port's link: LINK, and the fault of a broken encoder line ends (R63, R70). -/
theorem execPortLinkChange_link (k : Fin 64) (up : Bool) (h : srcListed k = true) (hk : k.val < 48) :
    ∃ t, exec (.portLinkChange k up) s = .next t ∧ t.flag F.ING_PORT_STAT_LINK k = up ∧
      OnlyBits s t .ING_PORT_STAT k [F.ING_PORT_STAT_LINK] ∧ Frame (oneReg .ING_PORT_STAT k) [.ingress] s t := by
  have hx : exec (.portLinkChange k up) s =
      .next (let u := s.fset F.ING_PORT_STAT_LINK k (if up then 1 else 0)
        if 0x10 ≤ k.val ∧ k.val ≤ 0x1F ∧ up then u.setPort k { u.port k with broken := false } else u) := by
    show Host.Outcome.next (ite _ _ _) = _
    rw [h, decide_eq_false (Nat.not_le.2 hk), Bool.not_true, Bool.or_self, if_neg Bool.false_ne_true]
  have hset : Within (regCells [.ING_PORT_STAT] k ∪ {.port k}) [.ingress] s
      (s.fset F.ING_PORT_STAT_LINK k (if up then 1 else 0)) := (Within.refl s).thenFset _ _ _ (by simp)
  have hflag : (s.fset F.ING_PORT_STAT_LINK k (if up then 1 else 0)).flag F.ING_PORT_STAT_LINK k = up :=
    flag_fset_bit s F.ING_PORT_STAT_LINK k up rfl (by decide)
  have hbits : OnlyBits s (s.fset F.ING_PORT_STAT_LINK k (if up then 1 else 0)) .ING_PORT_STAT k [F.ING_PORT_STAT_LINK] :=
    OnlyBits.refl.fset List.mem_cons_self
  have hframe {t : State} (ht : Within (regCells [.ING_PORT_STAT] k ∪ {.port k}) [.ingress] s t) :
      Frame (oneReg .ING_PORT_STAT k) [.ingress] s t := ht.frame (by simp [oneReg]) (List.Subset.refl _)
  refine ⟨_, hx, ?_⟩
  dsimp only
  split
  · exact ⟨hflag, hbits, hframe (hset.next (setPort_within _ k _) Set.subset_union_right (List.Subset.refl _))⟩
  · exact ⟨hflag, hbits, hframe hset⟩

theorem execPortLinkChange_none (k : Fin 64) (up : Bool) (h : srcListed k = false ∨ 48 ≤ k.val) :
    exec (.portLinkChange k up) s = .next s := by
  show Host.Outcome.next (ite _ _ _) = _
  rw [if_pos]
  rcases h with h | h
  · rw [h]
    rfl
  · rw [decide_eq_true h, Bool.or_true]

/-! ## OFF -/

/-- What a receiver that is held off drops: the registers of its descriptors (R63, R71). -/
def heldCells : Set Cell := regCellsAll dropRegs

theorem portHeld_within (k : Nat) : Within heldCells [.ingress] s (s.portHeld k) := by
  unfold portHeld
  refine ((Within.refl s).thenPort k _).trans (forEach_within _ _ fun n _ u _ => ?_)
  exact ((unitCut_within_own u n).mono (regCells_subset_all _ _) (List.Subset.refl _)).thenDesc n _

theorem portHeld_port (k : Nat) : (s.portHeld k).port k = { s.port k with waiting := [], busy := false, serving := [] } := by
  unfold portHeld
  dsimp only
  rw [port_of_ports (forEach_ports _ _ (fun n u => ?_) _) k, port_setPort]
  exact unitCut_ports u n

/-- The cells that a write of OFF may change. -/
def offCells (k : Nat) : Set Cell := regCells [.ING_PORT_CFG] k ∪ heldCells ∪ {.port k}

section off
variable (k : Nat) (b : Bool)

theorem portOff_same (h : b = s.flag F.ING_PORT_CFG_OFF k) :
    s.portOff k b.toNat = s.fset F.ING_PORT_CFG_OFF k b.toNat := by
  unfold portOff
  exact if_pos (by rw [fget_eq_toNat_flag s F.ING_PORT_CFG_OFF k rfl, h])

theorem portOff_holds (h : s.flag F.ING_PORT_CFG_OFF k = false) :
    s.portOff k (true).toNat = (s.fset F.ING_PORT_CFG_OFF k (true).toNat).portHeld k := by
  unfold portOff
  dsimp only
  rw [fget_eq_toNat_flag s F.ING_PORT_CFG_OFF k rfl, h]
  rfl

theorem portOff_enables (h : s.flag F.ING_PORT_CFG_OFF k = true) :
    s.portOff k (false).toNat = (s.fset F.ING_PORT_CFG_OFF k (false).toNat).setPort k { s.port k with count := 0 } := by
  unfold portOff
  dsimp only
  rw [fget_eq_toNat_flag s F.ING_PORT_CFG_OFF k rfl, h]
  rfl

/-- Beside the bit itself, a write of OFF changes what a receiver held off drops, or the port's count. -/
theorem portOff_within_set :
    Within (heldCells ∪ {.port k}) [.ingress] (s.fset F.ING_PORT_CFG_OFF k b.toNat) (s.portOff k b.toNat) := by
  by_cases h : b = s.flag F.ING_PORT_CFG_OFF k
  · rw [portOff_same s k b h]
    exact .refl _
  · cases b with
    | true =>
      rw [portOff_holds s k (by simpa using Ne.symm h)]
      exact (portHeld_within _ k).mono Set.subset_union_left (List.Subset.refl _)
    | false =>
      rw [portOff_enables s k (by simpa using Ne.symm h)]
      exact (setPort_within _ k _).mono Set.subset_union_right (List.Subset.refl _)

end off

/-! ## Port configuration -/

/-- PARAM is taken where it is in range, and ERR is set where it is not (R63). -/
def paramTaken (k p : Nat) : State :=
  if paramOk k p then s.fset F.ING_PORT_CFG_PARAM k p else s.fset F.ING_PORT_STAT_ERR k 1

theorem execPortCfgWrite_taken (k : Fin 64) (v : W32) (hl : Live s) (h : srcListed k = true) :
    exec (.portCfgWrite k v) s = .next (paramTaken (s.portOff k (v.getLsbD 31).toNat) k (v.toNat % 2 ^ 24)) := by
  show Host.Outcome.next (s.bar _) = _
  rw [bar_live s _ hl]
  unfold portCfg
  rw [h, getBits_setWidth_bit, getBits_setWidth, Nat.pow_zero, Nat.div_one]
  rfl

theorem execPortCfgWrite_none (k : Fin 64) (v : W32) (hl : Live s) (h : srcListed k = false) :
    exec (.portCfgWrite k v) s = .next s := by
  show Host.Outcome.next (s.bar _) = _
  rw [bar_live s _ hl]
  unfold portCfg
  rw [h]
  rfl

theorem paramTaken_within (k p : Nat) : Within (regCells [.ING_PORT_CFG, .ING_PORT_STAT] k) [] s (paramTaken s k p) :=
  .ite _ ((Within.refl s).thenFset _ _ _ (by simp)) ((Within.refl s).thenFset _ _ _ (by simp))

theorem paramTaken_port (k p : Nat) : (paramTaken s k p).port k = s.port k := by
  unfold paramTaken
  split <;> rfl

theorem paramTaken_off (k p : Nat) : (paramTaken s k p).flag F.ING_PORT_CFG_OFF k = s.flag F.ING_PORT_CFG_OFF k := by
  unfold paramTaken
  split
  · exact flag_fset_field s F.ING_PORT_CFG_PARAM F.ING_PORT_CFG_OFF k p rfl (by decide)
  · exact flag_fset_ne s F.ING_PORT_STAT_ERR F.ING_PORT_CFG_OFF k k 1 (by decide)

theorem paramTaken_good (k p : Nat) (h : paramOk k p = true) (hp : p < 2 ^ 24) :
    (paramTaken s k p).fget F.ING_PORT_CFG_PARAM k = p ∧ (paramTaken s k p).rget .ING_PORT_STAT k = s.rget .ING_PORT_STAT k := by
  unfold paramTaken
  rw [if_pos h, fget_fset_same s _ _ _ (by decide)]
  exact ⟨Nat.mod_eq_of_lt hp, rget_rset_other _ _ _ _ _ _ (.inl (by decide))⟩

theorem paramTaken_bad (k p : Nat) (h : paramOk k p = false) :
    (paramTaken s k p).fget F.ING_PORT_CFG_PARAM k = s.fget F.ING_PORT_CFG_PARAM k ∧
      (paramTaken s k p).flag F.ING_PORT_STAT_ERR k = true := by
  unfold paramTaken
  rw [if_neg (by rw [h]; decide)]
  exact ⟨fget_fset_ne s F.ING_PORT_STAT_ERR F.ING_PORT_CFG_PARAM k k 1 (by decide), flag_fset_one s _ k rfl (by decide)⟩

/-- What a write of ING_PORT_CFG leaves of the two registers, beside what OFF ends (R63). -/
theorem portCfg_registers (k p : Nat) (b : Bool) (hp : p < 2 ^ 24) : let t := paramTaken (s.portOff k b.toNat) k p
    t.flag F.ING_PORT_CFG_OFF k = b ∧
    (paramOk k p = true → t.fget F.ING_PORT_CFG_PARAM k = p ∧ t.rget .ING_PORT_STAT k = s.rget .ING_PORT_STAT k) ∧
    (paramOk k p = false → t.fget F.ING_PORT_CFG_PARAM k = s.fget F.ING_PORT_CFG_PARAM k ∧
      t.flag F.ING_PORT_STAT_ERR k = true) := by
  have hoff := portOff_within_set s k b
  have hstat : (s.portOff k b.toNat).rget .ING_PORT_STAT k = s.rget .ING_PORT_STAT k :=
    (hoff.reg .ING_PORT_STAT k rfl (by simp [heldCells, dropRegs])).trans (rget_rset_other _ _ _ _ _ _ (.inl (by decide)))
  have hflag : (s.portOff k b.toNat).flag F.ING_PORT_CFG_OFF k = b := by
    rw [hoff.flag F.ING_PORT_CFG_OFF k rfl (by simp [heldCells, dropRegs]), flag_fset_same _ _ _ _ (by decide)]
    cases b <;> rfl
  have hparam : (s.portOff k b.toNat).fget F.ING_PORT_CFG_PARAM k = s.fget F.ING_PORT_CFG_PARAM k := by
    rw [hoff.fget F.ING_PORT_CFG_PARAM k rfl (by simp [heldCells, dropRegs])]
    exact fget_fset_field s F.ING_PORT_CFG_OFF F.ING_PORT_CFG_PARAM k _ rfl (by decide)
  generalize s.portOff k b.toNat = u at *
  refine ⟨(paramTaken_off u k p).trans hflag, fun h => ?_, fun h => ?_⟩
  · obtain ⟨h1, h2⟩ := paramTaken_good u k p h hp
    exact ⟨h1, h2.trans hstat⟩
  · obtain ⟨h1, h2⟩ := paramTaken_bad u k p h
    exact ⟨h1.trans hparam, h2⟩

/-- What a write of OFF leaves of the port (R63, R70). -/
theorem portCfg_port (k p : Nat) (b : Bool) : let t := paramTaken (s.portOff k b.toNat) k p
    (b = true → s.flag F.ING_PORT_CFG_OFF k = false → (t.port k).waiting = [] ∧ (t.port k).busy = false) ∧
    (b = false → s.flag F.ING_PORT_CFG_OFF k = true → (t.port k).count = 0) := by
  intro t
  have hport : t.port k = (s.portOff k b.toNat).port k := paramTaken_port _ k p
  rw [hport]
  refine ⟨?_, ?_⟩
  · rintro rfl h
    rw [portOff_holds s k h, portHeld_port]
    exact ⟨rfl, rfl⟩
  · rintro rfl h
    rw [portOff_enables s k h, port_setPort]

theorem portCfg_frame (k p : Nat) (b : Bool) : let t := paramTaken (s.portOff k b.toNat) k p
    (b = s.flag F.ING_PORT_CFG_OFF k → Frame (theRegs [.ING_PORT_CFG, .ING_PORT_STAT] k) [] s t) ∧
    Frame (orRegs (theRegs [.ING_PORT_CFG, .ING_PORT_STAT] k) (fun q _ => q = .ING_D_CNT0 ∨ q = .ING_D_CTRL)) [.ingress] s t := by
  have hset : Within (regCells [.ING_PORT_CFG, .ING_PORT_STAT] k) [] s (s.fset F.ING_PORT_CFG_OFF k b.toNat) :=
    (Within.refl s).thenFset _ _ _ (by simp)
  have hparam := paramTaken_within (s.portOff k b.toNat) k p
  refine ⟨fun h => ?_, ?_⟩
  · rw [portOff_same s k b h] at hparam ⊢
    exact (hset.trans hparam).frame (fun q j hq => (reg_mem_regCells _ k j q).1 hq) (List.Subset.refl _)
  · have hall : Within (regCells [.ING_PORT_CFG, .ING_PORT_STAT] k ∪ (heldCells ∪ {.port k})) [.ingress] s
        (paramTaken (s.portOff k b.toNat) k p) :=
      ((hset.mono Set.subset_union_left (List.nil_subset _)).next (portOff_within_set s k b) Set.subset_union_right
        (List.Subset.refl _)).next hparam Set.subset_union_left (List.nil_subset _)
    refine hall.frame (fun q j hq => ?_) (List.Subset.refl _)
    rcases hq with hq | hq | hq
    · exact .inl ((reg_mem_regCells _ k j q).1 hq)
    · exact .inr ((List.mem_pair.1 ((reg_mem_regCellsAll dropRegs j q).1 hq)).symm)
    · cases hq

/-- Settles O42: samples and transactions by what their port's requests do, the two writes by the registers and the port
they leave. -/
theorem samplesAndPorts : Obligations.SamplesAndPorts := by
  unfold Obligations.SamplesAndPorts
  refine ⟨?_, fun n s h => execPeriodicSample_none s n h, ?_, ?_, fun k up s => ⟨execPortLinkChange_link s k up,
    execPortLinkChange_none s k up⟩, ?_⟩
  · intro n s hstate hsample src hr
    refine ⟨execPeriodicSample_again hstate hsample hr, fun hs h ht => ?_, fun hs hlo hhi hb hw => ?_, fun hlo hhi h => ?_⟩
    · obtain ⟨t, hx, htaken, honly⟩ := execPeriodicSample_takes hstate hsample hr hs h ht
      exact ⟨t, hx, htaken, honly.bits, honly.within.frame (by simp [oneReg]) (List.Subset.refl _), honly.others⟩
    · obtain ⟨t, hx, hport, hin⟩ := execPeriodicSample_ssi hstate hsample hr hs hlo hhi hb hw
      exact ⟨t, hx, by rw [hport], by rw [hport], by rw [hport],
        hin.frame (fun q k hq => (reg_mem_regCells startRegs n k q).1 hq) (List.Subset.refl _)⟩
    · refine ⟨_, execPeriodicSample_spi hstate hsample hr hlo hhi h, by rw [port_setPort], ?_⟩
      exact ((Within.refl (S := ∅) s).thenPort src _).frame (by simp) (List.Subset.refl _)
  · refine fun p s => ⟨execSpiTransactionStart_none s p, fun a rest m hr hw hd hb => ?_⟩
    have hx := execSpiTransactionStart_on s p hr
    rw [serialStart_free s _ a rest hw hb] at hx
    have hport := startAsk_port s (32 + p) a rest
    refine ⟨_, hx, by rw [hport], by rw [hport], by rw [hport, hd], startAsk_begins s _ a rest hd, ?_⟩
    exact (startAsk_within_own s _ a rest hd).frame (fun q k hq => (reg_mem_regCells startRegs m k q).1 hq) (List.Subset.refl _)
  · refine fun p ws s => ⟨execSpiTransferEnd_none s p ws, ?_⟩
    intro hr hb par bs
    have hport := serialEnd_port s (32 + p) bs
    refine ⟨_, execSpiTransferEnd_ends s p ws hr hb, congrArg Port.busy hport, congrArg Port.serving hport, ?_⟩
    intro n u hs hu hd hc _ hg hlen
    obtain ⟨hunit, hcur, hin⟩ := serialEnd_completes s (32 + p) bs hs hu hd hc hg hlen
    exact ⟨hunit, hcur, hin.frame (by simp) (List.Subset.refl _)⟩
  · refine fun k v s hl => ⟨execPortCfgWrite_none s k v hl, fun h => ?_⟩
    obtain ⟨hoff, hgood, hbad⟩ := portCfg_registers s k (v.toNat % 2 ^ 24) (v.getLsbD 31) (Nat.mod_lt _ (by decide))
    obtain ⟨hheld, hcount⟩ := portCfg_port s k (v.toNat % 2 ^ 24) (v.getLsbD 31)
    obtain ⟨hsame, hframe⟩ := portCfg_frame s k (v.toNat % 2 ^ 24) (v.getLsbD 31)
    exact ⟨_, execPortCfgWrite_taken s k v hl h, hoff, hgood, hbad, hheld, hcount, hsame, hframe⟩

end Sys2Proof.Proofs
end
